-- ==== Sys2Proof/Config.lean ====
section
/-! DEFINITION. The part's fixed figures, and the one value the spec leaves open. -/

namespace Sys2Proof.Config

/-- The seconds of a station time formed as `sec + added` when that sum passes 4,294,967,295: the
spec states no result there (log 9, DESIGN CHOICE: a free value, it has no body). -/
opaque timeBeyondRange (sec added : Nat) : BitVec 32

/-- Seconds count modulus (R147). -/
def secModulus : Nat := 4294967296

/-- The listen of R170, 200 ms, in microseconds. -/
def listenUs : Nat := 200000

/-- The line silence watch of R176, 1 s. -/
def silenceUs : Nat := 1000000

/-- The errors that take the station off the line (R168). -/
def failedLimit : Nat := 128

/-- The time a round in WON watches after its window end (R10), and an await after W (R20): 500 ms. -/
def watchUs : Nat := 500000

/-- The collection of offers closes 300 ms after the ask is sent (R61). -/
def collectionUs : Nat := 300000

/-- A poll cycle starts every 2 s (R82). -/
def cycleUs : Nat := 2000000

/-- A poll ends 50 ms after it was sent (R82). -/
def pollUs : Nat := 50000

/-- The wait for a HOLD ANSWER or a SETTLE ANSWER, 400 ms (R107, R121). -/
def answerWaitUs : Nat := 400000

/-- The run-on of FINISHING, 2 s (R120). -/
def runOnUs : Nat := 2000000

/-- The PIN entry timeout, 10 s (R128, R135). -/
def pinTimeoutUs : Nat := 10000000

/-- The plausibility window of arming, 8 days (R153), in seconds. -/
def plausibleSec : Nat := 691200

/-- The greatest ceiling (R51), in A. -/
def ceilingMax : Nat := 1023

/-- The table sizes of R10, R25, R34, R40, R42, R53, R56, R124, R165 and R173. -/
def maxRounds : Nat := 4
def maxRecords : Nat := 64
def maxClosures : Nat := 8
def maxHolds : Nat := 4
def maxReceipts : Nat := 4
def maxLoans : Nat := 16
def maxDemands : Nat := 8
def maxJournal : Nat := 64
def maxTx : Nat := 12
def maxRx : Nat := 16

/-- The greatest balance and top up amount (R33, R39). -/
def balanceMax : Int := 99999999

/-- The greatest card id, 2^40 - 1 (R44). -/
def cardMax : Nat := 1099511627775

end Sys2Proof.Config
end

