-- ==== Sys2Proof/Word.lean ====
section
/-! DEFINITION. The byte, the unit of every layout in 11_message_and_frame_formats.md. -/

namespace Sys2Proof

/-- One byte of a frame, an answer or a report. -/
abbrev Byte := BitVec 8

end Sys2Proof
end

