-- ==== Sys2Proof/Syntax.lean ====
section
/-! DEFINITION. The commands of the block: one constructor of `Instr` for each row of
spec/opcode_table.json, with the operands the row's rule reads. Numbers are the numbers the frames
of 11_message_and_frame_formats.md carry; `WellFormed` says which of them a frame can carry. -/

namespace Sys2Proof

/-- A round tag: originating station and that station's sequence number (R10). -/
structure Tag where
  station : Nat
  seq     : Nat
  deriving DecidableEq, Repr

/-- A berth request's fields as packed into 51 bits (R4, R209); `cls` is the class code. -/
structure BerthRequest where
  length    : Nat
  beam      : Nat
  draft     : Nat
  offset    : Nat
  nights    : Nat
  lowWater  : Nat
  power     : Bool
  rating    : Nat
  three     : Bool
  cls       : Nat
  preferred : Nat
  deriving DecidableEq, Repr

/-- The levels of the attention groups, BERTH to STATION (R191). -/
structure Levels where
  berth     : Nat
  occupancy : Nat
  power     : Nat
  fuel      : Nat
  gate      : Nat
  line      : Nat
  station   : Nat
  deriving DecidableEq, Repr

/-- The STATION section (R197, R210); `captureModes` has a bit for each edge, 1 SINGLE. -/
structure StationSection where
  window         : Nat
  bidStep        : Nat
  fender         : Nat
  keel           : Nat
  creditLimit    : Nat
  warnLevel      : Int
  holdLifetime   : Nat
  overdueGrace   : Nat
  departureGrace : Nat
  baseShare      : Nat
  keepMargin     : Nat
  pledgeTimeout  : Nat
  recallPeriod   : Nat
  faultGrace     : Nat
  captureModes   : BitVec 8
  deriving DecidableEq, Repr

/-- The BERTH section (R1, R210); `point` 0 is none, `classMask` bit 0 VISITOR, bit 1 MEMBER. -/
structure BerthSection where
  berth     : Nat
  length    : Nat
  width     : Nat
  depth     : Nat
  point     : Nat
  classMask : Nat
  reserved  : Nat
  deriving DecidableEq, Repr

/-- The POINT section (R74, R210). -/
structure PointSection where
  point     : Nat
  maxRating : Nat
  three     : Nat
  tap       : Nat
  deriving DecidableEq, Repr

/-- The PUMP section (R101, R210). -/
structure PumpSection where
  pump         : Nat
  grade        : Nat
  pulses       : Nat
  price        : Nat
  load         : Nat
  authTimeout  : Nat
  suspendLimit : Nat
  deriving DecidableEq, Repr

/-- The GATE section (R128, R210). -/
structure GateSection where
  openTime      : Nat
  heldLimit     : Nat
  waiverLength  : Nat
  arriveOnEntry : Nat
  deriving DecidableEq, Repr

/-- The SCHEDULE section (R152, R210). -/
structure ScheduleSection where
  place : Nat
  kind  : Nat
  start : Nat
  cycle : Nat
  check : Nat
  deriving DecidableEq, Repr

/-- A PIN as a request carries it (R210): the digit count and the six digit halves. -/
structure PinField where
  count  : Nat
  halves : List Nat
  deriving DecidableEq, Repr

/-- The parameters of BOOK (R27, R210). -/
structure BookParams where
  berth  : Nat
  offset : Nat
  nights : Nat
  length : Nat
  beam   : Nat
  draft  : Nat
  cls    : Nat
  power  : Nat
  rating : Nat
  three  : Nat
  deriving DecidableEq, Repr

/-- A frame as it stands on the pier line (R162): identifier length, remote or data, identifier, data. -/
structure CanFrame where
  extended : Bool
  remote   : Bool
  ident    : BitVec 29
  data     : List Byte
  deriving DecidableEq, Repr

/-- Where a block takes a pier frame from: the front of the receive queue (R173) or the loop-back (R171). -/
inductive RxSource where
  | line | loopBack
  deriving DecidableEq, Repr

/-- A report of 20 bytes on the post line (R212), after its report mark. -/
structure PostReport where
  post    : Byte
  energyA : BitVec 32
  energyB : BitVec 32
  waterA  : BitVec 32
  waterB  : BitVec 32
  trips   : Byte
  check   : Byte
  deriving DecidableEq, Repr

/-- What the part reads from its straps and lines at a start (R195, R102, R103, R144). -/
structure StartInputs where
  station      : Nat
  slowLine     : Bool
  dock         : Bool
  doorOpen     : Bool
  nozzle1Up    : Bool
  nozzle2Up    : Bool
  emergency    : Bool
  deriving DecidableEq, Repr

/-- The commands of the block, in the order of spec/opcode_table.json. -/
inductive Instr where
  | selectAssert (decided : Bool)
  | requestDiscarded
  | null
  | malformedRequest (code len received kind : Nat)
  | configureStation (v : StationSection)
  | configureBerth (v : BerthSection)
  | configurePoint (v : PointSection)
  | configureTariff (set energy water : Nat)
  | configurePump (v : PumpSection)
  | configureGate (v : GateSection)
  | configureStaff (staff card : Nat) (pin : PinField)
  | configureSchedule (v : ScheduleSection)
  | join
  | restart (inp : StartInputs)
  | setClock (sec ms : Nat)
  | tariffSelect (set : Nat)
  | readStation
  | flagsRead
  | flagsClear (mask : BitVec 64)
  | flagsSetup (enables : BitVec 64) (keep : Nat) (levels : Levels) (threshold : Nat)
  | requestBerth (r : BerthRequest)
  | readRound (n : Nat)
  | readBerth (berth night : Nat)
  | book (v : BookParams)
  | cancel (occ : Nat)
  | arrive (occ : Nat)
  | depart (occ : Nat)
  | readOccupancy (occ : Nat)
  | closureRead
  | closureCollect
  | bindCard (occ card : Nat)
  | setPin (occ : Nat) (pin : PinField)
  | changePin (occ : Nat) (old new : PinField)
  | clearPin (occ : Nat)
  | unlock (occ : Nat)
  | topUp (occ amount : Nat)
  | setLimit (occ keep limit : Nat) (warn : Int)
  | bar (occ : Nat)
  | unbar (occ : Nat)
  | readLoans
  | readPoint (point : Nat)
  | profileCheck (occ g1 g2 g3 : Nat)
  | profileSet (occ g1 g2 g3 : Nat)
  | outletReset (point : Nat)
  | pumpAuthorise (pump preset payment card : Nat)
  | pumpSuspend (pump : Nat)
  | pumpResume (pump : Nat)
  | pumpStop (pump : Nat)
  | readPump (pump : Nat)
  | journalRead
  | journalCollect
  | gateOpen
  | gateMode (mode : Nat)
  | readCapture (channel edge : Nat)
  | frameHeard (f : CanFrame)
  | txAttemptStart
  | txSent
  | txContentionLost
  | txError
  | lineActivity
  | listenEnd
  | silenceWatchEnd
  | berthRequestFrame (src : RxSource)
  | bidFrame (src : RxSource)
  | assignFrame (src : RxSource)
  | loanAskFrame (src : RxSource)
  | loanOfferFrame (src : RxSource)
  | loanTakeFrame (src : RxSource)
  | loanDeclineFrame (src : RxSource)
  | loanVoidFrame (src : RxSource)
  | loanRecallFrame (src : RxSource)
  | loanReturnFrame (src : RxSource)
  | holdAskFrame (src : RxSource)
  | holdAnswerFrame (src : RxSource)
  | settleFrame (src : RxSource)
  | settleAnswerFrame (src : RxSource)
  | cardBindFrame (src : RxSource)
  | joinFrame (src : RxSource)
  | timeFrame (src : RxSource)
  | bidReport
  | berthRequestReport
  | assignReport
  | loanAskReport
  | loanOfferReport
  | loanTakeReport
  | holdAskReport
  | settleReport
  | bidDelayEnd (tag : Tag)
  | windowEnd (tag : Tag)
  | watchEnd (tag : Tag)
  | awaitDeadline
  | holdExpiry (occ hold : Nat)
  | pledgeDeadline (partner : Nat)
  | recallDeadline (partner : Nat)
  | collectionClose
  | pollCycleStart
  | postReport (r : PostReport)
  | pollTimeout
  | faultGraceEnd (post : Nat)
  | alongsideNotice (occ : Nat)
  | departingNotice (occ : Nat)
  | barredNotice (occ : Nat)
  | unbarredNotice (occ : Nat)
  | pumpPulse (pump : Nat)
  | nozzleLift (pump : Nat)
  | nozzleHang (pump : Nat)
  | authorisationTimeout (pump : Nat)
  | suspendLimitEnd (pump : Nat)
  | runOnEnd (pump : Nat)
  | holdAskWaitEnd (pump : Nat)
  | settleWaitEnd (pump : Nat)
  | emergencyPress
  | emergencyRelease
  | cardRead (card check : Nat)
  | key (code : Nat)
  | pinEntryTimeout
  | readerFrameTimeout (bytes : List Byte)
  | releaseEnd
  | exitButtonPress
  | doorOpenEdge
  | doorShutEdge
  | heldLimitEnd
  | scheduleDue (place : Nat)
  | nightOn
  | nightOff
  | lockdownOn
  | lockdownOff
  | tariff1
  | tariff2
  | dayRoll
  | clockWrap
  | powerUp (inp : StartInputs) (backupHeld storeAgrees : Bool)
  | powerFail
  deriving DecidableEq, Repr

end Sys2Proof
end

