-- ==== Sys2Proof/Machine/State.lean ====
section
/-! DEFINITION. The state of the block: everything the spec gives each of the ten blocks, plain data.
A field that is the model's own (no rule names it) says so. Times named `...End`, `...At` or
`deadline` are elapsed microseconds (R150's second list); a `Time` is a station time. -/

namespace Sys2Proof.Machine

/-- Seconds and milliseconds of station time (R147). -/
structure Time where
  sec : Nat
  ms  : Nat
  deriving DecidableEq, Repr

/-- The four states of the station (00_scope.md, R202). -/
inductive StationState where
  | unconfigured | joining | onLine | lineOff
  deriving DecidableEq, Repr

/-- The two kinds of start (R203). -/
inductive StartKind where
  | cold | warm
  deriving DecidableEq, Repr

/-- The straps as read at the last start (R195). -/
structure Straps where
  station  : Nat
  slowLine : Bool
  dock     : Bool
  deriving DecidableEq, Repr

/-- The STATION section in use (R197); `baseShare` is PWB's base share (R51). -/
structure Settings where
  window         : Nat
  bidStep        : Nat
  fender         : Nat
  keel           : Nat
  creditLimit    : Nat
  warnLevel      : Int
  holdLifetime   : Nat
  overdueGrace   : Nat
  departureGrace : Nat
  baseShare      : Nat
  keepMargin     : Nat
  pledgeTimeout  : Nat
  recallPeriod   : Nat
  faultGrace     : Nat
  deriving DecidableEq, Repr

/-! ### PNP, the panel port (09) -/

/-- The result of an answer (R185). -/
inductive Result where
  | done | accepted | ignored | refused
  deriving DecidableEq, Repr

/-- The cause of a refusal (R185), in the order of R211's codes. -/
inductive Cause where
  | busy | state | range | full | unknown | locked | funds | holds | noLine | budget | journalFull | config
  deriving DecidableEq, Repr

/-- One field of an answer's data: its width in bytes and its value (R211). -/
structure Datum where
  width : Nat
  value : Int
  deriving DecidableEq, Repr

/-- An answer (R180); `code` is byte 0 of the frame, `cause` present for REFUSED alone. -/
structure Answer where
  code    : Nat
  number  : Nat
  result  : Result
  clamped : Bool
  cause   : Option Cause
  data    : List Datum
  deriving DecidableEq, Repr

/-- What a transaction shifts out, chosen at the assertion for the whole of it (R180): an answer's
bytes (filler 0xFF follows) or the not-ready marker (0xFF in every byte). -/
inductive ShiftOut where
  | answer (bytes : List Byte)
  | notReady
  deriving DecidableEq, Repr

/-- PNP's state (R193). `request` holds the code of the last request taken, until an assertion shifts
its answer out; `transaction` is the transaction begun and not yet released. -/
structure Pnp where
  request     : Option Nat
  transaction : Option ShiftOut
  ready       : Bool
  answer      : Answer
  answerNo    : Nat
  flags       : BitVec 64
  enables     : BitVec 64
  levels      : Levels
  threshold   : Nat
  attention   : Bool
  deriving DecidableEq, Repr

/-! ### LIF, the line interface (08) -/

/-- A pier frame: identifier (kind, key, sender) and data (R163, R208). -/
structure Frame where
  ident : BitVec 29
  data  : List Byte
  deriving DecidableEq, Repr

/-- A frame of the transmit queue, with the note that tells its owner (R165). -/
structure TxFrame where
  serial : Nat
  frame  : Frame
  deriving DecidableEq, Repr

/-- A report LIF has given and its block has not yet taken (R168): SENT or FAILED. -/
structure Report where
  serial : Nat
  frame  : Frame
  sent   : Bool
  deriving DecidableEq, Repr

/-- LIF's state (R179). -/
structure Lif where
  state      : StationState
  tx         : List TxFrame
  attempt    : Option Nat
  rx         : List Frame
  failed     : Nat
  dropped    : Nat
  listenEnd  : Option Nat
  silenceEnd : Option Nat
  loop       : List TxFrame
  reports    : List Report
  serial     : Nat
  deriving DecidableEq, Repr

/-! ### BAL, the berth allocator (01) -/

/-- A berth record (R1). -/
structure Berth where
  number   : Nat
  length   : Nat
  width    : Nat
  depth    : Nat
  point    : Option Nat
  visitor  : Bool
  member   : Bool
  reserved : Bool
  mark     : Option Tag
  deriving DecidableEq, Repr

/-- A bid key: score first, station second (R8). -/
structure BidKey where
  score   : Nat
  station : Nat
  deriving DecidableEq, Repr

/-- The states of a round (R10). -/
inductive RoundState where
  | waiting | bidQueued | bidSent | withdrawn | lost | noFit | won
  deriving DecidableEq, Repr

/-- A round record (R10). `bidFrame` is the note of its BID (R14), `occupancy` what R17 created. -/
structure Round where
  tag        : Tag
  request    : BerthRequest
  arrivalDay : Nat
  candidate  : Option Nat
  ownKey     : Option BidKey
  best       : Option BidKey
  delayEnd   : Option Nat
  windowEnd  : Nat
  watchEnd   : Option Nat
  state      : RoundState
  bidFrame   : Option Nat
  occupancy  : Option Nat
  deriving DecidableEq, Repr

/-- The best ASSIGN an await holds (R20). -/
structure AssignHeard where
  key       : BidKey
  berth     : Nat
  occupancy : Nat
  deriving DecidableEq, Repr

/-- An origination awaiting its result (R20); `frame` is the note of its BERTH REQUEST. -/
structure Await where
  tag        : Tag
  acceptedAt : Nat
  frame      : Nat
  deadline   : Option Nat
  best       : Option AssignHeard
  deriving DecidableEq, Repr

/-- The origination result (R20, R21). -/
inductive Origination where
  | none
  | pending
  | wonHere (heard : AssignHeard)
  | assigned (heard : AssignHeard)
  | noBerth
  | noLine
  deriving DecidableEq, Repr

/-- BAL's state. -/
structure Bal where
  berths  : List Berth
  rounds  : List Round
  seq     : Nat
  lastTag : Option Tag
  result  : Origination
  await   : Option Await
  deriving DecidableEq, Repr

/-! ### OCC, the occupancy table (02) -/

/-- The classes of a stay (R25). -/
inductive BoatClass where
  | visitor | member | seasonal
  deriving DecidableEq, Repr

/-- The live states of a record (R25). -/
inductive OccState where
  | booked | alongside | departing
  deriving DecidableEq, Repr

/-- Why a record was closed (R34); closure due uses the last two (R25). -/
inductive CloseReason where
  | departed | noShow | orphan
  deriving DecidableEq, Repr

/-- The account states (R33). -/
inductive AccountState where
  | open_ | low | overdue | barred
  deriving DecidableEq, Repr

/-- An occupancy credential (R25, section 2.7); `pin` is the digits. -/
structure Credential where
  card   : Nat
  pin    : Option (List Nat)
  count  : Nat
  locked : Bool
  waiver : Option Time
  deriving DecidableEq, Repr

/-- An account (R33). -/
structure Account where
  balance      : Int
  limit        : Nat
  warn         : Int
  state        : AccountState
  overdueSince : Option Time
  late         : Bool
  deriving DecidableEq, Repr

/-- A hold record (R40). -/
structure Hold where
  id      : Nat
  station : Nat
  pump    : Option Nat
  ask     : Option Nat
  amount  : Nat
  placed  : Time
  expiry  : Time
  deriving DecidableEq, Repr

/-- The results of a settlement (R42). -/
inductive SettleResult where
  | applied | lateApplied | unknown
  deriving DecidableEq, Repr

/-- A settle receipt (R42). -/
structure Receipt where
  station : Nat
  hold    : Nat
  sale    : Nat
  result  : SettleResult
  deriving DecidableEq, Repr

/-- A profile: rating code, phases and tap setting (R94). -/
structure Profile where
  rating  : Nat
  three   : Bool
  tapOpen : Bool
  deriving DecidableEq, Repr

/-- An occupancy record (R25). -/
structure Occupancy where
  number     : Nat
  berth      : Nat
  length     : Nat
  beam       : Nat
  draft      : Nat
  cls        : BoatClass
  arrival    : Nat
  nights     : Nat
  state      : OccState
  origin     : Option Tag
  closureDue : Option CloseReason
  credential : Option Credential
  account    : Account
  holds      : List Hold
  receipts   : List Receipt
  profile    : Option Profile
  graceEnd   : Option Time
  awaiting   : Bool
  deriving DecidableEq, Repr

/-- A closure record (R34). -/
structure Closure where
  occupancy : Nat
  berth     : Nat
  cls       : BoatClass
  arrival   : Nat
  nights    : Nat
  reason    : CloseReason
  closedAt  : Time
  balance   : Int
  late      : Bool
  energy    : Nat
  water     : Nat
  deriving DecidableEq, Repr

/-- The kinds of OCC's notices to SPC (04 section 4.3). -/
inductive NoticeKind where
  | alongside | departing | barred | unbarred
  deriving DecidableEq, Repr

/-- A moment of the station, as the model orders moments, with its station time: the final-reading mark of a
point (R79). -/
structure FinalMark where
  moment : Nat
  time   : Time
  deriving DecidableEq, Repr

/-- A notice SPC has not yet taken, with the moment of the change it tells: an entry to DEPARTING is the
final-reading mark (R79, log 43). -/
structure Notice where
  kind : NoticeKind
  occ  : Nat
  mark : FinalMark
  deriving DecidableEq, Repr

/-- OCC's state. -/
structure Occ where
  records  : List Occupancy
  closures : List Closure
  holdId   : Nat
  notices  : List Notice
  deriving DecidableEq, Repr

/-! ### PWB, the power budget (03) -/

/-- The states of a loan record (R53). -/
inductive LoanState where
  | pledged | active | recalled
  deriving DecidableEq, Repr

/-- A loan record (R53); `lent` is direction OUT, `offerFrame` the note of the OFFER that pledged. -/
structure Loan where
  partner    : Nat
  lent       : Bool
  amount     : Nat
  state      : LoanState
  pledge     : Nat
  addition   : Option Nat
  deadline   : Option Nat
  offerFrame : Option Nat
  deriving DecidableEq, Repr

/-- The kinds of demand (R56). -/
inductive DemandKind where
  | energise | raise | pump
  deriving DecidableEq, Repr

/-- A queued demand (R56): `asked` once it has asked (R59), `recalls` the partners recalled for it (R58). -/
structure Demand where
  id      : Nat
  kind    : DemandKind
  source  : Nat
  need    : Nat
  asked   : Bool
  recalls : List Nat
  deriving DecidableEq, Repr

/-- An entry of the energised list or the shed list (section 3.3). -/
structure OutletLoad where
  point  : Nat
  figure : Nat
  moment : Nat
  deriving DecidableEq, Repr

/-- An offer collected (R61). -/
structure Offer where
  lender : Nat
  amount : Nat
  pledge : Nat
  deriving DecidableEq, Repr

/-- The open collection of offers (R61). -/
structure Collection where
  seq     : Nat
  amount  : Nat
  frame   : Nat
  demand  : Nat
  closeAt : Option Nat
  offers  : List Offer
  deriving DecidableEq, Repr

/-- PWB's state. -/
structure Pwb where
  loans      : List Loan
  demands    : List Demand
  energised  : List OutletLoad
  shed       : List OutletLoad
  pledgeId   : Nat
  askSeq     : Nat
  collection : Option Collection
  deriving DecidableEq, Repr

/-! ### SPC, the service point controller (04) -/

/-- The outlet states (R75). -/
inductive OutletState where
  | off | on | shed | heldOff | tripped | faultOff
  deriving DecidableEq, Repr

/-- The last raise outcome of a point (R98). -/
inductive RaiseOutcome where
  | none | applied | budget
  deriving DecidableEq, Repr

/-- The mark of a retained DEPARTING record that found the charging link held (R100). -/
structure RetainedFinal where
  occ  : Nat
  mark : FinalMark
  deriving DecidableEq, Repr

/-- A configured service point and what SPC keeps for it (R74 to R98). `retained` holds the marks R100
sets for retained DEPARTING records that wait at the point. -/
structure Point where
  number       : Nat
  maxRating    : Nat
  three        : Bool
  tapFitted    : Bool
  outlet       : OutletState
  tapOpen      : Bool
  charging     : Option Nat
  arrivals     : List Nat
  finalMark    : Option FinalMark
  retained     : List RetainedFinal
  tripAck      : Bool
  energyBase   : Option Nat
  waterBase    : Option Nat
  lastAccept   : Option Nat
  lastTime     : Option Time
  interval     : Nat
  tapMark      : Bool
  leakMark     : Bool
  raisePending : Option Profile
  raiseLast    : RaiseOutcome
  deriving DecidableEq, Repr

/-- The states of a post (R84). -/
inductive PostState where
  | good | fault | down
  deriving DecidableEq, Repr

/-- A post's poll and fault state (R84). -/
structure Post where
  number     : Nat
  state      : PostState
  bad        : Nat
  faultStart : Option Nat
  deriving DecidableEq, Repr

/-- A meter link (R77). -/
structure Link where
  occ       : Nat
  point     : Nat
  energy    : Nat
  water     : Nat
  energyRes : Nat
  waterRes  : Nat
  deriving DecidableEq, Repr

/-- A tariff set (R88). -/
structure Tariff where
  energy : Nat
  water  : Nat
  deriving DecidableEq, Repr

/-- The poll now open (R82, R212): its frame, the moment it was sent and which sides were TRIPPED then. -/
structure OpenPoll where
  post     : Nat
  sentAt   : Nat
  moment   : Nat
  cmdA     : Byte
  cmdB     : Byte
  trippedA : Bool
  trippedB : Bool
  allOff   : Bool
  deriving DecidableEq, Repr

/-- SPC's state. `toPoll` holds the posts still to be polled in this cycle. -/
structure Spc where
  points    : List Point
  posts     : List Post
  links     : List Link
  tariff1   : Tariff
  tariff2   : Tariff
  nextCycle : Nat
  toPoll    : List Nat
  poll      : Option OpenPoll
  /-- The ON LINE step for retained records (R100) has not yet been taken since the start. -/
  energiseDue : Bool
  /-- The retained ALONGSIDE records that wait at a point and draw no current in JOINING (R202, log 51). -/
  heldBack : List Nat
  deriving DecidableEq, Repr

/-! ### FDC, the fuel dock controller (05) -/

/-- The grades of fuel (R101). -/
inductive Grade where
  | diesel | petrol
  deriving DecidableEq, Repr

/-- A pump's description (R101). -/
structure PumpConfig where
  grade        : Grade
  pulses       : Nat
  price        : Nat
  load         : Nat
  authTimeout  : Nat
  suspendLimit : Nat
  deriving DecidableEq, Repr

/-- The sale states past IDLE (R104). -/
inductive SaleState where
  | authorising | authorised | delivering | suspended | finishing | settling
  deriving DecidableEq, Repr

/-- The load of a sale (R104). -/
inductive LoadState where
  | queued | held | released
  deriving DecidableEq, Repr

/-- The hold taken by a sale (R104). -/
structure HoldRef where
  home : Nat
  hold : Nat
  occ  : Nat
  deriving DecidableEq, Repr

/-- An attempt of a HOLD ASK or SETTLE: attempt 1 or 2, its wait end and the note of its frame. -/
structure Attempt where
  attempt : Nat
  waitEnd : Option Nat
  frame   : Nat
  deriving DecidableEq, Repr

/-- The open ask of a pump (R107). -/
structure OpenAsk where
  seq     : Nat
  attempt : Attempt
  deriving DecidableEq, Repr

/-- The closed ask of a pump (R107). -/
structure ClosedAsk where
  seq  : Nat
  sale : Nat
  hold : Option HoldRef
  deriving DecidableEq, Repr

/-- The context of a sale (R104). `card` absent is PANEL payment. -/
structure Sale where
  state   : SaleState
  number  : Nat
  card    : Option Nat
  preset  : Nat
  hold    : Option HoldRef
  load    : LoadState
  pulses  : Nat
  volume  : Nat
  cutoff  : Nat
  barred  : Bool
  timer   : Option Nat
  settle  : Option Attempt
  deriving DecidableEq, Repr

/-- Why an authorisation was refused (R110). -/
inductive AuthCause where
  | state | locked | funds | holds | budget | noLine | noAnswer | cancelled | stopped
  deriving DecidableEq, Repr

/-- Why an authorised sale lapsed (R110). -/
inductive LapseReason where
  | timeout | cancelled | emergency
  deriving DecidableEq, Repr

/-- A pump's last outcome (R104). -/
inductive LastOutcome where
  | none | pending | authorised
  | refused (cause : AuthCause)
  | lapsed (reason : LapseReason)
  deriving DecidableEq, Repr

/-- A pump (R101 to R107). -/
structure Pump where
  config    : Option PumpConfig
  nozzleUp  : Bool
  stray     : Nat
  main      : Bool
  slow      : Bool
  sale      : Option Sale
  askSeq    : Nat
  ask       : Option OpenAsk
  closedAsk : Option ClosedAsk
  last      : LastOutcome
  deriving DecidableEq, Repr

/-- The flags of a journal record (R124). -/
structure SaleFlags where
  presetReached  : Bool
  suspendTimeout : Bool
  emergency      : Bool
  overrunClamped : Bool
  unsettled      : Bool
  late           : Bool
  interrupted    : Bool
  deriving DecidableEq, Repr

/-- A record of the sale journal (R124); `closed` is state CLOSED, `card` absent is PANEL. -/
structure JournalRecord where
  number    : Nat
  closed    : Bool
  pump      : Nat
  grade     : Grade
  preset    : Nat
  card      : Option Nat
  hold      : Option HoldRef
  startTime : Option Time
  endTime   : Option Time
  volume    : Nat
  price     : Nat
  charged   : Option Nat
  settle    : Option SettleResult
  flags     : SaleFlags
  deriving DecidableEq, Repr

/-- FDC's state, with the station's emergency mark (R103). -/
structure Fdc where
  pump1         : Pump
  pump2         : Pump
  straySections : List PumpSection
  journal       : List JournalRecord
  saleNo        : Nat
  emergency     : Bool
  deriving DecidableEq, Repr

/-! ### GTC, the gate controller (06) -/

/-- A staff credential (R129). -/
structure Staff where
  number : Nat
  card   : Nat
  pin    : List Nat
  count  : Nat
  locked : Bool
  waiver : Option Time
  deriving DecidableEq, Repr

/-- The credential a read finds (R132). -/
inductive Found where
  | staff (number : Nat)
  | occupancy (number : Nat)
  deriving DecidableEq, Repr

/-- The read held in the reader buffer and its PIN entry (R131, R135). -/
structure PinEntry where
  found   : Found
  card    : Nat
  suspect : Bool
  digits  : List Nat
  timeout : Nat
  deriving DecidableEq, Repr

/-- The causes of a gate refusal (R137). -/
inductive GateCause where
  | unknown | mode | state | barred | locked | noPin | wrongPin | timeout | changed
  deriving DecidableEq, Repr

/-- The gate modes (R130). -/
inductive GateMode where
  | day | night | lockdown
  deriving DecidableEq, Repr

/-- The last decision (R137); `cause` absent is GRANTED. -/
structure Decision where
  card     : Nat
  suspect  : Bool
  found    : Option Found
  mode     : GateMode
  pinAsked : Bool
  cause    : Option GateCause
  time     : Time
  deriving DecidableEq, Repr

/-- The door (R144). -/
structure Door where
  isOpen    : Bool
  openTime  : Option Time
  openedAt  : Option Nat
  heldEnd   : Option Nat
  held      : Bool
  deriving DecidableEq, Repr

/-- GTC's state. `entry` absent is decision state IDLE with the reader buffer empty; `release`
absent is the latch HELD; `readerOut` is the frame last sent to the reader (R213). -/
structure Gtc where
  openTime      : Nat
  heldLimit     : Nat
  waiverLength  : Nat
  arriveOnEntry : Bool
  staff         : List Staff
  night         : Bool
  lockdown      : Bool
  entry         : Option PinEntry
  last          : Option Decision
  release       : Option Nat
  door          : Door
  readerOut     : List Byte
  deriving DecidableEq, Repr

/-! ### SCH and CAP (07) -/

/-- The kinds of schedule entry (R152). -/
inductive ScheduleKind where
  | nightOn | nightOff | lockdownOn | lockdownOff | tariff1 | tariff2 | dayRoll
  deriving DecidableEq, Repr

/-- The states of a schedule entry (R152). -/
inductive EntryState where
  | idle | armed | expired
  deriving DecidableEq, Repr

/-- A schedule entry (R152). -/
structure ScheduleEntry where
  place : Nat
  kind  : ScheduleKind
  start : Nat
  cycle : Nat
  check : Bool
  state : EntryState
  due   : Option Nat
  deriving DecidableEq, Repr

/-- SCH's state; `us` counts below the millisecond (the model's own), `firings` are not yet taken (R155). -/
structure Sch where
  sec       : Nat
  ms        : Nat
  us        : Nat
  tariffSet : Nat
  places    : List ScheduleEntry
  firings   : List ScheduleKind
  deriving DecidableEq, Repr

/-- A capture record (R159). -/
structure Capture where
  single : Bool
  time   : Option Time
  mark   : Bool
  missed : Nat
  deriving DecidableEq, Repr

/-- CAP's eight capture records (R158, R159). -/
structure Cap where
  doorOpen   : Capture
  doorShut   : Capture
  lift1      : Capture
  hang1      : Capture
  lift2      : Capture
  hang2      : Capture
  press      : Capture
  released   : Capture
  deriving DecidableEq, Repr

/-! ### The station -/

/-- The state of the block. `elapsed` counts microseconds and `moments` orders moments (both the
model's own); `pending` is the queue of commands waiting, first in, first out. -/
structure State where
  powered   : Bool
  straps    : Straps
  startKind : StartKind
  settings  : Settings
  elapsed   : Nat
  moments   : Nat
  pnp       : Pnp
  lif       : Lif
  bal       : Bal
  occ       : Occ
  pwb       : Pwb
  spc       : Spc
  fdc       : Fdc
  gtc       : Gtc
  sch       : Sch
  cap       : Cap
  pending   : List Instr
  deriving DecidableEq, Repr

/-- Why the machine stops with a fault. It has no constructor: the spec names no event that stops the
part (R185: a request that cannot be carried out is answered REFUSED with a cause). -/
inductive Fault where
  deriving DecidableEq, Repr

/-- Why a command has no meaning. -/
inductive Refusal where
  /-- Raised by an arm of `exec` for a command whose meaning is not yet written; safe. -/
  | notModelled (mnemonic : String)
  deriving DecidableEq, Repr

/-- The defaults of R197; the base share is 0 until the section is written. -/
def Settings.start : Settings :=
  { window := 60, bidStep := 50, fender := 4, keel := 5, creditLimit := 10000, warnLevel := 1000,
    holdLifetime := 30, overdueGrace := 24, departureGrace := 2, baseShare := 0, keepMargin := 8,
    pledgeTimeout := 2, recallPeriod := 30, faultGrace := 600 }

/-- The start answer (R182): code 0, number 0, DONE, data 1 COLD or 2 WARM (R211). -/
def Answer.start (k : StartKind) : Answer :=
  { code := 0, number := 0, result := .done, clamped := false, cause := none,
    data := [⟨1, match k with | .cold => 1 | .warm => 2⟩] }

/-- Every group at level 0 (R193). -/
def Levels.zero : Levels := ⟨0, 0, 0, 0, 0, 0, 0⟩

/-- PNP after a start (R193): the only flag set is the start's own, COLD START 61 or WARM START 62
(R203), at bits 60 and 61. -/
def Pnp.start (k : StartKind) : Pnp :=
  { request := none, transaction := none, ready := true, answer := Answer.start k, answerNo := 0,
    flags := match k with | .cold => 1#64 <<< 60 | .warm => 1#64 <<< 61,
    enables := 0, levels := Levels.zero, threshold := 1, attention := false }

/-- LIF after a start (R179). -/
def Lif.start : Lif :=
  { state := .unconfigured, tx := [], attempt := none, rx := [], failed := 0, dropped := 0,
    listenEnd := none, silenceEnd := none, loop := [], reports := [], serial := 0 }

/-- BAL after a start (R1, R23). -/
def Bal.start : Bal :=
  { berths := [], rounds := [], seq := 0, lastTag := none, result := .none, await := none }

/-- OCC after a cold start (R50). -/
def Occ.cold : Occ := { records := [], closures := [], holdId := 0, notices := [] }

/-- PWB after a start (R72). -/
def Pwb.start : Pwb :=
  { loans := [], demands := [], energised := [], shed := [], pledgeId := 0, askSeq := 0,
    collection := none }

/-- A post after a start (R84). -/
def Post.start (n : Nat) : Post := { number := n, state := .good, bad := 0, faultStart := none }

/-- SPC after a start at elapsed time `now` (R100); the all-off cycle of R82 is due at once (log 18). -/
def Spc.start (now : Nat) : Spc :=
  { points := [], posts := (List.range 16).map fun i => Post.start (i + 1), links := [],
    tariff1 := ⟨0, 0⟩, tariff2 := ⟨0, 0⟩, nextCycle := now, toPoll := [], poll := none,
    energiseDue := true, heldBack := [] }

/-- A pump after a start, its nozzle state read from the switch (R102, R104). -/
def Pump.start (nozzleUp : Bool) : Pump :=
  { config := none, nozzleUp := nozzleUp, stray := 0, main := false, slow := false, sale := none,
    askSeq := 0, ask := none, closedAsk := none, last := .none }

/-- FDC after a cold start (R127), with the levels read at the start. -/
def Fdc.cold (inp : StartInputs) : Fdc :=
  { pump1 := Pump.start inp.nozzle1Up, pump2 := Pump.start inp.nozzle2Up, straySections := [],
    journal := [], saleNo := 0, emergency := inp.emergency }

/-- GTC after a start (R128, R146): a door found OPEN has its opening begin at the start (R144), its held
limit the default 60 s and its open time, with no open edge captured, the station time of the start (log 52);
the frame with 0 is sent to the reader once (R213). -/
def Gtc.start (inp : StartInputs) (now : Nat) (t : Time) : Gtc :=
  { openTime := 5, heldLimit := 60, waiverLength := 4, arriveOnEntry := false, staff := [],
    night := false, lockdown := false, entry := none, last := none, release := none,
    door :=
      if inp.doorOpen then
        { isOpen := true, openTime := some t, openedAt := some now,
          heldEnd := some (now + 60 * 1000000), held := false }
      else { isOpen := false, openTime := none, openedAt := none, heldEnd := none, held := false },
    readerOut := [0xC8#8, 0x00#8] }

/-- SCH after a start (R151, R157), the clock at `sec`, `ms`, `us`. -/
def Sch.start (sec ms us : Nat) : Sch :=
  { sec := sec, ms := ms, us := us, tariffSet := 1, places := [], firings := [] }

/-- A capture record after a start (R161). -/
def Capture.start : Capture := { single := false, time := none, mark := false, missed := 0 }

/-- CAP after a start (R161). -/
def Cap.start : Cap :=
  { doorOpen := .start, doorShut := .start, lift1 := .start, hang1 := .start, lift2 := .start,
    hang2 := .start, press := .start, released := .start }

/-- The levels `State.reset` stands for (log 10, DESIGN CHOICE): station 1, 125 kbit/s, no fuel dock,
door shut, nozzles down, no emergency. -/
def StartInputs.atReset : StartInputs :=
  { station := 1, slowLine := false, dock := false, doorOpen := false, nozzle1Up := false,
    nozzle2Up := false, emergency := false }

/-- The machine after a cold start (R204), with the levels of `StartInputs.atReset`. -/
def State.reset : State :=
  { powered := true
    straps := { station := 1, slowLine := false, dock := false }
    startKind := .cold
    settings := Settings.start
    elapsed := 0
    moments := 0
    pnp := Pnp.start .cold
    lif := Lif.start
    bal := Bal.start
    occ := Occ.cold
    pwb := Pwb.start
    spc := Spc.start 0
    fdc := Fdc.cold StartInputs.atReset
    gtc := Gtc.start StartInputs.atReset 0 ⟨0, 0⟩
    sch := Sch.start 0 0 0
    cap := Cap.start
    pending := [] }

end Sys2Proof.Machine
end

