-- ==== Sys2Proof/Machine/Operands.lean ====
section
/-! DEFINITION. The operand and frame forms: big-endian numbers, pier identifiers and keys (R208),
the data of each pier frame (R209), the packed berth request, PINs, post polls and reports (R212),
card reads (R213), answer data (R211), and the ranges the rules test. -/

namespace Sys2Proof.Machine

/-! ### Numbers in frames (11: most significant byte first) -/

/-- `n` as `width` bytes, most significant first; a negative value in two's complement. -/
def beBytes : (width : Nat) → (n : Nat) → List Byte
  | 0, _ => []
  | w + 1, n => BitVec.ofNat 8 (n / 256 ^ w) :: beBytes w n

/-- The number a run of bytes gives, most significant first. -/
def beNat (l : List Byte) : Nat := l.foldl (fun a b => a * 256 + b.toNat) 0

/-- One field of an answer's data in bytes (R211). -/
def Datum.bytes (d : Datum) : List Byte :=
  beBytes d.width (d.value % (256 ^ d.width : Nat)).toNat

/-! ### Pier frames -/

/-- A key from its fields (width, value), the first at the top of the 19 bits (R208). -/
def packKey (fields : List (Nat × Nat)) : Nat :=
  (fields.foldl (fun (a : Nat × Nat) f => (a.1 - f.1, a.2 + f.2 % 2 ^ f.1 * 2 ^ (a.1 - f.1))) (19, 0)).2

/-- A pier frame of a kind code, key fields, sender and data (R163, R208). -/
def mkFrame (kind : Nat) (fields : List (Nat × Nat)) (sender : Nat) (data : List Byte) : Frame :=
  { ident := BitVec.ofNat 29 (kind * 2 ^ 24 + packKey fields * 2 ^ 5 + sender % 32), data := data }

/-- The kind code, identifier bits 28-24. -/
def Frame.kind (f : Frame) : Nat := f.ident.toNat / 2 ^ 24

/-- The sender, identifier bits 4-0. -/
def Frame.sender (f : Frame) : Nat := f.ident.toNat % 32

/-- The key field of `width` bits that lies `off` bits below the key's top (R208). -/
def Frame.keyField (f : Frame) (off width : Nat) : Nat :=
  f.ident.toNat / 2 ^ (24 - off - width) % 2 ^ width

/-- The number in `len` data bytes from byte `off` (R209). -/
def Frame.num (f : Frame) (off len : Nat) : Nat := beNat ((f.data.drop off).take len)

/-- The fixed data length of each kind (R209); no kind 0 or above 18. -/
def kindLength : Nat → Option Nat
  | 1 => some 5 | 2 => some 2 | 3 => some 2 | 4 => some 2 | 5 => some 3 | 6 => some 2
  | 7 => some 0 | 8 => some 0 | 9 => some 8 | 10 => some 4 | 11 => some 6 | 12 => some 1
  | 13 => some 2 | 14 => some 6 | 15 => some 7 | 16 => some 5 | 17 => some 3 | 18 => some 6
  | _ => none

/-- Well formed on the line (R162): an extended data frame of a known kind and that kind's length. -/
def canWellFormed (f : CanFrame) : Bool :=
  f.extended && !f.remote &&
    kindLength (f.ident.toNat / 2 ^ 24) == some f.data.length

/-- The addressee a kind carries at the top of its key, or none (R172). -/
def Frame.addressee (f : Frame) : Option Nat :=
  if f.kind ∈ [2, 3, 5, 6, 7, 8, 10, 11, 12, 16] then some (f.keyField 0 5) else none

/-- Whether a kind is taken in a station state (R172). -/
def takenIn (st : StationState) (kind : Nat) : Bool :=
  match st with
  | .joining => kind ∈ [13, 14, 15, 17, 18]
  | .onLine => 2 ≤ kind && kind ≤ 18
  | _ => false

/-- Whether LIF accepts a kind for sending in a station state (R165). -/
def acceptedIn (st : StationState) (kind : Nat) : Bool :=
  match st with
  | .joining => kind == 17
  | .onLine => 1 ≤ kind && kind ≤ 16
  | _ => false

/-- The alarm kinds (R208). -/
inductive AlarmKind where
  | emergencyStop | gateForced | leak | postFault | gateHeld
  deriving DecidableEq, Repr

def AlarmKind.code : AlarmKind → Nat
  | .emergencyStop => 1 | .gateForced => 2 | .leak => 3 | .postFault => 4 | .gateHeld => 5

/-- ALARM (R177, R209). -/
def alarmFrame (me : Nat) (k : AlarmKind) (number value : Nat) : Frame :=
  mkFrame 1 [(3, k.code)] me (beBytes 1 number ++ beBytes 4 value)

/-- LOAN RECALL to a borrower. -/
def loanRecallFrame (me borrower pledge amount : Nat) : Frame :=
  mkFrame 2 [(5, borrower), (8, pledge)] me (beBytes 2 amount)

/-- LOAN RETURN to a lender. -/
def loanReturnFrame (me lender pledge amount : Nat) : Frame :=
  mkFrame 3 [(5, lender), (8, pledge)] me (beBytes 2 amount)

/-- LOAN ASK. -/
def loanAskFrame (me seq amount : Nat) : Frame :=
  mkFrame 4 [(8, seq)] me (beBytes 2 amount)

/-- LOAN OFFER to an asker. -/
def loanOfferFrame (me asker seq amount pledge : Nat) : Frame :=
  mkFrame 5 [(5, asker), (8, seq)] me (beBytes 2 amount ++ beBytes 1 pledge)

/-- LOAN TAKE to a lender. -/
def loanTakeFrame (me lender pledge amount : Nat) : Frame :=
  mkFrame 6 [(5, lender), (8, pledge)] me (beBytes 2 amount)

/-- LOAN DECLINE to a lender. -/
def loanDeclineFrame (me lender pledge : Nat) : Frame :=
  mkFrame 7 [(5, lender), (8, pledge)] me []

/-- LOAN VOID to a borrower. -/
def loanVoidFrame (me borrower pledge : Nat) : Frame :=
  mkFrame 8 [(5, borrower), (8, pledge)] me []

/-- HOLD ASK. -/
def holdAskFrame (me pump seq card amount : Nat) : Frame :=
  mkFrame 9 [(2, pump), (8, seq)] me (beBytes 5 card ++ beBytes 3 amount)

/-- HOLD ANSWER OK to a requester. -/
def holdOkFrame (me requester pump seq hold occ : Nat) : Frame :=
  mkFrame 10 [(5, requester), (2, pump), (8, seq)] me
    (beBytes 1 1 ++ beBytes 1 0 ++ beBytes 1 hold ++ beBytes 1 occ)

/-- The causes of a HOLD ANSWER (R41, R209). -/
inductive HoldCause where
  | state | locked | funds | holds
  deriving DecidableEq, Repr

def HoldCause.code : HoldCause → Nat
  | .state => 1 | .locked => 2 | .funds => 3 | .holds => 4

/-- HOLD ANSWER REFUSED to a requester. -/
def holdRefusedFrame (me requester pump seq : Nat) (c : HoldCause) : Frame :=
  mkFrame 10 [(5, requester), (2, pump), (8, seq)] me
    (beBytes 1 2 ++ beBytes 1 c.code ++ beBytes 1 0 ++ beBytes 1 0)

/-- SETTLE to a home station. -/
def settleFrame (me home hold amount occ sale : Nat) : Frame :=
  mkFrame 11 [(5, home), (8, hold)] me (beBytes 3 amount ++ beBytes 1 occ ++ beBytes 2 sale)

/-- The codes of a settle result (R209). -/
def SettleResult.code : SettleResult → Nat
  | .applied => 1 | .lateApplied => 2 | .unknown => 3

/-- SETTLE ANSWER to a requester. -/
def settleAnswerFrame (me requester hold : Nat) (r : SettleResult) : Frame :=
  mkFrame 12 [(5, requester), (8, hold)] me (beBytes 1 r.code)

/-- BID (R14): the score in the identifier, the full tag in the data. -/
def bidFrame (me score : Nat) (tag : Tag) : Frame :=
  mkFrame 13 [(10, score), (5, tag.station), (4, tag.seq)] me
    (beBytes 1 tag.station ++ beBytes 1 tag.seq)

/-- ASSIGN (R17). -/
def assignFrame (me : Nat) (tag : Tag) (score berth occ : Nat) : Frame :=
  mkFrame 14 [(5, tag.station), (8, tag.seq)] me
    (beBytes 1 tag.station ++ beBytes 1 tag.seq ++ beBytes 2 score ++ beBytes 1 berth ++ beBytes 1 occ)

/-- The packed berth request as a number of 56 bits (R209). -/
def packRequest (r : BerthRequest) : Nat :=
  r.length % 1024 * 2 ^ 46 + r.beam % 256 * 2 ^ 38 + r.draft % 64 * 2 ^ 32 + r.offset % 8 * 2 ^ 29 +
  r.nights % 64 * 2 ^ 23 + r.lowWater % 128 * 2 ^ 16 + r.power.toNat * 2 ^ 15 +
  r.rating % 4 * 2 ^ 13 + r.three.toNat * 2 ^ 12 + r.cls % 4 * 2 ^ 10 + r.preferred % 32 * 2 ^ 5

/-- The fields of a packed berth request (R209). -/
def unpackRequest (x : Nat) : BerthRequest :=
  { length := x / 2 ^ 46 % 1024, beam := x / 2 ^ 38 % 256, draft := x / 2 ^ 32 % 64,
    offset := x / 2 ^ 29 % 8, nights := x / 2 ^ 23 % 64, lowWater := x / 2 ^ 16 % 128,
    power := x / 2 ^ 15 % 2 == 1, rating := x / 2 ^ 13 % 4, three := x / 2 ^ 12 % 2 == 1,
    cls := x / 2 ^ 10 % 4, preferred := x / 2 ^ 5 % 32 }

/-- BERTH REQUEST (R19). -/
def berthRequestFrame (me seq : Nat) (r : BerthRequest) : Frame :=
  mkFrame 15 [(8, seq)] me (beBytes 7 (packRequest r))

/-- The start kinds a JOIN carries (R170, R209). -/
inductive JoinKind where
  | cold | warm | line
  deriving DecidableEq, Repr

def JoinKind.code : JoinKind → Nat
  | .cold => 1 | .warm => 2 | .line => 3

/-- JOIN (R170). -/
def joinFrame (me base : Nat) (k : JoinKind) : Frame :=
  mkFrame 17 [] me (beBytes 2 base ++ beBytes 1 k.code)

/-! ### Ranges -/

/-- `lo ≤ n ≤ hi`. -/
def within (lo hi n : Nat) : Bool := lo ≤ n && n ≤ hi

/-- A value moved to the nearer end of its range (R196). -/
def clamp (lo hi n : Nat) : Nat := max lo (min hi n)

/-- The same of a signed value. -/
def clampInt (lo hi n : Int) : Int := max lo (min hi n)

/-- Every field of a berth request within R4's ranges (class 1 VISITOR, 2 MEMBER). -/
def requestInRange (r : BerthRequest) : Bool :=
  within 30 600 r.length && within 10 150 r.beam && within 5 60 r.draft && r.offset ≤ 6 &&
  within 1 60 r.nights && r.lowWater ≤ 80 && r.rating ≤ 3 && within 1 2 r.cls && r.preferred ≤ 31

/-- Every parameter of BOOK within R27's ranges; the yes/no bytes 0 or 1 (R210). The rating code and the
three-phase byte are tested also where power is not wanted (log 48). -/
def bookInRange (v : BookParams) : Bool :=
  within 1 48 v.berth && v.offset ≤ 365 && within 1 366 v.nights && within 30 600 v.length &&
  within 10 150 v.beam && within 5 60 v.draft && within 1 3 v.cls && v.power ≤ 1 &&
  v.rating ≤ 3 && v.three ≤ 1

/-- A class code (R25, R27): 1 VISITOR, 2 MEMBER, 3 SEASONAL. -/
def classOf (n : Nat) : BoatClass :=
  if n = 1 then .visitor else if n = 2 then .member else .seasonal

/-- The digits of a PIN field of 4-6 digits, every half at most 9 (R46, R210); none when out of range. -/
def pinDigits (p : PinField) : Option (List Nat) :=
  if within 4 6 p.count && p.halves.all (· ≤ 9) then some (p.halves.take p.count) else none

/-- A card id in range (R44, R105). -/
def cardOk (card : Nat) : Bool := within 1 Config.cardMax card

/-- A schedule kind's code, in the order of R152. -/
def scheduleKindOf : Nat → Option ScheduleKind
  | 1 => some .nightOn | 2 => some .nightOff | 3 => some .lockdownOn | 4 => some .lockdownOff
  | 5 => some .tariff1 | 6 => some .tariff2 | 7 => some .dayRoll | _ => none

/-! ### Profiles -/

/-- A rating code in A (R94). -/
def ratingAmps : Nat → Nat
  | 0 => 10 | 1 => 16 | 2 => 32 | _ => 63

/-- The load figure: the rating times the phases (R52). -/
def Profile.figure (p : Profile) : Nat := ratingAmps p.rating * (if p.three then 3 else 1)

/-- The result value of group 1: the value when supported, the present value at 15, else 15 (R94). -/
def groupRating (maxRating present g : Nat) : Nat :=
  if g ≤ maxRating then g else if g = 15 then present else 15

/-- The result value of group 2 (0 single, 1 three). -/
def groupPhases (three : Bool) (present : Bool) (g : Nat) : Nat :=
  if g = 0 then 0 else if g = 1 && three then 1 else if g = 15 then present.toNat else 15

/-- The result value of group 3 (0 open, 1 closed). -/
def groupTap (fitted : Bool) (presentOpen : Bool) (g : Nat) : Nat :=
  if g = 1 then 1 else if g = 0 && fitted then 0 else if g = 15 then (!presentOpen).toNat else 15

/-! ### The post line and the reader line -/

/-- A side's command byte (R212). -/
def commandByte (on_ : Bool) (p : Option Profile) (tapOpen : Bool) : Byte :=
  BitVec.ofNat 8 (on_.toNat +
    (match p with | some q => q.rating % 4 * 2 + q.three.toNat * 8 | none => 0) + tapOpen.toNat * 16)

/-- The 20 bytes of a report, its mark 0x5A first (R212). -/
def reportBytes (r : PostReport) : List Byte :=
  [0x5A#8, r.post] ++ beBytes 4 r.energyA.toNat ++ beBytes 4 r.energyB.toNat ++
    beBytes 4 r.waterA.toNat ++ beBytes 4 r.waterB.toNat ++ [r.trips, r.check]

/-- The sum of all bytes, check included, is 0 mod 256 (R212). -/
def reportCheckOk (r : PostReport) : Bool :=
  (reportBytes r).foldl (fun a b => a + b) 0#8 == 0#8

/-- The poll frame (R212). -/
def OpenPoll.bytes (p : OpenPoll) : List Byte :=
  let body := [0xA5#8, BitVec.ofNat 8 p.post, p.cmdA, p.cmdB]
  body ++ [0#8 - body.foldl (fun a b => a + b) 0#8]

/-- A card read is good when its check is the exclusive-or of the five id bytes (R213). -/
def cardGood (card check : Nat) : Bool :=
  (beBytes 5 card).foldl (fun a b => a ^^^ b) 0#8 == BitVec.ofNat 8 check

/-! ### Answer data (R211) -/

def u8 (n : Nat) : List Datum := [⟨1, n⟩]
def u16 (n : Nat) : List Datum := [⟨2, n⟩]
def u32 (n : Nat) : List Datum := [⟨4, n⟩]
def i32 (n : Int) : List Datum := [⟨4, n⟩]
def card5 (n : Nat) : List Datum := [⟨5, n⟩]
def mask8 (m : BitVec 64) : List Datum := [⟨8, m.toNat⟩]
def yn (b : Bool) : List Datum := u8 b.toNat
def timeD (t : Time) : List Datum := u32 t.sec ++ u16 t.ms

/-- An optional field: a presence byte, then the field, sent as 0 when absent. -/
def optD (zero : List Datum) (x : Option (List Datum)) : List Datum :=
  match x with
  | some d => u8 1 ++ d
  | none => u8 0 ++ zero.map fun d => ⟨d.width, 0⟩

/-- A list: a count byte, then the entries. -/
def listD (l : List (List Datum)) : List Datum := u8 l.length ++ l.flatten

/-- The time left to an elapsed moment, as a station time: the microseconds below the millisecond are
dropped (R9, R21, R211, log 55). -/
def leftD (now deadline : Nat) : List Datum :=
  timeD ⟨(deadline - now) / 1000000, (deadline - now) / 1000 % 1000⟩

/-- The time left to an optional moment. -/
def leftOpt (now : Nat) (deadline : Option Nat) : List Datum :=
  optD (timeD ⟨0, 0⟩) (deadline.map (leftD now))

/-- The codes of R211. -/
def Result.code : Result → Nat
  | .done => 1 | .accepted => 2 | .ignored => 3 | .refused => 4

def Cause.code : Cause → Nat
  | .busy => 1 | .state => 2 | .range => 3 | .full => 4 | .unknown => 5 | .locked => 6
  | .funds => 7 | .holds => 8 | .noLine => 9 | .budget => 10 | .journalFull => 11 | .config => 12

/-- The answer frame as shifted out (R211). -/
def Answer.bytes (a : Answer) : List Byte :=
  let data := a.data.flatMap Datum.bytes
  [BitVec.ofNat 8 a.code, BitVec.ofNat 8 a.number,
   BitVec.ofNat 8 (a.result.code + a.clamped.toNat * 128),
   BitVec.ofNat 8 (match a.cause with | some c => c.code | none => 0)] ++
  beBytes 2 data.length ++ data

/-- The byte shifted out at a place of the transaction: the answer's own, then filler 0xFF, and 0xFF in
every byte of the not-ready marker (R180, R211). -/
def ShiftOut.byteAt (o : ShiftOut) (i : Nat) : Byte :=
  match o with
  | .answer l => l.getD i 0xFF#8
  | .notReady => 0xFF#8

/-! ### Request codes and lengths (R210) -/

/-- The fixed length of each request code; CONFIGURE's by its section kind. -/
def requestLength (code kind : Nat) : Option Nat :=
  if code ∈ [0, 2, 3, 6, 7, 40, 24, 25, 53, 54, 56] then some 0
  else if code = 1 then
    match kind with
    | 1 => some 25 | 2 => some 9 | 3 => some 5 | 4 => some 6 | 5 => some 12 | 6 => some 6
    | 7 => some 11 | 8 => some 12 | _ => none
  else if code ∈ [5, 17, 20, 21, 22, 23, 29, 30, 33, 34, 41, 44, 49, 50, 51, 52, 57] then some 1
  else if code ∈ [18, 58] then some 2
  else if code ∈ [42, 43] then some 4
  else if code ∈ [27, 31] then some 5
  else if code ∈ [4, 26] then some 6
  else if code = 16 then some 7
  else if code = 8 then some 8
  else if code = 28 then some 9
  else if code = 32 then some 10
  else if code = 48 then some 11
  else if code = 19 then some 13
  else if code = 9 then some 17
  else none

/-- The codes of the part: those of `requestLength`, and CONFIGURE whatever its section. -/
def codeKnown (code : Nat) : Bool := code == 1 || (requestLength code 0).isSome

/-- The frame fails R183's checks: an unknown code, a wrong length field, or too few bytes. -/
def frameMalformed (code len received kind : Nat) : Bool :=
  !codeKnown code || requestLength code kind != some len || received < len

end Sys2Proof.Machine
end

