-- ==== Sys2Proof/WellFormed.lean ====
section
/-! DEFINITION. Which operands a command can carry: each number fits the field of its frame (R208 to
R213), whatever the rule that takes it makes of the value. -/

namespace Sys2Proof

open Sys2Proof.Machine

/-- The number fits `bits` bits. -/
def fits (bits n : Nat) : Bool := n < 2 ^ bits

/-- The number fits a byte, two bytes, four, five. -/
def byte1 (n : Nat) : Bool := fits 8 n
def byte2 (n : Nat) : Bool := fits 16 n
def byte4 (n : Nat) : Bool := fits 32 n
def byte5 (n : Nat) : Bool := fits 40 n

/-- A signed number of four bytes. -/
def signed4 (n : Int) : Bool := -2147483648 ≤ n && n ≤ 2147483647

/-- A round tag: station 0-31, sequence 0-255 (R10). -/
def wfTag (t : Tag) : Bool := fits 5 t.station && byte1 t.seq

/-- A packed request's fields in their bits (R209). -/
def wfRequest (r : BerthRequest) : Bool :=
  fits 10 r.length && fits 8 r.beam && fits 6 r.draft && fits 3 r.offset && fits 6 r.nights &&
  fits 7 r.lowWater && fits 2 r.rating && fits 2 r.cls && fits 5 r.preferred

/-- The seven levels, one byte each (R210). -/
def wfLevels (l : Levels) : Bool :=
  byte1 l.berth && byte1 l.occupancy && byte1 l.power && byte1 l.fuel && byte1 l.gate &&
  byte1 l.line && byte1 l.station

/-- The STATION section (R210). -/
def wfStation (v : StationSection) : Bool :=
  byte1 v.window && byte1 v.bidStep && byte1 v.fender && byte1 v.keel && byte4 v.creditLimit &&
  signed4 v.warnLevel && byte1 v.holdLifetime && byte1 v.overdueGrace && byte1 v.departureGrace &&
  byte2 v.baseShare && byte1 v.keepMargin && byte1 v.pledgeTimeout && byte2 v.recallPeriod &&
  byte2 v.faultGrace

/-- The BERTH section (R210). -/
def wfBerth (v : BerthSection) : Bool :=
  byte1 v.berth && byte2 v.length && byte1 v.width && byte1 v.depth && byte1 v.point &&
  byte1 v.classMask && byte1 v.reserved

/-- The POINT section (R210). -/
def wfPoint (v : PointSection) : Bool :=
  byte1 v.point && byte1 v.maxRating && byte1 v.three && byte1 v.tap

/-- The PUMP section (R210). -/
def wfPump (v : PumpSection) : Bool :=
  byte1 v.pump && byte1 v.grade && byte2 v.pulses && byte2 v.price && byte1 v.load &&
  byte2 v.authTimeout && byte2 v.suspendLimit

/-- The GATE section (R210). -/
def wfGate (v : GateSection) : Bool :=
  byte1 v.openTime && byte2 v.heldLimit && byte1 v.waiverLength && byte1 v.arriveOnEntry

/-- The SCHEDULE section (R210). -/
def wfSchedule (v : ScheduleSection) : Bool :=
  byte1 v.place && byte1 v.kind && byte4 v.start && byte4 v.cycle && byte1 v.check

/-- A PIN: a count byte and six halves of 4 bits (R210). -/
def wfPin (p : PinField) : Bool := byte1 p.count && p.halves.length == 6 && p.halves.all (fits 4)

/-- The parameters of BOOK (R210). -/
def wfBook (v : BookParams) : Bool :=
  byte1 v.berth && byte2 v.offset && byte2 v.nights && byte2 v.length && byte1 v.beam &&
  byte1 v.draft && byte1 v.cls && byte1 v.power && byte1 v.rating && byte1 v.three

/-- A station number strap (R195). -/
def wfInputs (i : StartInputs) : Bool := fits 5 i.station

/-- A frame of at most 8 data bytes (R162). -/
def wfFrame (f : CanFrame) : Bool := f.data.length ≤ 8

/-- An incomplete reader frame: a mark and fewer bytes than its frame has (R213). -/
def wfReaderBytes (l : List Byte) : Bool :=
  (l.head? == some 0xC1#8 && l.length < 7) || (l.head? == some 0xC2#8 && l.length < 2)

/-- A pump of the fuel dock's two inputs (R102). -/
def wfPumpLine (n : Nat) : Bool := within 1 2 n

/-- A command's operands fit the fields that carry them. -/
def wf (i : Instr) : Bool :=
  match i with
  | .malformedRequest code len received kind =>
    byte1 code && byte1 len && byte1 received && byte1 kind && frameMalformed code len received kind
  | .configureStation v => wfStation v
  | .configureBerth v => wfBerth v
  | .configurePoint v => wfPoint v
  | .configureTariff set_ energy water => byte1 set_ && byte2 energy && byte2 water
  | .configurePump v => wfPump v
  | .configureGate v => wfGate v
  | .configureStaff staff card pin => byte1 staff && byte5 card && wfPin pin
  | .configureSchedule v => wfSchedule v
  | .restart inp => wfInputs inp
  | .setClock sec ms => byte4 sec && byte2 ms
  | .tariffSelect set_ => byte1 set_
  | .flagsSetup _ keep levels threshold => byte1 keep && wfLevels levels && byte1 threshold
  | .requestBerth r => wfRequest r
  | .readRound n => byte1 n
  | .readBerth berth night => byte1 berth && byte1 night
  | .book v => wfBook v
  | .cancel occ => byte1 occ
  | .arrive occ => byte1 occ
  | .depart occ => byte1 occ
  | .readOccupancy occ => byte1 occ
  | .bindCard occ card => byte1 occ && byte5 card
  | .setPin occ pin => byte1 occ && wfPin pin
  | .changePin occ old_ new_ => byte1 occ && wfPin old_ && wfPin new_
  | .clearPin occ => byte1 occ
  | .unlock occ => byte1 occ
  | .topUp occ amount => byte1 occ && byte4 amount
  | .setLimit occ keep limit warn => byte1 occ && byte1 keep && byte4 limit && signed4 warn
  | .bar occ => byte1 occ
  | .unbar occ => byte1 occ
  | .readPoint point => byte1 point
  | .profileCheck occ g1 g2 g3 => byte1 occ && byte1 g1 && byte1 g2 && byte1 g3
  | .profileSet occ g1 g2 g3 => byte1 occ && byte1 g1 && byte1 g2 && byte1 g3
  | .outletReset point => byte1 point
  | .pumpAuthorise pump preset payment card => byte1 pump && byte4 preset && byte1 payment && byte5 card
  | .pumpSuspend pump => byte1 pump
  | .pumpResume pump => byte1 pump
  | .pumpStop pump => byte1 pump
  | .readPump pump => byte1 pump
  | .gateMode mode => byte1 mode
  | .readCapture channel edge => byte1 channel && byte1 edge
  | .frameHeard f => wfFrame f
  | .bidDelayEnd t => wfTag t
  | .windowEnd t => wfTag t
  | .watchEnd t => wfTag t
  | .holdExpiry occ hold => within 1 64 occ && byte1 hold
  | .pledgeDeadline partner => fits 5 partner
  | .recallDeadline partner => fits 5 partner
  | .faultGraceEnd post => within 1 16 post
  | .alongsideNotice occ => within 1 64 occ
  | .departingNotice occ => within 1 64 occ
  | .barredNotice occ => within 1 64 occ
  | .unbarredNotice occ => within 1 64 occ
  | .pumpPulse pump => wfPumpLine pump
  | .nozzleLift pump => wfPumpLine pump
  | .nozzleHang pump => wfPumpLine pump
  | .authorisationTimeout pump => wfPumpLine pump
  | .suspendLimitEnd pump => wfPumpLine pump
  | .runOnEnd pump => wfPumpLine pump
  | .holdAskWaitEnd pump => wfPumpLine pump
  | .settleWaitEnd pump => wfPumpLine pump
  | .cardRead card check => byte5 card && byte1 check
  | .key code => byte1 code
  | .readerFrameTimeout bytes => wfReaderBytes bytes
  | .scheduleDue place => within 1 12 place
  | .powerUp inp _ _ => wfInputs inp
  | .selectAssert _ | .requestDiscarded | .null | .join | .readStation | .flagsRead | .flagsClear _
  | .closureRead | .closureCollect | .readLoans | .journalRead | .journalCollect | .gateOpen
  | .txAttemptStart | .txSent | .txContentionLost | .txError | .lineActivity | .listenEnd
  | .silenceWatchEnd | .berthRequestFrame _ | .bidFrame _ | .assignFrame _ | .loanAskFrame _
  | .loanOfferFrame _ | .loanTakeFrame _ | .loanDeclineFrame _ | .loanVoidFrame _
  | .loanRecallFrame _ | .loanReturnFrame _ | .holdAskFrame _ | .holdAnswerFrame _ | .settleFrame _
  | .settleAnswerFrame _ | .cardBindFrame _ | .joinFrame _ | .timeFrame _ | .bidReport
  | .berthRequestReport | .assignReport | .loanAskReport | .loanOfferReport | .loanTakeReport
  | .holdAskReport | .settleReport | .awaitDeadline | .collectionClose | .pollCycleStart
  | .postReport _ | .pollTimeout | .emergencyPress | .emergencyRelease | .pinEntryTimeout
  | .releaseEnd | .exitButtonPress | .doorOpenEdge | .doorShutEdge | .heldLimitEnd | .nightOn
  | .nightOff | .lockdownOn | .lockdownOff | .tariff1 | .tariff2 | .dayRoll | .clockWrap
  | .powerFail => true

end Sys2Proof
end

