-- ==== Sys2Proof/Decode.lean ====
section
/-! DEFINITION. The command that a word spells by the bits of spec/opcode_table.json (the table gives no
row any bits, so no word spells a command: log 22), and the commands that received bytes spell: those of a
panel request frame (R183, R210), of the post line (R212) and of the reader line (R213). -/

namespace Sys2Proof

open Sys2Proof.Machine

/-- No row of the table has bits: none for every word. -/
def decodeTableWord (_nbits _w : Nat) : Option Instr := none

/-! ### Request frames (R210) -/

/-- The number in `len` parameter bytes from byte `off`, most significant first. -/
def paramNum (ps : List Byte) (off len : Nat) : Nat := beNat ((ps.drop off).take len)

/-- The signed number in four parameter bytes. -/
def paramInt (ps : List Byte) (off : Nat) : Int := (BitVec.ofNat 32 (paramNum ps off 4)).toInt

/-- A PIN: the digit count, then six digits packed two to a byte, the first in the high half. -/
def paramPin (ps : List Byte) (off : Nat) : PinField :=
  { count := paramNum ps off 1
    halves := ((ps.drop (off + 1)).take 3).flatMap fun b => [b.toNat / 16, b.toNat % 16] }

/-- A CONFIGURE section by its kind byte. -/
def sectionOf (ps : List Byte) : Option Instr :=
  let n := paramNum ps
  match n 0 1 with
  | 1 => some (.configureStation
      { window := n 1 1, bidStep := n 2 1, fender := n 3 1, keel := n 4 1, creditLimit := n 5 4,
        warnLevel := paramInt ps 9, holdLifetime := n 13 1, overdueGrace := n 14 1,
        departureGrace := n 15 1, baseShare := n 16 2, keepMargin := n 18 1, pledgeTimeout := n 19 1,
        recallPeriod := n 20 2, faultGrace := n 22 2, captureModes := BitVec.ofNat 8 (n 24 1) })
  | 2 => some (.configureBerth
      { berth := n 1 1, length := n 2 2, width := n 4 1, depth := n 5 1, point := n 6 1,
        classMask := n 7 1, reserved := n 8 1 })
  | 3 => some (.configurePoint { point := n 1 1, maxRating := n 2 1, three := n 3 1, tap := n 4 1 })
  | 4 => some (.configureTariff (n 1 1) (n 2 2) (n 4 2))
  | 5 => some (.configurePump
      { pump := n 1 1, grade := n 2 1, pulses := n 3 2, price := n 5 2, load := n 7 1,
        authTimeout := n 8 2, suspendLimit := n 10 2 })
  | 6 => some (.configureGate
      { openTime := n 1 1, heldLimit := n 2 2, waiverLength := n 4 1, arriveOnEntry := n 5 1 })
  | 7 => some (.configureStaff (n 1 1) (n 2 5) (paramPin ps 7))
  | 8 => some (.configureSchedule
      { place := n 1 1, kind := n 2 1, start := n 3 4, cycle := n 7 4, check := n 11 1 })
  | _ => none

/-- The request of a code with its parameters. RESTART reads the straps and lines as `inp` (log 10). -/
def requestOf (inp : StartInputs) (code : Nat) (ps : List Byte) : Option Instr :=
  let n := paramNum ps
  match code with
  | 0 => some .null
  | 1 => sectionOf ps
  | 2 => some .join
  | 3 => some (.restart inp)
  | 4 => some (.setClock (n 0 4) (n 4 2))
  | 5 => some (.tariffSelect (n 0 1))
  | 6 => some .readStation
  | 7 => some .flagsRead
  | 8 => some (.flagsClear (BitVec.ofNat 64 (n 0 8)))
  | 9 => some (.flagsSetup (BitVec.ofNat 64 (n 0 8)) (n 8 1)
      { berth := n 9 1, occupancy := n 10 1, power := n 11 1, fuel := n 12 1, gate := n 13 1,
        line := n 14 1, station := n 15 1 } (n 16 1))
  | 16 => some (.requestBerth (unpackRequest (n 0 7)))
  | 17 => some (.readRound (n 0 1))
  | 18 => some (.readBerth (n 0 1) (n 1 1))
  | 19 => some (.book
      { berth := n 0 1, offset := n 1 2, nights := n 3 2, length := n 5 2, beam := n 7 1, draft := n 8 1,
        cls := n 9 1, power := n 10 1, rating := n 11 1, three := n 12 1 })
  | 20 => some (.cancel (n 0 1))
  | 21 => some (.arrive (n 0 1))
  | 22 => some (.depart (n 0 1))
  | 23 => some (.readOccupancy (n 0 1))
  | 24 => some .closureRead
  | 25 => some .closureCollect
  | 26 => some (.bindCard (n 0 1) (n 1 5))
  | 27 => some (.setPin (n 0 1) (paramPin ps 1))
  | 28 => some (.changePin (n 0 1) (paramPin ps 1) (paramPin ps 5))
  | 29 => some (.clearPin (n 0 1))
  | 30 => some (.unlock (n 0 1))
  | 31 => some (.topUp (n 0 1) (n 1 4))
  | 32 => some (.setLimit (n 0 1) (n 1 1) (n 2 4) (paramInt ps 6))
  | 33 => some (.bar (n 0 1))
  | 34 => some (.unbar (n 0 1))
  | 40 => some .readLoans
  | 41 => some (.readPoint (n 0 1))
  | 42 => some (.profileCheck (n 0 1) (n 1 1) (n 2 1) (n 3 1))
  | 43 => some (.profileSet (n 0 1) (n 1 1) (n 2 1) (n 3 1))
  | 44 => some (.outletReset (n 0 1))
  | 48 => some (.pumpAuthorise (n 0 1) (n 1 4) (n 5 1) (n 6 5))
  | 49 => some (.pumpSuspend (n 0 1))
  | 50 => some (.pumpResume (n 0 1))
  | 51 => some (.pumpStop (n 0 1))
  | 52 => some (.readPump (n 0 1))
  | 53 => some .journalRead
  | 54 => some .journalCollect
  | 56 => some .gateOpen
  | 57 => some (.gateMode (n 0 1))
  | 58 => some (.readCapture (n 0 1) (n 1 1))
  | _ => none

/-- The command that the bytes of one transaction spell, at its release (R183, R210): a frame that fails
R183's checks is MALFORMED_REQUEST, bytes after the declared length are ignored. A transaction of no byte
spells no command, and an absent length byte is read as 255, which no request has (log 39). -/
def decodeRequest (inp : StartInputs) : List Byte → Option Instr
  | [] => none
  | [c] => some (.malformedRequest c.toNat 255 0 0)
  | c :: l :: ps =>
    let code := c.toNat
    let len := l.toNat
    let kind := if code = 1 then paramNum ps 0 1 else 0
    let received := min 255 ps.length
    if frameMalformed code len received kind then some (.malformedRequest code len received kind)
    else requestOf inp code (ps.take len)

/-! ### The post line (R212) -/

/-- The report of the 19 bytes gathered after a report mark (R212). -/
def reportOf (l : List Byte) : PostReport :=
  { post := BitVec.ofNat 8 (paramNum l 0 1)
    energyA := BitVec.ofNat 32 (paramNum l 1 4), energyB := BitVec.ofNat 32 (paramNum l 5 4)
    waterA := BitVec.ofNat 32 (paramNum l 9 4), waterB := BitVec.ofNat 32 (paramNum l 13 4)
    trips := BitVec.ofNat 8 (paramNum l 17 1), check := BitVec.ofNat 8 (paramNum l 18 1) }

/-- The report that bytes received complete: they are discarded until a report mark, and then 19 more are
gathered; none where they complete no report (R212). -/
def reportIn : List Byte → Option PostReport
  | [] => none
  | b :: rest =>
    if b = 0x5A#8 then (if 19 ≤ rest.length then some (reportOf (rest.take 19)) else none)
    else reportIn rest

/-- The command that ends an open poll, by the bytes received within its 50 ms: the report they complete, or
the timeout of a poll left unanswered (R82, R212, log 59). -/
def decodePoll (bytes : List Byte) : Instr :=
  match reportIn bytes with
  | some r => .postReport r
  | none => .pollTimeout

/-! ### The reader line (R213) -/

/-- The bytes of the reader frame that begins with a mark; none for a byte that is no mark (R213). -/
def readerLength (mark : Byte) : Option Nat :=
  if mark = 0xC1#8 then some 7 else if mark = 0xC2#8 then some 2 else none

/-- The command of a complete reader frame: a card read of 7 bytes, else a key (R213). -/
def readerCommand (frame : List Byte) : Instr :=
  if frame.length = 7 then .cardRead (paramNum frame 1 5) (paramNum frame 6 1)
  else .key (paramNum frame 1 1)

/-- The commands that the bytes of the reader line spell, each byte with the moment of its receipt in
microseconds. `held` are the bytes gathered of a frame whose mark came at `since`: a byte that completes
them is the frame's command, one later than 100 ms after the mark finds them discarded and is itself the
next byte, and with no frame begun a byte that is no mark is discarded (R213, log 59). -/
def readerCommands (held : List Byte) (since : Nat) : List (Nat × Byte) → List Instr
  | [] => if held.isEmpty then [] else [.readerFrameTimeout held]
  | (t, b) :: rest =>
    let begun := if (readerLength b).isSome then [b] else []
    match held with
    | [] => readerCommands begun t rest
    | mark :: _ =>
      if since + 100000 < t then .readerFrameTimeout held :: readerCommands begun t rest
      else if readerLength mark = some (held.length + 1) then
        readerCommand (held ++ [b]) :: readerCommands [] t rest
      else readerCommands (held ++ [b]) since rest

/-- The commands of the reader line's bytes, from a line with no frame begun (R213). -/
def decodeReader (bytes : List (Nat × Byte)) : List Instr := readerCommands [] 0 bytes

end Sys2Proof
end

