-- ==== Sys2Proof/Machine/Flags.lean ====
section
/-! DEFINITION. The attention flags, their numbers and groups (R188), setting and clearing them, and
the attention line (R192). -/

namespace Sys2Proof.Machine

/-- The 48 flags of R188. -/
inductive Flag where
  | roundMissed | berthForfeit | berthDouble | roundDone
  | accountLow | accountOverdue | accountBarred | holdLapsed | lateSettle | bindConflict
  | closureAdded | closureWaiting
  | outletShed | askShort | loanVoid | recallLapsed | postFault | outletFaultOff | implausible
  | leak | trip | profileDone
  | authDone | authLapsed | unauthLift | pulseStray | saleClosed | saleUnsettled | journalLow
  | lockout | overrun | suspectRead | gateDecided | gateRefused | gateForced | gateHeld
  | txDropped | rxOverflow | stationClash | lineLost | lineUp
  | emergencyStop | clockSet | scheduleExpired | captureTaken | coldStart | warmStart | orphanMarked
  deriving DecidableEq, Repr

/-- A flag's number (R188, R207). -/
def Flag.number : Flag → Nat
  | .roundMissed => 1 | .berthForfeit => 2 | .berthDouble => 3 | .roundDone => 4
  | .accountLow => 9 | .accountOverdue => 10 | .accountBarred => 11 | .holdLapsed => 12
  | .lateSettle => 13 | .bindConflict => 14 | .closureAdded => 15 | .closureWaiting => 16
  | .outletShed => 17 | .askShort => 18 | .loanVoid => 19 | .recallLapsed => 20
  | .postFault => 21 | .outletFaultOff => 22 | .implausible => 23 | .leak => 24 | .trip => 25
  | .profileDone => 26
  | .authDone => 33 | .authLapsed => 34 | .unauthLift => 35 | .pulseStray => 36
  | .saleClosed => 37 | .saleUnsettled => 38 | .journalLow => 39
  | .lockout => 41 | .overrun => 42 | .suspectRead => 43 | .gateDecided => 44
  | .gateRefused => 45 | .gateForced => 46 | .gateHeld => 47
  | .txDropped => 49 | .rxOverflow => 50 | .stationClash => 51 | .lineLost => 52 | .lineUp => 53
  | .emergencyStop => 57 | .clockSet => 58 | .scheduleExpired => 59 | .captureTaken => 60
  | .coldStart => 61 | .warmStart => 62 | .orphanMarked => 63

/-- Flag n at bit n - 1 of the mask (R210). -/
def Flag.bit (f : Flag) : BitVec 64 := 1#64 <<< (f.number - 1)

/-- The mask of a run of flag numbers. -/
def maskRange (lo hi : Nat) : BitVec 64 :=
  BitVec.ofNat 64 (2 ^ hi - 2 ^ (lo - 1))

/-- The numbers that name a flag in each group, BERTH to STATION (R188). -/
def berthMask : BitVec 64 := maskRange 1 4
def occupancyMask : BitVec 64 := maskRange 9 16
def powerMask : BitVec 64 := maskRange 17 26
def fuelMask : BitVec 64 := maskRange 33 39
def gateMask : BitVec 64 := maskRange 41 47
def lineMask : BitVec 64 := maskRange 49 53
def stationMask : BitVec 64 := maskRange 57 63

/-- Every number that names a flag. -/
def namedMask : BitVec 64 :=
  berthMask ||| occupancyMask ||| powerMask ||| fuelMask ||| gateMask ||| lineMask ||| stationMask

/-- A group's flags when its level is at or above the threshold, else none (R192). -/
def levelMask (level threshold : Nat) (group : BitVec 64) : BitVec 64 :=
  if threshold ≤ level then group else 0

/-- The flags of the groups whose level is at or above the threshold (R192). -/
def Pnp.reachMask (p : Pnp) : BitVec 64 :=
  levelMask p.levels.berth p.threshold berthMask |||
  levelMask p.levels.occupancy p.threshold occupancyMask |||
  levelMask p.levels.power p.threshold powerMask |||
  levelMask p.levels.fuel p.threshold fuelMask |||
  levelMask p.levels.gate p.threshold gateMask |||
  levelMask p.levels.line p.threshold lineMask |||
  levelMask p.levels.station p.threshold stationMask

/-- The pending flags: set, enabled and of a group at or above the threshold (R189, R192). -/
def Pnp.pendingMask (p : Pnp) : BitVec 64 := p.flags &&& p.enables &&& p.reachMask

/-- PNP drives the attention line while a flag is pending (R192). -/
def Pnp.examine (p : Pnp) : Pnp := { p with attention := p.pendingMask != 0 }

/-- The lowest pending flag number, or 0 (R189). -/
def lowestFlag (m : BitVec 64) : Nat :=
  match (List.range 64).find? (fun i => m.getLsbD i) with
  | some i => i + 1
  | none => 0

/-- A flag is set by its event, enabled or not, and the line is examined in the same step (R188, R192). -/
def State.setFlag (f : Flag) (s : State) : State :=
  { s with pnp := ({ s.pnp with flags := s.pnp.flags ||| f.bit } : Pnp).examine }

/-- A flag set where a condition holds. -/
def State.setFlagIf (c : Bool) (f : Flag) (s : State) : State := if c then s.setFlag f else s

/-- The flags of a mask are cleared and the line is examined in the same step (R190). -/
def State.clearFlags (mask : BitVec 64) (s : State) : State :=
  { s with pnp := ({ s.pnp with flags := s.pnp.flags &&& ~~~mask } : Pnp).examine }

/-- Whether a flag stands set. -/
def State.hasFlag (f : Flag) (s : State) : Bool := s.pnp.flags &&& f.bit != 0

end Sys2Proof.Machine
end

