-- ==== Sys2Proof/Machine/Ops.lean ====
section
/-! DEFINITION. The operations every block uses: keyed tables, station and elapsed time, PNP's taking
and answering of a request, LIF's transmit queue and the alarms. -/

namespace Sys2Proof.Machine

/-! ### Keyed tables -/

/-- The first entry of a table with a key. -/
def lookupKey {α : Type} (key : α → Nat) (n : Nat) (l : List α) : Option α :=
  l.find? fun x => key x == n

/-- The entries with a key changed by `f`. -/
def modifyKey {α : Type} (key : α → Nat) (n : Nat) (f : α → α) (l : List α) : List α :=
  l.map fun x => if key x = n then f x else x

/-- The table without a key. -/
def eraseKey {α : Type} (key : α → Nat) (n : Nat) (l : List α) : List α :=
  l.filter fun x => key x != n

/-- An entry put at its place in a table kept in key order, in place of the one with its key. -/
def insertKey {α : Type} (key : α → Nat) (x : α) : List α → List α
  | [] => [x]
  | y :: r =>
    if key x < key y then x :: y :: r
    else if key x = key y then x :: r
    else y :: insertKey key x r

/-- The numbers of a table, in its order. -/
def keysOf {α : Type} (key : α → Nat) (l : List α) : List Nat := l.map key

/-- The lowest number from 1 to `n` not in use. -/
def lowestFree (used : List Nat) (n : Nat) : Option Nat :=
  (List.range n).map (· + 1) |>.find? fun k => !used.contains k

/-- The first number after `last`, counting `lo` to `hi` and then `lo` again, that is not in use
(R40, R53, R124); none once `tries` numbers have been found in use. -/
def nextFreeIn (lo hi : Nat) (used : List Nat) : (tries : Nat) → (last : Nat) → Option Nat
  | 0, _ => none
  | k + 1, last =>
    let c := if last < lo || hi ≤ last then lo else last + 1
    if used.contains c then nextFreeIn lo hi used k c else some c

/-- The same with as many tries as can be needed. -/
def nextFree (lo hi last : Nat) (used : List Nat) : Option Nat :=
  nextFreeIn lo hi used (used.length + 1) last

/-- The remainder of a list after its first entry that meets a test is taken out. -/
def takeFirst {α : Type} (p : α → Bool) (l : List α) : Option (α × List α) :=
  match l with
  | [] => none
  | x :: r => if p x then some (x, r) else (takeFirst p r).map fun y => (y.1, x :: y.2)

/-! ### Time -/

/-- A station time in milliseconds, for comparison. -/
def Time.toMs (t : Time) : Nat := t.sec * 1000 + t.ms

/-- Station time now (R147). -/
def State.now (s : State) : Time := ⟨s.sch.sec, s.sch.ms⟩

/-- The day number now (R147). -/
def State.today (s : State) : Nat := s.sch.sec / 86400

/-- The time of day now (R147). -/
def State.timeOfDay (s : State) : Nat := s.sch.sec % 86400

/-- A station time some seconds later. The spec states no result past 4,294,967,295 s: the seconds are
then a free value (log 9). -/
def Time.addSec (t : Time) (n : Nat) : Time :=
  if t.sec + n < Config.secModulus then ⟨t.sec + n, t.ms⟩
  else ⟨(Config.timeBeyondRange t.sec n).toNat, t.ms⟩

/-- The station clock in microseconds. -/
def Sch.micros (c : Sch) : Nat := (c.sec * 1000 + c.ms) * 1000 + c.us

/-- The clock set from a count of microseconds, the seconds wrapping from 4,294,967,295 to 0 (R147). -/
def Sch.setMicros (c : Sch) (n : Nat) : Sch :=
  { c with sec := n / 1000000 % Config.secModulus, ms := n / 1000 % 1000, us := n % 1000 }

/-- Time runs on by some microseconds: elapsed time and the station clock together. -/
def State.advance (n : Nat) (s : State) : State :=
  if n = 0 then s
  else { s with elapsed := s.elapsed + n, sch := s.sch.setMicros (s.sch.micros + n) }

/-- Time runs on to an elapsed moment not yet reached (log 2). -/
def State.advanceTo (deadline : Nat) (s : State) : State := s.advance (deadline - s.elapsed)

/-- Time runs on until the station clock reaches a station time not yet reached (log 2). -/
def State.advanceToTime (t : Time) (s : State) : State :=
  s.advance (t.toMs * 1000 - s.sch.micros)

/-- A fresh moment number (log 13). -/
def State.stamp (s : State) : State := { s with moments := s.moments + 1 }

/-- The station is ON LINE. -/
def State.onLine (s : State) : Bool := s.lif.state == .onLine

/-- LIF takes part in the line's traffic: it sends and takes frames in JOINING and ON LINE, and in
UNCONFIGURED and LINE OFF it does neither (R175, R179). -/
def State.onSegment (s : State) : Bool := s.lif.state == .joining || s.lif.state == .onLine

/-- LIF acknowledges the frames that other stations send: with power, in JOINING and ON LINE (log 63), and
not in UNCONFIGURED (R179) nor in LINE OFF (R175). -/
def State.acknowledges (s : State) : Bool := s.powered && s.onSegment

/-- The station is UNCONFIGURED. -/
def State.unconfigured (s : State) : Bool := s.lif.state == .unconfigured

/-- The station's own number (R195). -/
def State.me (s : State) : Nat := s.straps.station

/-! ### Answering a request (R180 to R185) -/

/-- A block's decision of a request. -/
structure Reply where
  result  : Result
  clamped : Bool
  cause   : Option Cause
  data    : List Datum
  deriving DecidableEq, Repr

/-- DONE with its data. -/
def Reply.done (data : List Datum) : Reply := ⟨.done, false, none, data⟩

/-- DONE, with CLAMPED where a value was moved into its range (R185, R196). -/
def Reply.doneClamped (clamped : Bool) : Reply := ⟨.done, clamped, none, []⟩

/-- ACCEPTED with its data. -/
def Reply.accepted (clamped : Bool) (data : List Datum) : Reply := ⟨.accepted, clamped, none, data⟩

/-- IGNORED. -/
def Reply.ignored : Reply := ⟨.ignored, false, none, []⟩

/-- REFUSED with a cause. -/
def Reply.refused (c : Cause) : Reply := ⟨.refused, false, some c, []⟩

/-- REFUSED with a cause and the data its rule names. -/
def Reply.refusedWith (c : Cause) (data : List Datum) : Reply := ⟨.refused, false, some c, data⟩

/-- The answer is written with the next answer number and the ready mark is set (R180, R181). -/
def State.writeAnswer (code : Nat) (r : Reply) (s : State) : State :=
  let n := (s.pnp.answerNo + 1) % 256
  { s with pnp := { s.pnp with
      ready := true, answerNo := n
      answer := { code := code, number := n, result := r.result, clamped := r.clamped,
                  cause := r.cause, data := r.data } } }

/-- The transaction now released had chosen the not-ready marker (R181). -/
def Pnp.discards (p : Pnp) : Bool :=
  match p.transaction with
  | some .notReady => true
  | some (.answer _) => false
  | none => !p.ready

/-- The release of the select line ends the transaction. -/
def State.endTransaction (s : State) : State :=
  { s with pnp := { s.pnp with transaction := none } }

/-- PNP takes a request: the ready mark is cleared and the request held until it is answered (R181). -/
def State.takeFrame (code : Nat) (s : State) : State :=
  { s with pnp := { s.pnp with transaction := none, ready := false, request := some code } }

/-- A refusal that PNP writes itself at the release: no block has the request to decide (R180, R183, R184). -/
def State.refuseFrame (code : Nat) (r : Reply) (s : State) : State :=
  ({ s with pnp := { s.pnp with transaction := none, request := none } } : State).writeAnswer code r

/-- The requests taken in UNCONFIGURED (R184): NULL, CONFIGURE, JOIN, RESTART, SET CLOCK,
READ STATION, READ LOANS, READ CAPTURE and the three FLAGS requests. -/
def takenUnconfigured (code : Nat) : Bool := code ∈ [0, 1, 2, 3, 4, 6, 40, 58, 7, 8, 9]

/-- A request is taken whole: discarded unread when the ready mark was clear at the assertion (R181),
refused STATE where the station state does not take it (R184), else decided by `body` and answered.
While the part is without power nothing is taken (R207), and the release only ends the transaction. -/
def State.request (code : Nat) (body : State → State × Reply) (s : State) : State :=
  if !s.powered then s.endTransaction
  else if s.pnp.discards then s.endTransaction
  else if s.unconfigured && !takenUnconfigured code then s.refuseFrame code (.refused .state)
  else
    let r := body (s.takeFrame code)
    r.1.writeAnswer code r.2

/-- A request that changes nothing but the answer. -/
def State.readRequest (code : Nat) (body : State → Reply) (s : State) : State :=
  s.request code fun s => (s, body s)

/-- An event is taken while the part has power (R207). -/
def State.event (body : State → State) (s : State) : State := if s.powered then body s else s

/-- A counter of 32 bits raised: it wraps from 4,294,967,295 to 0 (00_scope.md, Conventions). -/
def raiseCount (total added : Nat) : Nat := (total + added) % 2 ^ 32

/-! ### LIF's transmit queue (R165 to R169) -/

/-- A frame placed by identifier, behind every frame of its identifier (R165). -/
def txInsert (f : TxFrame) : List TxFrame → List TxFrame
  | [] => [f]
  | g :: r => if f.frame.ident.toNat < g.frame.ident.toNat then f :: g :: r else g :: txInsert f r

/-- The kinds whose report some rule acts on: the rows of the table that end in _REPORT. Of every
other kind the rules say that the report changes nothing (R50, R71, R146, R177). -/
def reportTaken (kind : Nat) : Bool := kind ∈ [4, 5, 6, 9, 11, 13, 14, 15]

/-- LIF reports a frame SENT or FAILED to the block that queued it, as an event of its own (R165, R168). -/
def State.giveReport (f : TxFrame) (sent : Bool) (s : State) : State :=
  if reportTaken f.frame.kind then
    { s with lif := { s.lif with
        reports := s.lif.reports ++ [{ serial := f.serial, frame := f.frame, sent := sent }] } }
  else s

/-- The highest queued frame, the one in an attempt left out (R166): of several that share the highest
identifier the one placed last (log 67). -/
def Lif.highest (l : Lif) : Option TxFrame :=
  (l.tx.filter fun f => some f.serial != l.attempt).getLast?

/-- A block hands LIF a frame (R165, R166). The note it goes under is `s.lif.serial`. -/
def State.queueFrame (fr : Frame) (s : State) : State :=
  let f : TxFrame := { serial := s.lif.serial, frame := fr }
  let s : State := { s with lif := { s.lif with serial := s.lif.serial + 1 } }
  if !acceptedIn s.lif.state fr.kind then s.giveReport f false
  else if s.lif.tx.length < Config.maxTx then
    { s with lif := { s.lif with tx := txInsert f s.lif.tx } }
  else
    match s.lif.highest with
    | some h =>
      if fr.ident.toNat < h.frame.ident.toNat then
        let s : State := { s with lif := { s.lif with
          tx := txInsert f (s.lif.tx.filter fun g => g.serial != h.serial) } }
        (s.giveReport h false).setFlag .txDropped
      else (s.giveReport f false).setFlag .txDropped
    | none => (s.giveReport f false).setFlag .txDropped

/-- The answers to a withdrawal (R169). -/
inductive Withdrawal where
  | withdrawn | inTransmission | notQueued
  deriving DecidableEq, Repr

/-- What LIF answers to the withdrawal of a frame (R169). -/
def Lif.withdrawal (l : Lif) (serial : Nat) : Withdrawal :=
  if l.tx.any (fun f => f.serial == serial) then
    if l.attempt == some serial then .inTransmission else .withdrawn
  else .notQueued

/-- A block withdraws a frame: it leaves the queue unless it is in an attempt, without report (R169). -/
def State.withdrawFrame (serial : Nat) (s : State) : State :=
  if s.lif.withdrawal serial == .withdrawn then
    { s with lif := { s.lif with tx := s.lif.tx.filter fun f => f.serial != serial } }
  else s

/-- An ALARM is queued while the station is ON LINE (R177). -/
def State.alarm (k : AlarmKind) (number value : Nat) (s : State) : State :=
  if s.onLine then s.queueFrame (alarmFrame s.me k number value) else s

/-! ### Taking a received frame (R171, R173) -/

/-- A block takes a frame of a kind: from the front of the receive queue, or the first loop-back copy
of that kind. The frame leaves where it stood; a loop-back copy comes with its note. -/
def State.takeRx (kind : Nat) (src : RxSource) (s : State) : Option (Frame × Option Nat × State) :=
  match src with
  | .line =>
    match s.lif.rx with
    | f :: r =>
      if f.kind = kind then some (f, none, { s with lif := { s.lif with rx := r } }) else none
    | [] => none
  | .loopBack =>
    match takeFirst (fun t => t.frame.kind == kind) s.lif.loop with
    | some (t, r) => some (t.frame, some t.serial, { s with lif := { s.lif with loop := r } })
    | none => none

/-- The event of taking a received frame; with no such frame to take nothing changes (log 3). -/
def State.frameEvent (kind : Nat) (src : RxSource)
    (body : Frame → Option Nat → State → State) (s : State) : State :=
  s.event fun s =>
    match s.takeRx kind src with
    | some (f, note, s) => body f note s
    | none => s

/-- The event of taking LIF's first report of a kind; with none given nothing changes (log 3). -/
def State.reportEvent (kind : Nat) (body : Report → State → State) (s : State) : State :=
  s.event fun s =>
    match takeFirst (fun r => r.frame.kind == kind) s.lif.reports with
    | some (r, rest) => body r { s with lif := { s.lif with reports := rest } }
    | none => s

end Sys2Proof.Machine
end

