-- ==== Sys2Proof/Machine/OccOps.lean ====
section
/-! DEFINITION. OCC's shared operations (02_occupancy_records_and_accounts.md): creation, the
lifecycle and its notices, removal and closures, the account's standing, holds and PIN outcomes. -/

namespace Sys2Proof.Machine

/-! ### Looking records up -/

/-- The berth record of a number. -/
def State.berth? (s : State) (b : Nat) : Option Berth := lookupKey Berth.number b s.bal.berths

/-- The service point a berth names. -/
def State.berthPoint (s : State) (b : Nat) : Option Nat := (s.berth? b).bind Berth.point

/-- The configured service point of a number. -/
def State.point? (s : State) (p : Nat) : Option Point := lookupKey Point.number p s.spc.points

/-- The live record of an occupancy number. -/
def State.occ? (s : State) (n : Nat) : Option Occupancy :=
  lookupKey Occupancy.number n s.occ.records

/-- A live record changed. -/
def State.modOcc (n : Nat) (f : Occupancy → Occupancy) (s : State) : State :=
  { s with occ := { s.occ with records := modifyKey Occupancy.number n f s.occ.records } }

/-- The service point of an occupancy's berth. -/
def State.occPoint (s : State) (n : Nat) : Option Nat := (s.occ? n).bind fun r => s.berthPoint r.berth

/-- The meter link of an occupancy (R77). -/
def State.link? (s : State) (n : Nat) : Option Link := lookupKey Link.occ n s.spc.links

/-- The live record whose credential holds a card (R41, R132). -/
def State.cardHolder (s : State) (card : Nat) : Option Occupancy :=
  s.occ.records.find? fun r => match r.credential with | some c => c.card == card | none => false

/-- Whether a card is that of a staff credential (R44). -/
def State.isStaffCard (s : State) (card : Nat) : Bool := s.gtc.staff.any fun e => e.card == card

/-! ### Stays -/

/-- Two stays share a night (00_scope.md, "Stays"). -/
def shareNight (a n a' n' : Nat) : Bool := a < a' + n' && a' < a + n

/-- The stay includes a night. -/
def Occupancy.covers (r : Occupancy) (night : Nat) : Bool :=
  r.arrival ≤ night && night < r.arrival + r.nights

/-- The departure day of a record (R25). -/
def Occupancy.departureDay (r : Occupancy) : Nat := r.arrival + r.nights

/-- No live occupancy of the berth shares a night with the stay (R5.7, R26). -/
def State.berthFree (s : State) (berth arrival nights : Nat) : Bool :=
  s.occ.records.all fun r => r.berth != berth || !shareNight r.arrival r.nights arrival nights

/-! ### Notices to SPC -/

/-- OCC tells SPC of a change of an occupancy, as a separate event (04 section 4.3) that keeps the moment of the
change (R79). Outlet, tap and demand stay as they are until SPC takes it (R75, log 69). -/
def State.notify (k : NoticeKind) (n : Nat) (s : State) : State :=
  { s with occ := { s.occ with notices := s.occ.notices ++ [⟨k, n, ⟨s.moments, s.now⟩⟩] } }

/-! ### The account (R33 to R38) -/

/-- The sum of the amounts of a record's holds. -/
def Occupancy.held (r : Occupancy) : Nat := (r.holds.map Hold.amount).sum

/-- The available amount (R33). -/
def Occupancy.available (r : Occupancy) : Int := r.account.balance + r.account.limit - r.held

/-- The standing of an account (R33). -/
def Account.standing (a : Account) : AccountState :=
  if a.balance < -(a.limit : Int) then .overdue
  else if a.balance < a.warn then .low
  else .open_

/-- The account with its standing computed at a moment (R33): overdue-since follows the standing, and
the standing becomes the state unless the account is BARRED. -/
def Account.computed (a : Account) (now : Time) : Account :=
  { a with
    state := if a.state = .barred then .barred else a.standing
    overdueSince := if a.standing = .overdue then some (a.overdueSince.getD now) else none }

/-- The overdue grace has passed: now - overdue-since is greater than it (R36). -/
def graceOver (grace : Nat) (now since : Time) : Bool := since.toMs + grace * 3600000 < now.toMs

/-- The account enters BARRED and OCC tells SPC (R37). -/
def State.enterBarred (n : Nat) (s : State) : State :=
  (s.modOcc n fun r => { r with account := { r.account with state := .barred } }).notify .barred n

/-- The account leaves BARRED: its state becomes the standing, and OCC tells SPC (R37). -/
def State.leaveBarred (n : Nat) (s : State) : State :=
  match s.occ? n with
  | none => s
  | some r =>
    let st := r.account.standing
    let s := s.modOcc n fun r => { r with account := { r.account with state := st } }
    ((s.setFlagIf (st == .low) .accountLow).setFlagIf (st == .overdue) .accountOverdue).notify
      .unbarred n

/-- The overdue check of one record (R36). -/
def State.overdueCheck (n : Nat) (s : State) : State :=
  match s.occ? n with
  | none => s
  | some r =>
    match r.account.overdueSince with
    | some since =>
      if r.account.state = .overdue && graceOver s.settings.overdueGrace s.now since then
        (s.enterBarred n).setFlag .accountBarred
      else s
    | none => s

/-- The standing is computed after a change of balance or credit limit; LOW and OVERDUE are flagged
when the state enters them, and the overdue check runs (R33). -/
def State.computeStanding (n : Nat) (s : State) : State :=
  match s.occ? n with
  | none => s
  | some r =>
    let a := r.account.computed s.now
    let s := s.modOcc n fun r => { r with account := a }
    let s := s.setFlagIf (a.state == .low && r.account.state != .low) .accountLow
    let s := s.setFlagIf (a.state == .overdue && r.account.state != .overdue) .accountOverdue
    s.overdueCheck n

/-- A debit: the balance falls, saturating at -99,999,999; a debit of 0 changes nothing, and one for
an occupancy with no record is dropped (R38). -/
def State.debit (n cents : Nat) (s : State) : State :=
  if cents = 0 then s
  else
    match s.occ? n with
    | none => s
    | some _ =>
      (s.modOcc n fun r => { r with account := { r.account with
        balance := max (-Config.balanceMax) (r.account.balance - cents) } }).computeStanding n

/-! ### Creation (R26) -/

/-- What a creation is given. -/
structure NewStay where
  berth   : Nat
  length  : Nat
  beam    : Nat
  draft   : Nat
  cls     : BoatClass
  arrival : Nat
  nights  : Nat
  origin  : Option Tag
  power   : Bool
  rating  : Nat
  three   : Bool
  deriving DecidableEq, Repr

/-- The first profile of a record on a point (R26). -/
def firstProfile (v : NewStay) (p : Point) : Profile :=
  { rating := if v.power then min v.rating p.maxRating else 0
    three := v.power && v.three && p.three
    tapOpen := true }

/-- The record a creation makes, before its standing is computed (R26). -/
def newRecord (s : State) (n : Nat) (v : NewStay) : Occupancy :=
  { number := n, berth := v.berth, length := v.length, beam := v.beam, draft := v.draft,
    cls := v.cls, arrival := v.arrival, nights := v.nights, state := .booked, origin := v.origin,
    closureDue := none, credential := none,
    account := { balance := 0, limit := s.settings.creditLimit, warn := s.settings.warnLevel,
                 state := .open_, overdueSince := none, late := false },
    holds := [], receipts := [],
    profile := (s.berthPoint v.berth).bind fun p => (s.point? p).map (firstProfile v),
    graceEnd := none, awaiting := false }

/-- OCC creates a BOOKED record with the lowest number not in use, or refuses (R26). -/
def State.createOcc (v : NewStay) (s : State) : Option (Nat × State) :=
  if Config.maxRecords ≤ s.occ.records.length then none
  else if !s.berthFree v.berth v.arrival v.nights then none
  else
    match lowestFree (keysOf Occupancy.number s.occ.records) Config.maxRecords with
    | none => none
    | some n =>
      let s' : State := { s with occ := { s.occ with
        records := insertKey Occupancy.number (newRecord s n v) s.occ.records } }
      some (n, s'.computeStanding n)

/-! ### Removal and closures (R28, R31, R34, R35) -/

/-- A record leaves the table: its number, nights and card are free, SPC discards its link, and no point
names it any more, the final-reading mark of the point that charged it included (R28, R77, log 44). -/
def State.removeOcc (n : Nat) (s : State) : State :=
  { s with
    occ := { s.occ with
      records := eraseKey Occupancy.number n s.occ.records
      notices := s.occ.notices.filter fun x => x.occ != n }
    spc := { s.spc with
      links := eraseKey Link.occ n s.spc.links
      points := s.spc.points.map fun p => { p with
        charging := if p.charging = some n then none else p.charging
        finalMark := if p.charging = some n then none else p.finalMark
        arrivals := p.arrivals.filter (· != n)
        retained := p.retained.filter fun x => x.occ != n }
      heldBack := s.spc.heldBack.filter (· != n) } }

/-- The closure list has a free place (R34). -/
def State.closureRoom (s : State) : Bool := s.occ.closures.length < Config.maxClosures

/-- The closure record of a live record (R34). -/
def closureOf (s : State) (r : Occupancy) (reason : CloseReason) : Closure :=
  { occupancy := r.number, berth := r.berth, cls := r.cls, arrival := r.arrival, nights := r.nights,
    reason := reason, closedAt := s.now, balance := r.account.balance, late := r.account.late,
    energy := match s.link? r.number with | some l => l.energy | none => 0
    water := match s.link? r.number with | some l => l.water | none => 0 }

/-- A closure record is appended, CLOSURE ADDED is flagged and the record removed (R31, R34). -/
def State.closeOcc (n : Nat) (reason : CloseReason) (s : State) : State :=
  match s.occ? n with
  | none => s
  | some r =>
    let c := closureOf s r reason
    let s : State := { s with occ := { s.occ with closures := s.occ.closures ++ [c] } }
    (s.setFlag .closureAdded).removeOcc n

/-- The removal test (R31): a record with closure due goes when there is room, whatever its state; a
DEPARTING one with no final reading awaited and no hold goes or waits with CLOSURE WAITING. -/
def State.testRemoval (n : Nat) (s : State) : State :=
  match s.occ? n with
  | none => s
  | some r =>
    match r.closureDue with
    | some reason => if s.closureRoom then s.closeOcc n reason else s
    | none =>
      if r.state = .departing && !r.awaiting && r.holds.isEmpty then
        if s.closureRoom then s.closeOcc n .departed else s.setFlag .closureWaiting
      else s

/-- The record waits for closure (R35). -/
def Occupancy.closureWaits (r : Occupancy) : Bool :=
  r.closureDue.isSome || (r.state == .departing && !r.awaiting && r.holds.isEmpty)

/-- The waiting closures are retried in occupancy-number order while the list has a free place (R35). -/
def State.retryClosures (s : State) : State :=
  (keysOf Occupancy.number (s.occ.records.filter Occupancy.closureWaits)).foldl
    (fun s n => if s.closureRoom then s.testRemoval n else s) s

/-! ### Arrival and departure (R29, R30, R32) -/

/-- Entry to ALONGSIDE: OCC tells SPC (R29). -/
def State.toAlongside (n : Nat) (s : State) : State :=
  (s.modOcc n fun r => { r with state := .alongside }).notify .alongside n

/-- Entry to DEPARTING (R30). -/
def State.toDeparting (n : Nat) (s : State) : State :=
  let grace := s.now.addSec (s.settings.departureGrace * 3600)
  let awaiting := (s.occPoint n).isSome
  ((s.modOcc n fun r => { r with state := .departing, graceEnd := some grace, awaiting := awaiting }).notify
    .departing n).testRemoval n

/-- The day roll's step for one record (R32). -/
def State.dayRollRecord (s : State) (n : Nat) : State :=
  match s.occ? n with
  | none => s
  | some r =>
    match r.state with
    | .alongside => if r.departureDay ≤ s.today then s.toDeparting n else s
    | .booked =>
      if r.arrival + 1 ≤ s.today && r.closureDue.isNone then
        if s.closureRoom then s.closeOcc n .noShow
        else (s.modOcc n fun r => { r with closureDue := some .noShow }).setFlag .closureWaiting
      else s
    | .departing => s

/-- The day roll: the state step of every record in number order, the overdue check of every record
still in the table, then the waiting closures (R32). -/
def State.dayRoll (s : State) : State :=
  let s := (keysOf Occupancy.number s.occ.records).foldl State.dayRollRecord s
  let s := (keysOf Occupancy.number s.occ.records).foldl (fun s n => s.overdueCheck n) s
  s.retryClosures

/-! ### Holds (R40 to R43) -/

/-- The hold ids in use at the station. -/
def State.holdIds (s : State) : List Nat := s.occ.records.flatMap fun r => r.holds.map Hold.id

/-- The hold id a new hold takes: the next after the counter not in use (R40). -/
def State.nextHoldId (s : State) : Option Nat := nextFree 1 255 s.occ.holdId s.holdIds

/-- A hold is placed at the end of the record's list, and the counter holds its id (R40, R41). -/
def State.placeHold (n id station pump ask amount : Nat) (s : State) : State :=
  let h : Hold :=
    { id := id, station := station, pump := some pump, ask := some ask, amount := amount,
      placed := s.now, expiry := s.now.addSec (s.settings.holdLifetime * 60) }
  let s : State := { s with occ := { s.occ with holdId := id } }
  s.modOcc n fun r => { r with holds := r.holds ++ [h] }

/-- A record's holds without one id. -/
def State.dropHold (n id : Nat) (s : State) : State :=
  s.modOcc n fun r => { r with holds := r.holds.filter fun h => h.id != id }

/-- A hold lapses: it is removed without debit, HOLD LAPSED is flagged, and the record tested (R43). -/
def State.lapseHold (n id : Nat) (s : State) : State :=
  ((s.dropHold n id).setFlag .holdLapsed).testRemoval n

/-- Every hold whose expiry the clock has reached, record by record in number order and in placing order
within a record (log 56). -/
def State.dueHolds (s : State) : List (Nat × Nat) :=
  s.occ.records.flatMap fun r =>
    (r.holds.filter fun h => h.expiry.toMs ≤ s.now.toMs).map fun h => (r.number, h.id)

/-- Every hold of one record whose expiry has been passed lapses at once (R43, R201 step 3). -/
def State.lapseRecord (s : State) (n : Nat) : State :=
  match s.occ? n with
  | none => s
  | some r =>
    (r.holds.filter fun h => h.expiry.toMs ≤ s.now.toMs).foldl (fun s h => s.lapseHold n h.id) s

/-- Every hold whose expiry has been passed lapses at once (R43), in the order of `dueHolds` (log 56). -/
def State.lapseDue (s : State) : State :=
  s.dueHolds.foldl (fun s x => s.lapseHold x.1 x.2) s

/-- The settle receipts with one more, the oldest dropped when a fifth is added (R42). -/
def addReceipt (r : Receipt) (l : List Receipt) : List Receipt :=
  let l := l ++ [r]
  l.drop (l.length - Config.maxReceipts)

/-! ### PIN outcomes (R47) -/

/-- A wrong PIN counted: at 3 the credential becomes LOCKED (R47). -/
def Credential.wrongPin (c : Credential) : Credential :=
  let k := min 3 (c.count + 1)
  { c with count := k, locked := c.locked || k == 3 }

/-- The waiver a correct PIN starts (R47, R128). -/
def State.newWaiver (s : State) : Option Time :=
  if s.gtc.waiverLength = 0 then none else some (s.now.addSec (s.gtc.waiverLength * 3600))

/-- A credential of a record changed. -/
def State.modCredential (n : Nat) (f : Credential → Credential) (s : State) : State :=
  s.modOcc n fun r => { r with credential := r.credential.map f }

/-- OCC counts a wrong PIN of a record, flagging LOCKOUT when it locks (R47). -/
def State.wrongPin (n : Nat) (s : State) : State :=
  match (s.occ? n).bind Occupancy.credential with
  | none => s
  | some c =>
    (s.modCredential n Credential.wrongPin).setFlagIf (!c.locked && c.wrongPin.locked) .lockout

/-- OCC takes a correct PIN of a record (R47). -/
def State.correctPin (n : Nat) (s : State) : State :=
  s.modCredential n fun c => { c with count := 0, waiver := s.newWaiver }

/-- A card is bound to a record (R44): a new credential, or the card alone replaced with the waiver
made absent; binding the card already held changes nothing. -/
def State.bindCard (n card : Nat) (s : State) : State :=
  s.modOcc n fun r =>
    match r.credential with
    | none => { r with credential := some (Credential.mk card none 0 false none) }
    | some c =>
      if c.card = card then r
      else { r with credential := some { c with card := card, waiver := none } }

/-- A card is bound to a live record other than this one, or is a staff card (R44, R45). -/
def State.cardTaken (n card : Nat) (s : State) : Bool :=
  s.isStaffCard card ||
    match s.cardHolder card with
    | some r => r.number != n
    | none => false

end Sys2Proof.Machine
end

