-- ==== Sys2Proof/Machine/PwbOps.lean ====
section
/-! DEFINITION. PWB's shared operations (03_the_power_budget_and_loans.md): ceiling and load, serving
and failing demands, the shed and restore passes, the loans. Before them, what SPC and FDC do when
PWB answers them (R81, R98, R106, R110). -/

namespace Sys2Proof.Machine

/-! ### SPC's side -/

/-- A service point changed. -/
def State.modPoint (p : Nat) (f : Point → Point) (s : State) : State :=
  { s with spc := { s.spc with points := modifyKey Point.number p f s.spc.points } }

/-- The occupancy charged at a point (R77). -/
def State.charged (s : State) (p : Nat) : Option Occupancy :=
  ((s.point? p).bind Point.charging).bind s.occ?

/-- The four conditions of an OPEN tap (R76). -/
def State.tapMayOpen (s : State) (p : Point) : Bool :=
  p.tapFitted &&
    match p.charging.bind s.occ? with
    | some r =>
      r.state == .alongside && r.account.state != .barred &&
        (match r.profile with | some q => q.tapOpen | none => false)
    | none => false

/-- The tap of a point set; an opening sets the tap-open mark and clears the leak mark (R86, R90). -/
def Point.setTap (p : Point) (isOpen : Bool) : Point :=
  if isOpen && !p.tapOpen then { p with tapOpen := true, tapMark := true, leakMark := false }
  else { p with tapOpen := isOpen }

/-- The tap of a point opens or closes by R76. -/
def State.followTap (n : Nat) (s : State) : State :=
  s.modPoint n fun p => p.setTap (s.tapMayOpen p)

/-- The tap of a point is closed. -/
def State.closeTap (n : Nat) (s : State) : State := s.modPoint n fun p => p.setTap false

/-- SPC commands an outlet ON at a figure, which the interval figure takes in (R81, R86). -/
def State.commandOn (n figure : Nat) (s : State) : State :=
  s.modPoint n fun p => { p with outlet := .on, interval := max p.interval figure }

/-- An outlet's state. -/
def State.setOutlet (n : Nat) (o : OutletState) (s : State) : State :=
  s.modPoint n fun p => { p with outlet := o }

/-- A pending raise ends with its outcome and PROFILE DONE is flagged (R98). -/
def State.raiseOutcome (n : Nat) (o : RaiseOutcome) (s : State) : State :=
  match (s.point? n).bind Point.raisePending with
  | some _ => (s.modPoint n fun p => { p with raisePending := none, raiseLast := o }).setFlag .profileDone
  | none => s

/-- PWB serves a RAISE: the result profile is written, the interval figure takes in its figure, the
tap follows and the outcome is APPLIED (R98), before the notice of a change of its occupancy too (log 69). -/
def State.raiseServed (n : Nat) (s : State) : State :=
  match s.point? n with
  | none => s
  | some p =>
    match p.raisePending, p.charging with
    | some q, some occ =>
      let s := s.modOcc occ fun r => { r with profile := some q }
      let s := s.modPoint n fun p => { p with interval := max p.interval q.figure }
      (s.followTap n).raiseOutcome n .applied
    | _, _ => s

/-! ### FDC's side -/

/-- A pump of the station. -/
def State.pump? (s : State) (n : Nat) : Option Pump :=
  if n = 1 then some s.fdc.pump1 else if n = 2 then some s.fdc.pump2 else none

/-- A pump changed. -/
def State.modPump (n : Nat) (f : Pump → Pump) (s : State) : State :=
  if n = 1 then { s with fdc := { s.fdc with pump1 := f s.fdc.pump1 } }
  else if n = 2 then { s with fdc := { s.fdc with pump2 := f s.fdc.pump2 } }
  else s

/-- The sale in progress at a pump. -/
def State.sale? (s : State) (n : Nat) : Option Sale := (s.pump? n).bind Pump.sale

/-- The sale of a pump changed. -/
def State.modSale (n : Nat) (f : Sale → Sale) (s : State) : State :=
  s.modPump n fun p => { p with sale := p.sale.map f }

/-- A journal record changed. -/
def State.modRecord (number : Nat) (f : JournalRecord → JournalRecord) (s : State) : State :=
  { s with fdc := { s.fdc with journal := modifyKey JournalRecord.number number f s.fdc.journal } }

/-- A sale in AUTHORISING with its load HELD and, for ACCOUNT, its hold taken becomes AUTHORISED (R109). -/
def State.tryAuthorise (n : Nat) (s : State) : State :=
  match s.pump? n with
  | none => s
  | some p =>
    match p.sale, p.config with
    | some sale, some c =>
      if sale.state = .authorising && sale.load = .held && (sale.card.isNone || sale.hold.isSome) then
        (s.modPump n fun p => { p with
          sale := some { sale with state := .authorised,
                                   timer := some (s.elapsed + c.authTimeout * 1000000) }
          last := .authorised }).setFlag .authDone
      else s
    | _, _ => s

/-- A SETTLE of amount 0 is queued to release a hold, while the station is ON LINE (R108, R110). -/
def State.zeroSettle (h : HoldRef) (sale : Nat) (s : State) : State :=
  if s.onLine then s.queueFrame (settleFrame s.me h.home h.hold 0 h.occ sale) else s

/-- The pump's open ask, when there is one, becomes its closed ask (R107). -/
def Pump.closeAsk (p : Pump) (sale : Nat) (hold : Option HoldRef) : Pump :=
  match p.ask with
  | some a => { p with ask := none, closedAsk := some { seq := a.seq, sale := sale, hold := hold } }
  | none => p

/-- A sale ends unused (R110) once its load has been given back: steps 2 to 5 and the last outcome, a
refusal from AUTHORISING and a lapse from AUTHORISED. -/
def State.endUnusedCore (n : Nat) (cause : AuthCause) (reason : LapseReason) (s : State) : State :=
  match s.sale? n with
  | none => s
  | some sale =>
    let s := match sale.hold with | some h => s.zeroSettle h sale.number | none => s
    let s := s.modPump n fun p => p.closeAsk sale.number sale.hold
    let s : State := { s with fdc := { s.fdc with
      journal := eraseKey JournalRecord.number sale.number s.fdc.journal } }
    if sale.state = .authorising then
      (s.modPump n fun p => { p with sale := none, main := false, slow := false,
                                     last := .refused cause }).setFlag .authDone
    else
      (s.modPump n fun p => { p with sale := none, main := false, slow := false,
                                     last := .lapsed reason }).setFlag .authLapsed

/-- PWB fails a pump's demand: the sale ends unused (R106). -/
def State.pumpFailed (n : Nat) (cause : AuthCause) (s : State) : State :=
  match s.sale? n with
  | some sale => if sale.state = .authorising then s.endUnusedCore n cause .cancelled else s
  | none => s

/-! ### Ceiling and load (R51, R52) -/

/-- What a loan record holds: its amount and any pledged addition. -/
def Loan.total (l : Loan) : Nat := l.amount + l.addition.getD 0

/-- The amounts of the loans in. -/
def Pwb.lentIn (p : Pwb) : Nat := ((p.loans.filter fun l => !l.lent).map Loan.amount).sum

/-- The amounts of the loans out with their pledged additions. -/
def Pwb.lentOut (p : Pwb) : Nat := ((p.loans.filter fun l => l.lent).map Loan.total).sum

/-- The ceiling C (R51). -/
def State.ceiling (s : State) : Int := s.settings.baseShare + s.pwb.lentIn - s.pwb.lentOut

/-- The own ceiling H (R51). -/
def State.ownCeiling (s : State) : Int := s.settings.baseShare - s.pwb.lentOut

/-- The pump load a pump holds (R52, R104). -/
def Pump.heldLoad (p : Pump) : Nat :=
  match p.sale, p.config with
  | some sale, some c => if sale.load = .held then c.load else 0
  | _, _ => 0

/-- The sum P of the pump loads held (R52). -/
def State.pumpLoads (s : State) : Nat := s.fdc.pump1.heldLoad + s.fdc.pump2.heldLoad

/-- The load G (R52). -/
def State.load (s : State) : Nat := (s.pwb.energised.map OutletLoad.figure).sum + s.pumpLoads

/-- The current not in use, C - G. -/
def State.spare (s : State) : Int := s.ceiling - s.load

/-- The part of the own ceiling not held for pumps, H - P. -/
def State.pumpSpare (s : State) : Int := s.ownCeiling - s.pumpLoads

/-! ### The lists of outlets (section 3.3) -/

/-- An entry put at its place by energising time. -/
def insertMoment (e : OutletLoad) : List OutletLoad → List OutletLoad
  | [] => [e]
  | x :: r => if e.moment < x.moment then e :: x :: r else x :: insertMoment e r

/-- An outlet leaves both lists. -/
def State.dropOutlet (n : Nat) (s : State) : State :=
  { s with pwb := { s.pwb with
      energised := eraseKey OutletLoad.point n s.pwb.energised
      shed := eraseKey OutletLoad.point n s.pwb.shed } }

/-- The demands of an outlet leave the queue without outcome (R56). -/
def State.dropDemands (n : Nat) (s : State) : State :=
  { s with pwb := { s.pwb with
      demands := s.pwb.demands.filter fun d => d.kind == .pump || d.source != n } }

/-- An outlet has a demand of a kind in the queue. -/
def State.hasDemand (s : State) (k : DemandKind) (n : Nat) : Bool :=
  s.pwb.demands.any fun d => d.kind == k && d.source == n

/-- The outlet is OFF with its ENERGISE demand queued (R75). -/
def State.demandQueued (s : State) (n : Nat) : Bool := s.hasDemand .energise n

/-- An outlet joins the end of the energised list with energising time now and is commanded ON (R55, R57). Its
occupancy is not tested here: SPC takes the outlet away at the notice of a change (R75, log 69). -/
def State.energise (n figure : Nat) (s : State) : State :=
  let s := s.stamp
  let s : State := { s with pwb := { s.pwb with
    energised := s.pwb.energised ++ [{ point := n, figure := figure, moment := s.moments }] } }
  s.commandOn n figure

/-- An outlet whose ENERGISE demand failed becomes SHED with energising time now (R56, R60). -/
def State.shedFailed (n figure : Nat) (s : State) : State :=
  let s := s.stamp
  let e : OutletLoad := { point := n, figure := figure, moment := s.moments }
  let s : State := { s with pwb := { s.pwb with shed := insertMoment e s.pwb.shed } }
  (s.setOutlet n .shed).setFlag .outletShed

/-- The shed pass takes one outlet (R54); a RAISE it has queued is withdrawn with BUDGET (R98). -/
def State.shedOutlet (e : OutletLoad) (s : State) : State :=
  let s := (s.dropOutlet e.point).dropDemands e.point
  let s : State := { s with pwb := { s.pwb with shed := insertMoment e s.pwb.shed } }
  ((s.setOutlet e.point .shed).raiseOutcome e.point .budget).setFlag .outletShed

/-- The turn of an outlet in the shed pass: OVERDUE accounts, VISITOR, then MEMBER and SEASONAL (R54). -/
def State.shedClass (s : State) (n : Nat) : Nat :=
  match s.charged n with
  | some r => if r.account.state = .overdue then 0 else if r.cls = .visitor then 1 else 2
  | none => 2

/-- The energised outlets in the order the shed pass takes them (R54). -/
def State.shedOrder (s : State) : List OutletLoad :=
  let newest := s.pwb.energised.reverse
  newest.filter (fun e => s.shedClass e.point == 0) ++
  newest.filter (fun e => s.shedClass e.point == 1) ++
  newest.filter (fun e => s.shedClass e.point == 2)

/-- The shed pass: outlets are taken until G is no greater than C (R54). -/
def State.shedPass (s : State) : State :=
  s.shedOrder.foldl (fun s e => if s.ceiling < s.load then s.shedOutlet e else s) s

/-- The restore pass: the shed list's front is commanded ON while its figure is no greater than C - G (R55). The
model's choice (log 69): an outlet whose occupancy is already DEPARTING or BARRED is on the list until SPC takes
the notice of it, and the pass restores it like any other (R75, 04 section 4.3). -/
def State.restoreLoop : Nat → State → State
  | 0, s => s
  | n + 1, s =>
    match s.pwb.shed with
    | [] => s
    | e :: r =>
      if (e.figure : Int) ≤ s.spare then
        State.restoreLoop n (({ s with pwb := { s.pwb with shed := r } } : State).energise e.point e.figure)
      else s

/-- The restore pass over the whole shed list (R55). -/
def State.restorePass (s : State) : State := s.restoreLoop s.pwb.shed.length

/-! ### The demand queue (R56 to R60) -/

/-- The head's demand leaves the queue. -/
def State.popDemand (s : State) : State :=
  { s with pwb := { s.pwb with demands := s.pwb.demands.tail } }

/-- The demand fits: C - G is at least its need and, for a PUMP, H - P also (R57). -/
def State.fits (s : State) (d : Demand) : Bool :=
  (d.need : Int) ≤ s.spare && (d.kind != .pump || (d.need : Int) ≤ s.pumpSpare)

/-- The shortfall of a demand (R57). -/
def State.shortfall (s : State) (d : Demand) : Nat :=
  max (d.need - s.spare).toNat (if d.kind = .pump then (d.need - s.pumpSpare).toNat else 0)

/-- The head is served: its need joins G and its submitter is told (R57). The model's choice (log 69): a demand
whose occupancy is already DEPARTING or BARRED stands until SPC takes the notice of it, and is served like any
other (R75, 04 section 4.3). -/
def State.serveHead (d : Demand) (s : State) : State :=
  let s := s.popDemand
  match d.kind with
  | .energise => s.energise d.source d.need
  | .raise =>
    let s : State := { s with pwb := { s.pwb with
      energised := modifyKey OutletLoad.point d.source (fun e => { e with figure := e.figure + d.need })
        s.pwb.energised } }
    s.raiseServed d.source
  | .pump => (s.modSale d.source fun x => { x with load := .held }).tryAuthorise d.source

/-- Why a demand fails (R60). -/
inductive FailCause where
  | budget | noLine
  deriving DecidableEq, Repr

/-- The head leaves the queue failed and its submitter acts (R60); `short` is an ask that failed, which
flags ASK SHORT. -/
def State.failHead (d : Demand) (c : FailCause) (short : Bool) (s : State) : State :=
  let s := s.popDemand.setFlagIf short .askShort
  match d.kind with
  | .energise => s.shedFailed d.source d.need
  | .raise => s.raiseOutcome d.source .budget
  | .pump => s.pumpFailed d.source (match c with | .budget => .budget | .noLine => .noLine)

/-- An OUT loan the head may recall: ACTIVE without a pledged addition (R58). -/
def Loan.recallable (l : Loan) : Bool := l.lent && l.state == .active && l.addition.isNone

/-- A loan recalled for this head is still out (R58). -/
def State.recallsOut (s : State) (d : Demand) : Bool :=
  s.pwb.loans.any fun l => l.lent && l.state == .recalled && d.recalls.contains l.partner

/-- The partners whose loans are recalled, newest first, until their amounts reach the shortfall (R58). -/
def recallChoice : Nat → List Loan → List Nat
  | _, [] => []
  | short, l :: r => if short = 0 then [] else l.partner :: recallChoice (short - l.amount) r

/-- The ask amount: the shortfall against C rounded up to a multiple of 4 A, at least 4 (R59). -/
def State.askAmount (s : State) (d : Demand) : Nat :=
  max 4 (((d.need - s.spare).toNat + 3) / 4 * 4)

/-- What becomes of a head that does not fit (R58, R59). -/
inductive HeadStep where
  | wait
  | recall (partners : List Nat)
  | ask (amount : Nat)
  | fail (c : FailCause) (short : Bool)
  deriving DecidableEq, Repr

/-- The next step of a head that does not fit (R58, R59). A loan out with a pledged addition cannot be
recalled, and counts for no loan (log 14, 41); any head waits for an open collection to close, a PUMP
short of H included (log 57). -/
def State.headStep (s : State) (d : Demand) : HeadStep :=
  if s.pwb.collection.isSome then .wait
  else if s.recallsOut d then .wait
  else
    let outs := s.pwb.loans.reverse.filter Loan.recallable
    if !outs.isEmpty then .recall (recallChoice (s.shortfall d) outs)
    else if d.kind = .pump && s.pumpSpare < d.need then .fail .budget false
    else if !s.onLine then .fail .noLine true
    else if Config.ceilingMax < s.settings.baseShare + s.pwb.lentIn + s.askAmount d then .fail .budget true
    else if Config.maxLoans ≤ s.pwb.loans.length then .fail .budget true
    else if d.asked then .fail .budget true
    else .ask (s.askAmount d)

/-- The head demand changed. -/
def State.modHead (f : Demand → Demand) (s : State) : State :=
  { s with pwb := { s.pwb with
      demands := match s.pwb.demands with | d :: r => f d :: r | [] => [] } }

/-- A loan out is recalled: RECALLED with its deadline, and a LOAN RECALL is queued (R58). -/
def State.recallOne (s : State) (partner : Nat) : State :=
  match s.pwb.loans.find? (fun l => l.recallable && l.partner == partner) with
  | none => s
  | some l =>
    let s : State := { s with pwb := { s.pwb with
      loans := s.pwb.loans.map fun x =>
        if x.lent && x.partner == partner then
          { x with state := .recalled, deadline := some (s.elapsed + s.settings.recallPeriod * 1000000) }
        else x } }
    s.queueFrame (loanRecallFrame s.me partner l.pledge l.amount)

/-- The recalls made for the head (R58). -/
def State.recallFor (partners : List Nat) (s : State) : State :=
  (partners.foldl State.recallOne s).modHead fun d => { d with recalls := d.recalls ++ partners }

/-- The head asks the line: the ask sequence rises, a LOAN ASK is queued and the collection opens (R59, R61). -/
def State.askFor (d : Demand) (amount : Nat) (s : State) : State :=
  let seq := (s.pwb.askSeq + 1) % 256
  let s : State := { s with pwb := { s.pwb with
    askSeq := seq
    collection := some { seq := seq, amount := amount, frame := s.lif.serial, demand := d.id,
                         closeAt := none, offers := [] } } }
  (s.modHead fun d => { d with asked := true }).queueFrame (loanAskFrame s.me seq amount)

/-- PWB examines the head, and each next head after one served or failed (R57 to R60). -/
def State.examineLoop : Nat → State → State
  | 0, s => s
  | n + 1, s =>
    match s.pwb.demands with
    | [] => s
    | d :: _ =>
      if s.fits d then State.examineLoop n (s.serveHead d)
      else
        match s.headStep d with
        | .wait => s
        | .recall ps => s.recallFor ps
        | .ask a => s.askFor d a
        | .fail c short => State.examineLoop n (s.failHead d c short)

/-- The head is examined and, with the queue empty, the restore pass runs: what follows a rise of C, a
fall of G, and the head's leaving (R55, R57). -/
def State.settle (s : State) : State :=
  let s := s.examineLoop (s.pwb.demands.length + 1)
  if s.pwb.demands.isEmpty then s.restorePass else s

/-- C has risen or G has fallen since a state (R55, R57). -/
def State.freedSince (s before : State) : Bool := before.ceiling < s.ceiling || s.load < before.load

/-- What follows a change that may have raised C, lowered G or taken the head: the head is examined and,
with the queue empty, the restore pass runs where C rose, G fell or the queue has become empty since
`before` (R55, R57). -/
def State.settleSince (s before : State) : State :=
  let t := s.examineLoop (s.pwb.demands.length + 1)
  if t.pwb.demands.isEmpty && (s.freedSince before || !before.pwb.demands.isEmpty) then t.restorePass
  else t

/-- A demand joins the end of the queue; one that joins an empty queue is served at once (R56). -/
def State.appendDemand (k : DemandKind) (source need : Nat) (s : State) : State :=
  let s := s.stamp
  { s with pwb := { s.pwb with
      demands := s.pwb.demands ++
        [{ id := s.moments, kind := k, source := source, need := need, asked := false, recalls := [] }] } }

/-- The queue is full (R56). -/
def State.queueFull (s : State) : Bool := Config.maxDemands ≤ s.pwb.demands.length

/-- SPC submits an ENERGISE demand (R56): ignored where the outlet has a demand queued; with the queue
full the outlet becomes SHED at once. -/
def State.submitEnergise (n need : Nat) (s : State) : State :=
  if s.hasDemand .energise n || s.hasDemand .raise n then s
  else if s.queueFull then s.shedFailed n need
  else
    let wasEmpty := s.pwb.demands.isEmpty
    let s := s.appendDemand .energise n need
    if wasEmpty then s.settle else s

/-- An outlet leaves both lists of PWB in a new state: its demands are withdrawn and a pending raise ends
BUDGET (R75, R98). -/
def State.outletOut (n : Nat) (o : OutletState) (s : State) : State :=
  (((s.dropOutlet n).dropDemands n).setOutlet n o).raiseOutcome n .budget

/-- SPC commands an outlet off for a cause other than PWB's shed pass (R75), and PWB goes on where G fell
or the head left. -/
def State.outletOff (n : Nat) (o : OutletState) (s : State) : State := (s.outletOut n o).settleSince s

/-- FDC releases a pump's load: G and P fall, and PWB examines its head or runs its restore pass, after the
release of a load of 0 A too (R110, R120). -/
def State.releaseLoad (n : Nat) (s : State) : State :=
  (s.modSale n fun x => { x with load := .released }).settle

/-- FDC withdraws a pump's demand (R56, R110). -/
def State.withdrawPump (n : Nat) (s : State) : State :=
  ({ s with pwb := { s.pwb with
    demands := s.pwb.demands.filter fun d => d.kind != .pump || d.source != n } } : State).settleSince s

/-- A sale ends unused (R110): a QUEUED load's demand is withdrawn; a HELD load is released, its sale being
gone, and PWB examines its head or runs its restore pass, whatever the load. -/
def State.endUnused (n : Nat) (cause : AuthCause) (reason : LapseReason) (s : State) : State :=
  match s.sale? n with
  | none => s
  | some sale =>
    match sale.load with
    | .queued => (s.endUnusedCore n cause reason).withdrawPump n
    | _ => (s.endUnusedCore n cause reason).settle

/-! ### Loans (R61 to R71) -/

/-- The loan records that meet a test end. -/
def State.dropLoans (p : Loan → Bool) (s : State) : State :=
  { s with pwb := { s.pwb with loans := s.pwb.loans.filter fun l => !p l } }

/-- The loan record with a partner, direction and pledge id. -/
def State.loan? (s : State) (lent : Bool) (partner pledge : Nat) : Option Loan :=
  s.pwb.loans.find? fun l => l.lent == lent && l.partner == partner && l.pledge == pledge

/-- The loan records of a partner and direction changed. -/
def State.modLoan (lent : Bool) (partner : Nat) (f : Loan → Loan) (s : State) : State :=
  { s with pwb := { s.pwb with
      loans := s.pwb.loans.map fun l => if l.lent == lent && l.partner == partner then f l else l } }

/-- After a fall of C: the shed pass runs when C is below G, and PWB goes on where it made G fall. -/
def State.ceilingFell (s : State) : State :=
  if s.ceiling < s.load then s.shedPass.settleSince s else s

/-- Each offer of the collection declined with a LOAN DECLINE to its lender. -/
def State.declineOffers (offers : List Offer) (s : State) : State :=
  offers.foldl (fun s o => s.queueFrame (loanDeclineFrame s.me o.lender o.pledge)) s

/-- An IN record with an offer's lender under another pledge id is stale (R62). -/
def Loan.stale (offers : List Offer) (l : Loan) : Bool :=
  !l.lent && offers.any fun o => o.lender == l.partner && o.pledge != l.pledge

/-- The usable offers in arrival order: `free` places remain in the loan table (R62). -/
def usableOffers (loans : List Loan) : Nat → List Offer → List Offer
  | _, [] => []
  | free, o :: r =>
    if loans.any (fun l => !l.lent && l.partner == o.lender && l.pledge == o.pledge) then
      o :: usableOffers loans free r
    else if free = 0 then usableOffers loans free r
    else o :: usableOffers loans (free - 1) r

/-- The offers taken with the amount taken of each, the last for the remainder alone (R62). -/
def takenOffers : Nat → List Offer → List (Offer × Nat)
  | _, [] => []
  | ask, o :: r => if ask = 0 then [] else (o, min ask o.amount) :: takenOffers (ask - o.amount) r

/-- One offer is taken: a LOAN TAKE is queued, and the IN record made or added to (R62). -/
def State.takeOffer (s : State) (x : Offer × Nat) : State :=
  let s :=
    if (s.loan? false x.1.lender x.1.pledge).isSome then
      s.modLoan false x.1.lender fun l => { l with amount := l.amount + x.2 }
    else
      { s with pwb := { s.pwb with loans := s.pwb.loans ++
          [{ partner := x.1.lender, lent := false, amount := x.2, state := .active,
             pledge := x.1.pledge, addition := none, deadline := none, offerFrame := none }] } }
  s.queueFrame (loanTakeFrame s.me x.1.lender x.1.pledge x.2)

/-- The head is the demand that asked. -/
def State.askerHead (s : State) (c : Collection) : Option Demand :=
  match s.pwb.demands with
  | d :: _ => if d.id = c.demand then some d else none
  | [] => none

/-- The collection is closed, and the IN records its offers show to be stale end (R62). -/
def State.endStale (c : Collection) (s : State) : State :=
  ({ s with pwb := { s.pwb with collection := none } } : State).dropLoans (Loan.stale c.offers)

/-- The head that asked takes what covers its ask, or declines every offer and fails (R62). -/
def State.takeAsked (c : Collection) (d : Demand) (s : State) : State :=
  let usable := usableOffers s.pwb.loans (Config.maxLoans - s.pwb.loans.length) c.offers
  let taken := takenOffers c.amount usable
  if c.amount ≤ (usable.map Offer.amount).sum then
    let s := (taken.foldl State.takeOffer s).declineOffers
      (c.offers.filter fun o => !(taken.map (·.1)).contains o)
    if s.fits d then s.settle else (s.failHead d .budget false).settle
  else ((s.declineOffers c.offers).failHead d .budget true).settle

/-- What follows the end of the stale records: the head that asked acts on the offers; with that head
gone they are declined, and PWB goes on where a pass shed something or a demand waits (R62). -/
def State.closeOffers (c : Collection) (shed : Bool) (s : State) : State :=
  match s.askerHead c with
  | none =>
    let s := s.declineOffers c.offers
    if shed || !s.pwb.demands.isEmpty then s.settle else s
  | some d => s.takeAsked c d

/-- The collection closes (R62). -/
def State.closeCollection (c : Collection) (s : State) : State :=
  let s := s.endStale c
  if s.ceiling < s.load then s.shedPass.closeOffers c true else s.closeOffers c false

/-- The ask could not be sent: the collection closes with no offers and its demand fails (R61). -/
def State.askFailed (c : Collection) (s : State) : State :=
  let s : State := { s with pwb := { s.pwb with collection := none } }
  match s.askerHead c with
  | some d => (s.failHead d .budget true).settle
  | none => if s.pwb.demands.isEmpty then s else s.settle

/-- The open collection is abandoned without DECLINE and its demand fails NO LINE (R71). -/
def State.abandonAsk (s : State) : State :=
  let t : State := { s with pwb := { s.pwb with collection := none } }
  match s.pwb.collection.bind t.askerHead with
  | some d => t.failHead d .noLine false
  | none => t

/-- The shed pass runs when C is below G. -/
def State.shedIfShort (s : State) : State := if s.ceiling < s.load then s.shedPass else s

/-- Entry to LINE OFF: every loan ends as a JOIN of its partner would end it, the collection is abandoned
and its demand fails NO LINE (R71, R70). -/
def State.loansLineOff (s : State) : State :=
  let t := ((s.dropLoans fun _ => true).shedIfShort).abandonAsk
  if s.pwb.loans.isEmpty then t.settleSince s else t.settle

/-- The offer of a station leaves the open collection (R61, R70). -/
def State.dropOffer (n : Nat) (s : State) : State :=
  { s with pwb := { s.pwb with
      collection := s.pwb.collection.map fun c =>
        { c with offers := c.offers.filter fun o => o.lender != n } } }

/-- A JOIN from a station ends every loan with it and removes its offer (R70); with none, nothing changes. -/
def State.loansOnJoin (n : Nat) (s : State) : State :=
  if s.pwb.loans.any fun l => l.partner == n then
    (((s.dropOffer n).dropLoans fun l => l.partner == n).shedIfShort).settle
  else s.dropOffer n

end Sys2Proof.Machine
end

