-- ==== Sys2Proof/Machine/BalOps.lean ====
section
/-! DEFINITION. BAL's shared operations (01_berths_and_the_allocation_contest.md): feasibility, the
score, opening a round, keys heard, withdrawal, the win and the discards. -/

namespace Sys2Proof.Machine

/-! ### Feasibility and score (R5 to R8) -/

/-- The class mask allows the request's class (R5.4). -/
def Berth.allows (b : Berth) (cls : Nat) : Bool :=
  if cls = 1 then b.visitor else if cls = 2 then b.member else false

/-- The service point meets a request that wants power (R6). -/
def Point.meets (p : Point) (r : BerthRequest) : Bool :=
  r.rating ≤ p.maxRating && p.three == r.three && p.outlet != .tripped && p.outlet != .faultOff

/-- A berth is feasible for a request with its arrival day (R5, R6). -/
def State.feasible (s : State) (r : BerthRequest) (day : Nat) (b : Berth) : Bool :=
  r.length ≤ b.length && r.beam + s.settings.fender ≤ b.width &&
  r.draft + s.settings.keel ≤ b.depth + r.lowWater && b.allows r.cls && !b.reserved &&
  b.mark.isNone && s.berthFree b.number day r.nights &&
  (!r.power ||
    match b.point.bind s.point? with
    | some p => p.meets r
    | none => false)

/-- The score of a feasible berth (R7), lowered by the preference (R8). -/
def State.score (s : State) (r : BerthRequest) (b : Berth) : Nat :=
  let eL := min (b.length - r.length) 100
  let eW := min (b.width - r.beam - s.settings.fender) 40
  let eD := min (b.depth + r.lowWater - r.draft - s.settings.keel) 60
  let st := if r.power then
      match b.point.bind s.point? with | some p => p.maxRating - r.rating | none => 0
    else 0
  let S := 4 * eL + 2 * eW + eD + 16 * st
  if r.preferred = s.me && r.preferred != 0 then S - 64 else S

/-- The better of two candidates: the lower score, then the lower berth number (R8). -/
def betterFit (a b : Nat × Nat) : Nat × Nat :=
  if b.1 < a.1 || (b.1 = a.1 && b.2 < a.2) then b else a

/-- The station's candidate: score and berth number; none when no berth is feasible (R8). -/
def State.candidate (s : State) (r : BerthRequest) (day : Nat) : Option (Nat × Nat) :=
  ((s.bal.berths.filter (s.feasible r day)).map fun b => (s.score r b, b.number)).foldl
    (fun a x => match a with | none => some x | some y => some (betterFit y x)) none

/-- A key is lower than another: score first, then station (R8). -/
def BidKey.lt (a b : BidKey) : Bool :=
  a.score < b.score || (a.score = b.score && a.station < b.station)

/-- The lower of the best heard key and a key heard (R13). -/
def lowerKey (best : Option BidKey) (k : BidKey) : BidKey :=
  match best with
  | some b => if k.lt b then k else b
  | none => k

/-! ### The round table and the marks (R10, R12) -/

/-- The round of a tag. -/
def State.round? (s : State) (t : Tag) : Option Round := s.bal.rounds.find? fun r => r.tag == t

/-- The round of a tag changed. -/
def State.modRound (t : Tag) (f : Round → Round) (s : State) : State :=
  { s with bal := { s.bal with rounds := s.bal.rounds.map fun r => if r.tag = t then f r else r } }

/-- A berth's offered mark set. -/
def State.setMark (b : Nat) (t : Tag) (s : State) : State :=
  { s with bal := { s.bal with
      berths := modifyKey Berth.number b (fun x => { x with mark := some t }) s.bal.berths } }

/-- The marks a round holds are cleared (R12). -/
def State.clearMark (t : Tag) (s : State) : State :=
  { s with bal := { s.bal with
      berths := s.bal.berths.map fun b => if b.mark = some t then { b with mark := none } else b } }

/-- A round leaves the table. -/
def State.dropRound (t : Tag) (s : State) : State :=
  { s with bal := { s.bal with rounds := s.bal.rounds.filter fun r => r.tag != t } }

/-- The round's BID, if it has one, is withdrawn from the transmit queue (R16, R22). -/
def State.withdrawBid (r : Round) (s : State) : State :=
  match r.state, r.bidFrame with
  | .bidQueued, some f => s.withdrawFrame f
  | _, _ => s

/-- A round is discarded: its delay stops, its queued BID is withdrawn and its mark is cleared
(R16, R22). -/
def State.discardRound (r : Round) (s : State) : State :=
  ((s.withdrawBid r).clearMark r.tag).dropRound r.tag

/-! ### Bids (R13, R14) -/

/-- The delay of a WAITING round ends: one BID is queued and the round is BID QUEUED (R14). -/
def State.endDelay (r : Round) (s : State) : State :=
  match r.ownKey with
  | none => s
  | some k =>
    let note := s.lif.serial
    let s := s.modRound r.tag fun x =>
      { x with state := .bidQueued, delayEnd := none, bidFrame := some note }
    s.queueFrame (bidFrame s.me k.score r.tag)

/-- The transmission of a BID never began: LIF answers its withdrawal WITHDRAWN, or answers NOT QUEUED
with its report FAILED still to be taken, the queue having refused or displaced it (R10, R13, R166, R169). -/
def State.bidUnsent (s : State) (serial : Nat) : Bool :=
  s.lif.withdrawal serial == .withdrawn || s.lif.reports.any fun r => r.serial == serial && !r.sent

/-- A key is heard for a round of the table not in WON, in a BID (R13) or an ASSIGN (R15). -/
def State.hearKey (r : Round) (k : BidKey) (s : State) : State :=
  if r.state = .won then s
  else
    let s := s.modRound r.tag fun x => { x with best := some (lowerKey x.best k) }
    let lower := match r.ownKey with | some own => k.lt own | none => false
    if !lower then s
    else
      match r.state with
      | .waiting =>
        (s.modRound r.tag fun x => { x with state := .withdrawn, delayEnd := none }).clearMark r.tag
      | .bidQueued =>
        let unsent := match r.bidFrame with
          | some f => s.bidUnsent f
          | none => false
        let s := s.withdrawBid r
        (s.modRound r.tag fun x => { x with
          state := if unsent then .withdrawn else .lost }).clearMark r.tag
      | .bidSent => (s.modRound r.tag fun x => { x with state := .lost }).clearMark r.tag
      | _ => s

/-- A round is opened for a request (R11, R19): the candidate chosen, marked and its delay set, or
NO FIT; a delay of 0 ends at once. -/
def State.openRound (t : Tag) (req : BerthRequest) (mayFit : Bool) (s : State) : State :=
  let day := s.today + req.offset
  let cand := if mayFit then s.candidate req day else none
  let wEnd := s.elapsed + s.settings.window * 1000
  let base : Round :=
    { tag := t, request := req, arrivalDay := day, candidate := none, ownKey := none, best := none,
      delayEnd := none, windowEnd := wEnd, watchEnd := none, state := .noFit, bidFrame := none,
      occupancy := none }
  match cand with
  | none => { s with bal := { s.bal with rounds := s.bal.rounds ++ [base] } }
  | some (score, b) =>
    let r : Round := { base with
      candidate := some b, ownKey := some { score := score, station := s.me }
      delayEnd := some (s.elapsed + score * s.settings.bidStep), state := .waiting }
    let s : State := { s with bal := { s.bal with rounds := s.bal.rounds ++ [r] } }
    let s := s.setMark b t
    if score = 0 then s.endDelay r else s

/-! ### The end of a round (R16 to R18) -/

/-- What BAL hands OCC for a round that wins (R17). -/
def Round.stay (r : Round) (berth : Nat) : NewStay :=
  { berth := berth, length := r.request.length, beam := r.request.beam, draft := r.request.draft,
    cls := classOf r.request.cls, arrival := r.arrivalDay, nights := r.request.nights,
    origin := some r.tag, power := r.request.power, rating := r.request.rating,
    three := r.request.three }

/-- A round wins (R17): the booking is made, the mark cleared, and one ASSIGN queued; or OCC refuses
and BERTH FORFEIT is flagged. -/
def State.winRound (r : Round) (s : State) : State :=
  match r.candidate, r.ownKey with
  | some b, some k =>
    match s.createOcc (r.stay b) with
    | some (n, s) =>
      let s := (s.clearMark r.tag).modRound r.tag fun x => { x with
        state := .won, watchEnd := some (x.windowEnd + Config.watchUs), occupancy := some n }
      s.queueFrame (assignFrame s.me r.tag k.score b n)
    | none => (s.discardRound r).setFlag .berthForfeit
  | _, _ => s.discardRound r

/-- A better ASSIGN for a WON round (R18): the booking is removed when it still stands, BERTH DOUBLE
is flagged and the round discarded. -/
def State.loseDouble (r : Round) (s : State) : State :=
  let o? : Option Occupancy := r.occupancy.bind s.occ?
  let s := match o? with
    | some o => if o.state == OccState.booked && o.origin = some r.tag then s.removeOcc o.number else s
    | none => s
  (s.setFlag .berthDouble).discardRound r

/-- The await takes an ASSIGN for its tag: the lowest key stands (R20). -/
def State.awaitHear (t : Tag) (h : AssignHeard) (s : State) : State :=
  { s with bal := { s.bal with
      await := s.bal.await.map fun a =>
        if a.tag = t then
          match a.best with
          | none => { a with best := some h }
          | some b => if h.key.lt b.key then { a with best := some h } else a
        else a } }

/-- The result an await's best ASSIGN gives at its deadline (R20). -/
def State.awaitResult (s : State) (a : Await) : Origination :=
  match a.best with
  | some h => if h.key.station = s.me then .wonHere h else .assigned h
  | none => .noBerth

/-- The await ends with a result and ROUND DONE is flagged (R20). -/
def State.endAwait (r : Origination) (s : State) : State :=
  ({ s with bal := { s.bal with await := none, result := r } } : State).setFlag .roundDone

/-- Entry to LINE OFF: every round abandoned, every mark cleared, a running await ends NO LINE (R23). -/
def State.roundsLineOff (s : State) : State :=
  let s : State := { s with bal := { s.bal with
    rounds := [], berths := s.bal.berths.map fun b => { b with mark := none } } }
  if s.bal.await.isSome then s.endAwait .noLine else s

/-- A JOIN discards every round its sender originated (R22). -/
def State.roundsOnJoin (n : Nat) (s : State) : State :=
  (s.bal.rounds.filter fun r => r.tag.station == n).foldl (fun s r => s.discardRound r) s

end Sys2Proof.Machine
end

