-- ==== Sys2Proof/Machine/FdcOps.lean ====
section
/-! DEFINITION. FDC's shared operations (05_the_fuel_dock_and_sale_journal.md): the hold ask, the
valves, pulses, finishing, pricing, settlement and the journal. -/

namespace Sys2Proof.Machine

/-! ### The journal (R124, R125) -/

/-- Every flag of a record clear (R124). -/
def SaleFlags.clear : SaleFlags := ⟨false, false, false, false, false, false, false⟩

/-- The journal has a free place (R124). -/
def State.journalRoom (s : State) : Bool := s.fdc.journal.length < Config.maxJournal

/-- The sale number the next reservation gives (R124). -/
def State.nextSaleNo (s : State) : Option Nat :=
  nextFree 0 65535 s.fdc.saleNo (keysOf JournalRecord.number s.fdc.journal)

/-- A journal place is reserved (R124): the record stands OPEN, and JOURNAL LOW is flagged when 4 or
fewer places are left. -/
def State.reserve (number pump preset : Nat) (card : Option Nat) (c : PumpConfig) (s : State) : State :=
  let rec_ : JournalRecord :=
    { number := number, closed := false, pump := pump, grade := c.grade, preset := preset,
      card := card, hold := none, startTime := none, endTime := none, volume := 0, price := c.price,
      charged := none, settle := none, flags := SaleFlags.clear }
  let s : State := { s with fdc := { s.fdc with
    journal := s.fdc.journal ++ [rec_], saleNo := number } }
  s.setFlagIf (Config.maxJournal ≤ s.fdc.journal.length + 4) .journalLow

/-- The oldest CLOSED record (R125). -/
def State.oldestClosed (s : State) : Option JournalRecord :=
  s.fdc.journal.find? JournalRecord.closed

/-! ### The hold ask (R107) -/

/-- FDC queues a pump's HOLD ASK as an attempt (R107). -/
def State.sendHoldAsk (n attempt : Nat) (s : State) : State :=
  match s.pump? n with
  | none => s
  | some p =>
    match p.sale with
    | none => s
    | some sale =>
      let note := s.lif.serial
      let s := s.modPump n fun p => { p with
        ask := some { seq := p.askSeq, attempt := { attempt := attempt, waitEnd := none, frame := note } } }
      s.queueFrame (holdAskFrame s.me n p.askSeq (sale.card.getD 0) sale.preset)

/-- The hold ask of an ACCOUNT sale begins: the ask sequence rises, and attempt 1 is queued (R107). -/
def State.beginAsk (n : Nat) (s : State) : State :=
  (s.modPump n fun p => { p with askSeq := (p.askSeq + 1) % 256, closedAsk := none }).sendHoldAsk n 1

/-- An attempt of the hold ask ends unanswered (R107). -/
def State.askUnanswered (n : Nat) (s : State) : State :=
  match (s.pump? n).bind Pump.ask with
  | none => s
  | some a => if a.attempt.attempt = 1 then s.sendHoldAsk n 2 else s.endUnused n .noAnswer .cancelled

/-! ### Delivery (R112, R113, R119, R120) -/

/-- Both valves close. -/
def State.shutValves (n : Nat) (s : State) : State :=
  s.modPump n fun p => { p with main := false, slow := false }

/-- The valves on entry to DELIVERING: the slow one, and the main one unless it is barred or V is 50
cl or less (R112). -/
def State.openValves (n : Nat) (s : State) : State :=
  s.modPump n fun p =>
    match p.sale with
    | some x => { p with slow := true, main := !x.barred && 50 < x.cutoff }
    | none => p

/-- Entry to FINISHING: both valves close and the run-on begins (R104, R120). -/
def State.toFinishing (n : Nat) (s : State) : State :=
  (s.shutValves n).modSale n fun x =>
    { x with state := .finishing, timer := some (s.elapsed + Config.runOnUs) }

/-- The flags of the record of a pump's sale changed. -/
def State.flagRecord (n : Nat) (f : SaleFlags → SaleFlags) (s : State) : State :=
  match s.sale? n with
  | some x => s.modRecord x.number fun r => { r with flags := f r.flags }
  | none => s

/-- The cut-off volume V, in cl (R112). -/
def cutoffVolume (preset price : Nat) : Nat := preset * 100 / price

/-- A pulse counts for the sale: the pulse count (R104), the volume and the record's running volume (R113). -/
def State.countPulse (n pulsesPerLitre : Nat) (s : State) : State :=
  match s.sale? n with
  | none => s
  | some x =>
    let k := raiseCount x.pulses 1
    let v := k * 100 / pulsesPerLitre
    (s.modSale n fun x => { x with pulses := k, volume := v }).modRecord x.number fun r =>
      { r with volume := v }

/-- The volume against V after a pulse in DELIVERING or SUSPENDED (R113, R119). -/
def State.checkVolume (n : Nat) (s : State) : State :=
  match s.sale? n with
  | none => s
  | some x =>
    if x.cutoff ≤ x.volume then
      ((s.modSale n fun x => { x with barred := true }).flagRecord n
        fun f => { f with presetReached := true }).toFinishing n
    else if x.cutoff ≤ x.volume + 50 then
      (s.modSale n fun x => { x with barred := true }).modPump n fun p => { p with main := false }
    else s

/-- A lift in AUTHORISED starts the delivery (R111, R112). -/
def State.startDelivery (n : Nat) (c : PumpConfig) (s : State) : State :=
  match s.sale? n with
  | none => s
  | some x =>
    let s := s.modSale n fun x =>
      { x with state := .delivering, pulses := 0, volume := 0, barred := false, timer := none,
               cutoff := cutoffVolume x.preset c.price }
    (s.openValves n).modRecord x.number fun r => { r with startTime := some s.now }

/-! ### Pricing and settlement (R120 to R122) -/

/-- The amount of a volume at a price, rounded to the cent (R120). -/
def saleAmount (volume price : Nat) : Nat := (volume * price + 50) / 100

/-- A record priced (R120): charged is the lesser of the amount and the preset. -/
def JournalRecord.priced (r : JournalRecord) (endTime : Time) : JournalRecord :=
  let amount := saleAmount r.volume r.price
  { r with
    endTime := some endTime
    charged := some (min amount r.preset)
    flags := { r.flags with overrunClamped := r.flags.overrunClamped || decide (r.preset < amount) } }

/-- The sale of a pump closes: its record becomes CLOSED, SALE CLOSED and where UNSETTLED is set SALE
UNSETTLED are flagged, and the pump is IDLE (R120, R122). -/
def State.closeSale (n : Nat) (s : State) : State :=
  match s.sale? n with
  | none => s
  | some x =>
    let unsettled := s.fdc.journal.any fun r => r.number == x.number && r.flags.unsettled
    let s := s.modRecord x.number fun r => { r with closed := true }
    let s := s.modPump n fun p => { p with sale := none, main := false, slow := false }
    (s.setFlag .saleClosed).setFlagIf unsettled .saleUnsettled

/-- The sale closes UNSETTLED (R120 step 5, R121, R123). -/
def State.closeUnsettled (n : Nat) (s : State) : State :=
  (s.flagRecord n fun f => { f with unsettled := true }).closeSale n

/-- FDC queues the SETTLE of a sale as an attempt (R121). -/
def State.sendSettle (n attempt : Nat) (s : State) : State :=
  match s.sale? n with
  | none => s
  | some x =>
    match x.hold with
    | none => s
    | some h =>
      let amount := match lookupKey JournalRecord.number x.number s.fdc.journal with
        | some r => r.charged.getD 0
        | none => 0
      let note := s.lif.serial
      let s := s.modSale n fun x => { x with
        settle := some { attempt := attempt, waitEnd := none, frame := note } }
      s.queueFrame (settleFrame s.me h.home h.hold amount h.occ x.number)

/-- An attempt of the SETTLE ends unanswered (R121). -/
def State.settleUnanswered (n : Nat) (s : State) : State :=
  match (s.sale? n).bind Sale.settle with
  | none => s
  | some a => if a.attempt = 1 then s.sendSettle n 2 else s.closeUnsettled n

/-- The run-on ends: the sale is priced, its load released with what PWB does on it, and it is closed or
settled (R120). -/
def State.finishSale (n : Nat) (s : State) : State :=
  match s.sale? n with
  | none => s
  | some x =>
    let s := s.modRecord x.number fun r => r.priced s.now
    let s := s.releaseLoad n
    match x.card with
    | none => s.closeSale n
    | some _ =>
      if s.onLine then
        (s.modSale n fun x => { x with state := .settling, timer := none }).sendSettle n 1
      else s.closeUnsettled n

/-! ### Line loss and starts (R123, R127) -/

/-- What entry to LINE OFF does to a pump (R123). -/
def State.pumpLineOff (s : State) (n : Nat) : State :=
  match s.pump? n with
  | none => s
  | some p =>
    match p.sale with
    | none => s
    | some x =>
      if x.state = .authorising && p.ask.isSome then s.endUnused n .noLine .cancelled
      else if x.state = .settling then s.closeUnsettled n
      else s

/-- A retained OPEN record closed at a warm start (R127). -/
def JournalRecord.interrupt (r : JournalRecord) (now : Time) : JournalRecord :=
  if r.closed then r
  else
    let r := if r.charged.isSome then r
      else if r.startTime.isSome then r.priced now
      else { r with endTime := some now, volume := 0, charged := some 0 }
    { r with closed := true
             flags := { r.flags with interrupted := true, unsettled := r.flags.unsettled || r.card.isSome } }

/-- What an emergency press does to a configured pump (R116). -/
def State.pumpEmergency (s : State) (n : Nat) : State :=
  match s.sale? n with
  | none => s
  | some x =>
    match x.state with
    | .authorising | .authorised => s.endUnused n .stopped .emergency
    | .delivering | .suspended => (s.flagRecord n fun f => { f with emergency := true }).toFinishing n
    | .finishing | .settling => s

end Sys2Proof.Machine
end

