-- ==== Sys2Proof/Machine/GtcOps.lean ====
section
/-! DEFINITION. GTC's shared operations (06_gate_access.md): the gate mode, eligibility, the PIN
demand, decisions and the latch; and CAP's storing of an edge (07, R159). -/

namespace Sys2Proof.Machine

/-! ### The gate mode and the latch (R130, R141) -/

/-- The gate mode derived from the two marks (R130). -/
def Gtc.mode (g : Gtc) : GateMode :=
  if g.lockdown then .lockdown else if g.night then .night else .day

/-- A release: RELEASED with release end now plus the open time (R141). -/
def State.releaseLatch (s : State) : State :=
  { s with gtc := { s.gtc with release := some (s.elapsed + s.gtc.openTime * 1000000) } }

/-- The night mark set or cleared. -/
def State.setNight (b : Bool) (s : State) : State := { s with gtc := { s.gtc with night := b } }

/-- The lockdown mark set or cleared. -/
def State.setLockdown (b : Bool) (s : State) : State := { s with gtc := { s.gtc with lockdown := b } }

/-! ### Decisions (R132 to R139) -/

/-- A staff entry by its number. -/
def State.staff? (s : State) (n : Nat) : Option Staff := lookupKey Staff.number n s.gtc.staff

/-- A staff entry changed. -/
def State.modStaff (n : Nat) (f : Staff → Staff) (s : State) : State :=
  { s with gtc := { s.gtc with staff := modifyKey Staff.number n f s.gtc.staff } }

/-- The credential a card finds: a staff entry, lowest number first, else a live record (R132). -/
def State.findCard (s : State) (card : Nat) : Option Found :=
  if card = 0 then none
  else
    match s.gtc.staff.find? fun e => e.card == card with
    | some e => some (.staff e.number)
    | none => (s.cardHolder card).map fun r => .occupancy r.number

/-- The record is not eligible by its state, arrival day, grace end or closure due (R132). -/
def State.stateBars (s : State) (r : Occupancy) : Bool :=
  r.closureDue.isSome ||
    match r.state with
    | .booked => r.arrival != s.today
    | .departing =>
      (match r.graceEnd with | some t => t.toMs ≤ s.now.toMs | none => false)
    | .alongside => false

/-- The first cause that refuses an occupancy read (R132). -/
def State.occupancyCause (s : State) (r : Occupancy) (c : Credential) : Option GateCause :=
  if s.gtc.mode = .lockdown then some .mode
  else if s.stateBars r then some .state
  else if r.account.state = .barred then some .barred
  else if c.locked then some .locked
  else none

/-- The cause that refuses a read of what it found (R132, R133). -/
def State.readCause (s : State) (f : Found) : Option GateCause :=
  match f with
  | .staff n =>
    match s.staff? n with
    | some e => if e.locked then some .locked else none
    | none => some .unknown
  | .occupancy n =>
    match s.occ? n with
    | some r =>
      match r.credential with
      | some c => s.occupancyCause r c
      | none => some .unknown
    | none => some .unknown

/-- A waiver runs: its expiry is present and now is before it (R134). -/
def State.waiverRuns (s : State) (w : Option Time) : Bool :=
  match w with | some t => s.now.toMs < t.toMs | none => false

/-- What an eligible read meets (R134). -/
inductive PinDemand where
  | granted | refusedNoPin | asked
  deriving DecidableEq, Repr

/-- The PIN demand of an eligible read (R134). -/
def State.pinDemand (s : State) (f : Found) (suspect : Bool) : PinDemand :=
  match f with
  | .staff n =>
    match s.staff? n with
    | some e =>
      if !suspect && s.waiverRuns e.waiver && s.gtc.mode != .lockdown then .granted else .asked
    | none => .asked
  | .occupancy n =>
    match (s.occ? n).bind Occupancy.credential with
    | some c =>
      if c.pin.isNone then
        if !suspect && s.gtc.mode == .day then .granted else .refusedNoPin
      else if !suspect && s.waiverRuns c.waiver then .granted
      else .asked
    | none => .refusedNoPin

/-- The last decision is recorded; GATE DECIDED is flagged, and GATE REFUSED at a refusal (R137). -/
def State.decide_ (d : Decision) (s : State) : State :=
  (({ s with gtc := { s.gtc with last := some d } } : State).setFlag .gateDecided).setFlagIf
    d.cause.isSome .gateRefused

/-- The decision as it stands now. -/
def State.decision (s : State) (card : Nat) (suspect : Bool) (f : Option Found) (pinAsked : Bool)
    (cause : Option GateCause) : Decision :=
  { card := card, suspect := suspect, found := f, mode := s.gtc.mode, pinAsked := pinAsked,
    cause := cause, time := s.now }

/-- A refused decision releases nothing (R138). -/
def State.refuseRead (card : Nat) (suspect : Bool) (f : Option Found) (pinAsked : Bool)
    (cause : GateCause) (s : State) : State :=
  s.decide_ (s.decision card suspect f pinAsked (some cause))

/-- The grant brings a BOOKED record ALONGSIDE where arrive on entry is set and its arrival day is
today (R139 step 1, R29). -/
def State.arriveOnGrant (f : Found) (s : State) : State :=
  match f with
  | .occupancy n =>
    match s.occ? n with
    | some r =>
      if r.state = .booked && r.arrival = s.today && s.gtc.arriveOnEntry then s.toAlongside n else s
    | none => s
  | .staff _ => s

/-- A granted decision (R139). -/
def State.grantRead (card : Nat) (suspect : Bool) (f : Found) (pinAsked : Bool) (s : State) : State :=
  let s := (s.arriveOnGrant f).releaseLatch
  s.decide_ (s.decision card suspect (some f) pinAsked none)

/-- GTC sends the reader its frame of 2 bytes: 1 for PIN wanted, 0 for none wanted (R213). -/
def State.tellReader (wanted : Bool) (s : State) : State :=
  { s with gtc := { s.gtc with readerOut := [0xC8#8, if wanted then 1#8 else 0#8] } }

/-- A PIN entry opens with the read held (R135). -/
def State.openEntry (card : Nat) (suspect : Bool) (f : Found) (s : State) : State :=
  let e : PinEntry :=
    { found := f, card := card, suspect := suspect, digits := [],
      timeout := s.elapsed + Config.pinTimeoutUs }
  ({ s with gtc := { s.gtc with entry := some e } } : State).tellReader true

/-- The PIN entry closes: the buffer empties and the state returns to IDLE (R135, R136). -/
def State.closeEntry (s : State) : State :=
  ({ s with gtc := { s.gtc with entry := none } } : State).tellReader false

/-- A card read taken in IDLE (R132 to R134). -/
def State.decideRead (card : Nat) (suspect : Bool) (s : State) : State :=
  match s.findCard card with
  | none => s.refuseRead card suspect none false .unknown
  | some f =>
    match s.readCause f with
    | some c => s.refuseRead card suspect (some f) false c
    | none =>
      match s.pinDemand f suspect with
      | .granted => s.grantRead card suspect f false
      | .refusedNoPin => s.refuseRead card suspect (some f) false .noPin
      | .asked => s.openEntry card suspect f

/-- The digits a judged entry is compared with, or the cause that refuses it first (R136). -/
def State.judgePin (s : State) (e : PinEntry) : Except GateCause (List Nat) :=
  match e.found with
  | .staff n =>
    match s.staff? n with
    | some st => if st.locked then .error .locked else .ok st.pin
    | none => .error .changed
  | .occupancy n =>
    match s.occ? n with
    | none => .error .changed
    | some r =>
      match r.credential with
      | none => .error .changed
      | some c =>
        if c.card != e.card then .error .changed
        else
          match s.occupancyCause r c with
          | some cause => .error cause
          | none => match c.pin with | some p => .ok p | none => .error .changed

/-- A wrong PIN of a staff entry is counted: at 3 it becomes LOCKED (R129). -/
def Staff.wrongPin (e : Staff) : Staff :=
  let k := min 3 (e.count + 1)
  { e with count := k, locked := e.locked || k == 3 }

/-- The outcome of a PIN is told to the credential's owner (R47, R129). -/
def State.pinOutcome (f : Found) (correct : Bool) (s : State) : State :=
  match f with
  | .staff n =>
    if correct then s.modStaff n fun e => { e with count := 0, waiver := s.newWaiver }
    else
      let locks := match s.staff? n with | some e => !e.locked && e.wrongPin.locked | none => false
      (s.modStaff n Staff.wrongPin).setFlagIf locks .lockout
  | .occupancy n => if correct then s.correctPin n else s.wrongPin n

/-- The credential is LOCKED. -/
def State.foundLocked (s : State) (f : Found) : Bool :=
  match f with
  | .staff n => match s.staff? n with | some e => e.locked | none => false
  | .occupancy n =>
    match (s.occ? n).bind Occupancy.credential with | some c => c.locked | none => false

/-- An ENTER with digits judges the entry (R136). -/
def State.judgeEntry (e : PinEntry) (s : State) : State :=
  let s := s.closeEntry
  match s.judgePin e with
  | .error c => s.refuseRead e.card e.suspect (some e.found) true c
  | .ok pin =>
    if e.digits = pin then (s.pinOutcome e.found true).grantRead e.card e.suspect e.found true
    else
      let s := s.pinOutcome e.found false
      s.refuseRead e.card e.suspect (some e.found) true
        (if s.foundLocked e.found then .locked else .wrongPin)

/-- A key kept in an open entry restarts its timeout (R135). -/
def State.editEntry (e : PinEntry) (digits : List Nat) (s : State) : State :=
  let e : PinEntry := { e with digits := digits, timeout := s.elapsed + Config.pinTimeoutUs }
  { s with gtc := { s.gtc with entry := some e } }

/-! ### Capture (R158, R159) -/

/-- The eight edges (R158). -/
inductive Edge where
  | doorOpen | doorShut | lift1 | hang1 | lift2 | hang2 | press | released
  deriving DecidableEq, Repr

/-- An edge's capture record. -/
def Cap.get (c : Cap) : Edge → Capture
  | .doorOpen => c.doorOpen | .doorShut => c.doorShut | .lift1 => c.lift1 | .hang1 => c.hang1
  | .lift2 => c.lift2 | .hang2 => c.hang2 | .press => c.press | .released => c.released

/-- An edge's capture record replaced. -/
def Cap.set (c : Cap) (e : Edge) (r : Capture) : Cap :=
  match e with
  | .doorOpen => { c with doorOpen := r } | .doorShut => { c with doorShut := r }
  | .lift1 => { c with lift1 := r } | .hang1 => { c with hang1 := r }
  | .lift2 => { c with lift2 := r } | .hang2 => { c with hang2 := r }
  | .press => { c with press := r } | .released => { c with released := r }

/-- The edge of a channel 1-4 and an edge code, 1 rising, 2 falling (R158, R160). -/
def edgeOf (channel edge : Nat) : Option Edge :=
  match channel, edge with
  | 1, 1 => some .doorOpen | 1, 2 => some .doorShut | 2, 1 => some .lift1 | 2, 2 => some .hang1
  | 3, 1 => some .lift2 | 3, 2 => some .hang2 | 4, 1 => some .press | 4, 2 => some .released
  | _, _ => none

/-- What an edge stores in its capture record, and whether it flags CAPTURE TAKEN (R159). -/
def Capture.store (c : Capture) (t : Time) : Capture × Bool :=
  if !c.single then ({ c with time := some t }, false)
  else if !c.mark then ({ c with time := some t, mark := true }, true)
  else ({ c with missed := min 255 (c.missed + 1) }, false)

/-- CAP stamps an edge with station time and stores it by its mode (R158, R159). -/
def State.capture (e : Edge) (s : State) : State :=
  let r := (s.cap.get e).store s.now
  ({ s with cap := s.cap.set e r.1 } : State).setFlagIf r.2 .captureTaken

end Sys2Proof.Machine
end

