-- ==== Sys2Proof/Machine/SchOps.lean ====
section
/-! DEFINITION. SCH's shared operations (07_station_time_schedules_and_capture.md): arming, firing,
and the steps of the clock. -/

namespace Sys2Proof.Machine

/-- A schedule entry changed. -/
def State.modEntry (place : Nat) (f : ScheduleEntry → ScheduleEntry) (s : State) : State :=
  { s with sch := { s.sch with places := modifyKey ScheduleEntry.place place f s.sch.places } }

/-- A firing, one event for the block whose state it acts on (R155). -/
def State.fire (k : ScheduleKind) (s : State) : State :=
  { s with sch := { s.sch with firings := s.sch.firings ++ [k] } }

/-- A firing of a kind is taken: it stands no more among those not yet taken. -/
def State.takeFiring (k : ScheduleKind) (s : State) : State :=
  match takeFirst (· == k) s.sch.firings with
  | some (_, rest) => { s with sch := { s.sch with firings := rest } }
  | none => s

/-- An entry given a next due, or EXPIRED with SCHEDULE EXPIRED when it lies above 4,294,967,295 s
(R153, R154, R156). -/
def State.setDue (place due : Nat) (s : State) : State :=
  if due < Config.secModulus then
    s.modEntry place fun e => { e with state := .armed, due := some due }
  else
    (s.modEntry place fun e => { e with state := .expired, due := none }).setFlag .scheduleExpired

/-- An entry spent: EXPIRED with next due absent. -/
def State.expire (place : Nat) (s : State) : State :=
  s.modEntry place fun e => { e with state := .expired, due := none }

/-- The first time of `from_`, `from_` + cycle, ... at or after `ms` milliseconds of station time. -/
def firstNotBefore (from_ cycle ms : Nat) : Nat :=
  if ms ≤ from_ * 1000 then from_
  else from_ + (ms - from_ * 1000 + cycle * 1000 - 1) / (cycle * 1000) * cycle

/-- The first time of the sequence later than `ms` milliseconds of station time. -/
def firstAfter (from_ cycle ms : Nat) : Nat := firstNotBefore from_ cycle (ms + 1)

/-- One IDLE entry is armed against the station time of the JOIN acceptance (R153); the milliseconds of
now are dropped from now + cycle (log 21). -/
def State.armEntry (s : State) (e : ScheduleEntry) : State :=
  if e.state != .idle then s
  else
    let now := s.now.toMs
    let startMs := e.start * 1000
    if e.check then
      if now ≤ startMs && startMs ≤ now + Config.plausibleSec * 1000 then s.setDue e.place e.start
      else
        let s := s.fire e.kind
        if e.cycle = 0 then s.expire e.place else s.setDue e.place (s.sch.sec + e.cycle)
    else if now ≤ startMs then s.setDue e.place e.start
    else if e.cycle = 0 then (s.expire e.place).setFlag .scheduleExpired
    else s.setDue e.place (firstNotBefore e.start e.cycle now)

/-- Every IDLE entry is armed, each by itself (R153). -/
def State.armAll (s : State) : State := s.sch.places.foldl State.armEntry s

/-- A forward step passes an ARMED entry: it fires once, and its next due becomes the first time of its
sequence, start + k·cycle, later than the new time (R152, R156). -/
def State.passEntry (oldMs : Nat) (s : State) (e : ScheduleEntry) : State :=
  match e.state, e.due with
  | .armed, some due =>
    if oldMs < due * 1000 && due * 1000 ≤ s.now.toMs then
      let s := s.fire e.kind
      if e.cycle = 0 then s.expire e.place
      else s.setDue e.place (firstAfter e.start e.cycle s.now.toMs)
    else s
  | _, _ => s

/-- The clock takes the values given; a forward step is applied to the schedule table and lapses at
once every hold it passes, which OCC takes past UNCONFIGURED (R43, R150, R156, R201). -/
def State.stepClock (sec ms : Nat) (s : State) : State :=
  let old := s.now.toMs
  let s : State := { s with sch := { s.sch with sec := sec, ms := ms, us := 0 } }
  if old < s.now.toMs then
    let s := s.sch.places.foldl (State.passEntry old) s
    if s.unconfigured then s else s.lapseDue
  else s

/-- A setting of the clock by SET CLOCK or TIME: the step, and CLOCK SET is flagged (R148, R149). -/
def State.setClock (sec ms : Nat) (s : State) : State := (s.stepClock sec ms).setFlag .clockSet

/-- Time runs on to the wrap of the seconds from 4,294,967,295 to 0, a backward step: no entry fires
and every next due stays (R147, R150, R156). -/
def State.wrapClock (s : State) : State :=
  s.advance (Config.secModulus * 1000000 - s.sch.micros)

end Sys2Proof.Machine
end

