-- ==== Sys2Proof/Machine/SpcOps.lean ====
section
/-! DEFINITION. SPC's shared operations (04_service_points_outlets_water_and_metering.md): links,
what an occupancy commands, the poll, metering, trips, post faults and the final reading. -/

namespace Sys2Proof.Machine

/-! ### Posts and points (R74) -/

/-- The post of a point: the least whole number not below p / 2 (R74). -/
def postOf (p : Nat) : Nat := (p + 1) / 2

/-- The points of a post: side A odd, side B even (R74). -/
def sideA (post : Nat) : Nat := 2 * post - 1
def sideB (post : Nat) : Nat := 2 * post

/-- A post of a number. -/
def State.post? (s : State) (n : Nat) : Option Post := lookupKey Post.number n s.spc.posts

/-- A post changed. -/
def State.modPost (n : Nat) (f : Post → Post) (s : State) : State :=
  { s with spc := { s.spc with posts := modifyKey Post.number n f s.spc.posts } }

/-- The post of a point is DOWN (R85). -/
def State.postDown (s : State) (p : Nat) : Bool :=
  match s.post? (postOf p) with
  | some q => q.state == .down
  | none => false

/-- The posts with a configured point, in post-number order (R74). -/
def State.configuredPosts (s : State) : List Nat :=
  ((List.range 16).map (· + 1)).filter fun n =>
    s.spc.points.any fun p => postOf p.number == n

/-- The tariff set in force (R88, R151). -/
def State.tariff (s : State) : Tariff := if s.sch.tariffSet = 1 then s.spc.tariff1 else s.spc.tariff2

/-! ### Links and commands (R77 to R80) -/

/-- A fresh meter link (R77). -/
def Link.fresh (occ point : Nat) : Link :=
  { occ := occ, point := point, energy := 0, water := 0, energyRes := 0, waterRes := 0 }

/-- The occupancy's link is opened if it has none, and made the point's charging link (R78). -/
def State.chargeLink (n occ : Nat) (s : State) : State :=
  let s : State :=
    if (s.link? occ).isSome then s
    else { s with spc := { s.spc with links := insertKey Link.occ (Link.fresh occ n) s.spc.links } }
  s.modPoint n fun p => { p with charging := some occ }

/-- An ENERGISE demand is submitted for a point at the profile's load figure, or the outlet becomes
FAULT-OFF when its post is DOWN (R78, R80, R93). -/
def State.callEnergise (n : Nat) (r : Occupancy) (s : State) : State :=
  if s.postDown n then s.setOutlet n .faultOff
  else
    match r.profile with
    | some q => (s.setOutlet n .off).submitEnergise n q.figure
    | none => s

/-- SPC acts on outlet and tap for the occupancy charged at a point, by its state and account at this
moment (R78, R91); one no longer ALONGSIDE commands nothing (log 16). -/
def State.commandArrival (n : Nat) (r : Occupancy) (s : State) : State :=
  if r.state = .alongside then
    if r.account.state = .barred then s.setOutlet n .heldOff
    else (s.callEnergise n r).followTap n
  else s

/-- An occupancy comes to its point (R78): it is charged and acted for, or marked arrival waiting. It is acted
for in JOINING too, a retained record that ARRIVE or the gate brings alongside included (R139, log 65). -/
def State.spcArrive (n : Nat) (r : Occupancy) (s : State) : State :=
  match s.point? n with
  | none => s
  | some p =>
    if p.charging.isNone || p.charging = some r.number then
      (s.chargeLink n r.number).commandArrival n r
    else if p.arrivals.contains r.number then s
    else s.modPoint n fun p => { p with arrivals := p.arrivals ++ [r.number] }

/-- OCC is told that no final reading is awaited, and tests the record (R31, R79). -/
def State.clearAwaiting (occ : Nat) (s : State) : State :=
  (s.modOcc occ fun r => { r with awaiting := false }).testRemoval occ

/-- A fresh final-reading mark at a point (R91, R100). -/
def State.markFinal (n : Nat) (s : State) : State :=
  let s := s.stamp
  s.modPoint n fun p => { p with finalMark := some { moment := s.moments, time := s.now } }

/-- The outlet of a departing occupancy becomes OFF and PWB is told; the tap closes, and the moment of entry `m`
is the point's final-reading mark, a mark it has from the occupancy's turn apart (R79, R91, log 43). The outlet
leaves ON, the shed list and the queue here, and not at OCC's change (R75, log 69). -/
def State.spcDepart (n occ : Nat) (m : FinalMark) (s : State) : State :=
  match s.point? n with
  | none => s
  | some p =>
    if p.charging = some occ then
      ((s.outletOff n .off).closeTap n).modPoint n fun p => { p with finalMark := some (p.finalMark.getD m) }
    else if p.arrivals.contains occ then
      (s.modPoint n fun p => { p with
        arrivals := p.arrivals.filter (· != occ)
        retained := p.retained.filter fun x => x.occ != occ }).clearAwaiting occ
    else s

/-- The outlet of a barred account is held off and its tap closed, while its occupancy is ALONGSIDE and charged
at the point; a DEPARTING one commands nothing (R37, R80). An outlet OFF with no demand, which R80 does not
name, is held off too, as R37 has it (log 64). It leaves ON, the shed list and the queue here, and not at OCC's
change (R75, log 69). -/
def State.spcBar (n : Nat) (r : Occupancy) (s : State) : State :=
  match s.point? n with
  | none => s
  | some p =>
    if p.charging = some r.number && r.state = .alongside then
      let s :=
        if p.outlet = .on || p.outlet = .shed || (p.outlet = .off && s.demandQueued n) then
          s.outletOff n .heldOff
        else if p.outlet = .off then s.setOutlet n .heldOff
        else s
      s.closeTap n
    else s

/-- The outlet and tap of an unbarred account come back, while its occupancy is ALONGSIDE and not
BARRED again (R80, R75). -/
def State.spcUnbar (n : Nat) (r : Occupancy) (s : State) : State :=
  match s.point? n with
  | none => s
  | some p =>
    if p.charging = some r.number && r.state = .alongside && r.account.state != .barred then
      (if p.outlet = .heldOff then s.callEnergise n r else s).followTap n
    else s

/-- Taking a notice: only the earliest one outstanding of its occupancy can be taken (log 5), and none
in UNCONFIGURED (R100). -/
def State.noticeEvent (k : NoticeKind) (occ : Nat)
    (body : FinalMark → Nat → Occupancy → State → State)
    (s : State) : State :=
  s.event fun s =>
    match takeFirst (fun x => x.occ == occ) s.occ.notices with
    | some (x, rest) =>
      if x.kind = k && !s.unconfigured then
        let s : State := { s with occ := { s.occ with notices := rest } }
        match s.occ? occ with
        | some r => match s.berthPoint r.berth with | some n => body x.mark n r s | none => s
        | none => s
      else s
    | none => s

/-! ### The poll (R82, R212) -/

/-- A side's command as its outlet and tap stand (R82, R212), with code 0 and single phase where no
occupancy is charged (log 42); a side with no configured point is sent as 0. -/
def State.sideCommand (s : State) (n : Nat) : Byte :=
  match s.point? n with
  | some p => commandByte (p.outlet == .on) ((s.charged n).bind Occupancy.profile) p.tapOpen
  | none => 0

/-- The outlet of a side is TRIPPED. -/
def State.sideTripped (s : State) (n : Nat) : Bool :=
  match s.point? n with
  | some p => p.outlet == .tripped
  | none => false

/-- The next poll of the cycle is sent, or the cycle is at its end (R82). -/
def State.nextPoll (s : State) : State :=
  match s.spc.toPoll with
  | [] => { s with spc := { s.spc with poll := none } }
  | n :: r =>
    let off := s.unconfigured
    let s := s.stamp
    { s with spc := { s.spc with
        toPoll := r
        poll := some
          { post := n, sentAt := s.elapsed, moment := s.moments
            cmdA := if off then 0 else s.sideCommand (sideA n)
            cmdB := if off then 0 else s.sideCommand (sideB n)
            trippedA := s.sideTripped (sideA n), trippedB := s.sideTripped (sideB n)
            allOff := off } } }

/-- A poll cycle starts: each configured post once in post-number order, or the posts 1-16 in
UNCONFIGURED (R82). -/
def State.startCycle (s : State) : State :=
  let posts := if s.unconfigured then (List.range 16).map (· + 1) else s.configuredPosts
  ({ s with spc := { s.spc with toPoll := posts, nextCycle := s.spc.nextCycle + Config.cycleUs } } :
    State).nextPoll

/-! ### Metering (R86 to R90) -/

/-- The plausibility limit of an energy delta (R87). -/
def energyLimit (f e : Nat) : Nat := (f * 250 * e * 2 + 3599999) / 3600000 + 10

/-- The advance of a 32-bit counter (R87, R89). -/
def counterDelta (base new : Nat) : Nat := (new + 2 ^ 32 - base % 2 ^ 32) % 2 ^ 32

/-- A link changed. -/
def State.modLink (occ : Nat) (f : Link → Link) (s : State) : State :=
  { s with spc := { s.spc with links := modifyKey Link.occ occ f s.spc.links } }

/-- An energy delta is charged to the point's charging link (R88), its total wrapping past its range
(R77, log 54); with none it is discarded. -/
def State.chargeEnergy (n d : Nat) (s : State) : State :=
  match ((s.point? n).bind Point.charging).bind s.link? with
  | none => s
  | some l =>
    let t := l.energyRes + d * s.tariff.energy
    (s.modLink l.occ fun l => { l with
      energy := raiseCount l.energy d, energyRes := t % 1000 }).debit l.occ (t / 1000)

/-- A water delta is charged to the point's charging link (R89), its total as the energy's (log 54). -/
def State.chargeWater (n w : Nat) (s : State) : State :=
  match ((s.point? n).bind Point.charging).bind s.link? with
  | none => s
  | some l =>
    let t := l.waterRes + w * s.tariff.water
    (s.modLink l.occ fun l => { l with
      water := raiseCount l.water w, waterRes := t % 1000 }).debit l.occ (t / 1000)

/-- The energy counter of a side at an acceptance (R87). The elapsed time since the last one is brought to
whole milliseconds by dropping the microseconds below (R83, log 55). -/
def State.meterEnergy (n counter : Nat) (s : State) : State :=
  match s.point? n with
  | none => s
  | some p =>
    match p.energyBase with
    | none => s
    | some base =>
      let d := counterDelta base counter
      let e := match p.lastAccept with | some t => (s.elapsed - t) / 1000 | none => 0
      if d = 0 then s
      else if p.interval = 0 then s.setFlag .implausible
      else if energyLimit p.interval e < d then s.setFlag .implausible
      else s.chargeEnergy n d

/-- A leak: not charged, flagged, and alarmed at the first of a leak mark (R90). -/
def State.leak (n litres : Nat) (s : State) : State :=
  match s.point? n with
  | none => s
  | some p =>
    let s := s.setFlag .leak
    if p.leakMark then s
    else (s.modPoint n fun p => { p with leakMark := true }).alarm .leak n litres

/-- The water counter of a side at an acceptance (R89). -/
def State.meterWater (n counter : Nat) (s : State) : State :=
  match s.point? n with
  | none => s
  | some p =>
    match p.waterBase with
    | none => s
    | some base =>
      let w := counterDelta base counter
      if w = 0 then s.modPoint n fun p => { p with leakMark := false }
      else if !p.tapMark then s.leak n w
      else if 200 < w then s.setFlag .implausible
      else s.chargeWater n w

/-- The present load figure of an outlet in G: 0 when it is not ON (R95). -/
def State.outletFigure (s : State) (n : Nat) : Nat :=
  match s.pwb.energised.find? (fun e => e.point == n) with
  | some e => e.figure
  | none => 0

/-- The report's counters become the bases, its moment the last acceptance, and the interval figure
and tap-open mark start again (R83, R86). -/
def State.recordBases (n energy water : Nat) (s : State) : State :=
  s.modPoint n fun p => { p with
    energyBase := some energy, waterBase := some water
    lastAccept := some s.elapsed, lastTime := some s.now
    interval := if p.outlet = .on then s.outletFigure n else 0
    tapMark := p.tapOpen }

/-- The trip flag of a side (R92): an ON outlet becomes TRIPPED; a good report answering a poll sent
while the outlet was TRIPPED acknowledges the trip, whatever the outlet is by now. -/
def State.takeTrip (n : Nat) (flag wasTripped : Bool) (s : State) : State :=
  match s.point? n with
  | none => s
  | some p =>
    if p.outlet = .on && flag then
      ((s.modPoint n fun p => { p with tripAck := false }).outletOff n .tripped).setFlag .trip
    else if wasTripped then
      s.modPoint n fun p => { p with tripAck := true }
    else s

/-- SPC acts for an occupancy whose turn at its point has come (R91, R78). In JOINING a record held back since
a start draws no current: its outlet is HELD-OFF where the account is BARRED, else it stays OFF until ON LINE,
and its tap follows at once (R202, R76, log 51). -/
def State.takeTurn (n : Nat) (r : Occupancy) (s : State) : State :=
  if s.lif.state = .joining && s.spc.heldBack.contains r.number then
    if r.state = .alongside then
      if r.account.state = .barred then s.setOutlet n .heldOff else s.followTap n
    else s
  else s.commandArrival n r

/-- The charging link passes to the first occupancy marked arrival waiting, and its turn has come (R91). -/
def State.nextArrival (n : Nat) (s : State) : State :=
  match (s.point? n).map Point.arrivals with
  | some (occ :: rest) =>
    let s := s.modPoint n fun p => { p with arrivals := rest }
    match s.occ? occ with
    | none => s
    | some r =>
      let s := (s.chargeLink n occ).takeTurn n r
      if r.state = .departing then s.markFinal n else s
  | _ => s

/-- The final readings of the retained DEPARTING records that wait at a point: the first good report
answering a poll sent after their marks (R91, R100). Each loses its waiting mark and is told to OCC. -/
def State.takeRetained (n pollMoment : Nat) (s : State) : State :=
  match s.point? n with
  | none => s
  | some p =>
    let due := (p.retained.filter fun x => x.mark.moment < pollMoment).map RetainedFinal.occ
    let s := s.modPoint n fun p => { p with
      retained := p.retained.filter fun x => !due.contains x.occ
      arrivals := p.arrivals.filter fun o => !due.contains o }
    due.foldl (fun s o => s.clearAwaiting o) s

/-- The final reading of the DEPARTING occupancy charged at a point: the first good report answering a
poll sent after the point's final-reading mark (R91). -/
def State.takeMarked (n pollMoment : Nat) (m : FinalMark) (r : Occupancy) (s : State) : State :=
  if m.moment < pollMoment && r.state = .departing then
    let s := s.modPoint n fun p => { p with finalMark := none, charging := none }
    (s.clearAwaiting r.number).nextArrival n
  else s

/-- The final reading at a point. A point that names no charging link, its occupancy having been removed,
has no reading to take, and the next arrival comes to it (R91, log 44). -/
def State.takeFinal (n pollMoment : Nat) (s : State) : State :=
  match s.point? n with
  | none => s
  | some p =>
    if p.charging.isNone then s.nextArrival n
    else
      match p.finalMark, s.charged n with
      | some m, some r => s.takeMarked n pollMoment m r
      | _, _ => s

/-- A good report's steps for one configured side (R83). -/
def State.acceptSide (n energy water : Nat) (trip wasTripped : Bool) (pollMoment : Nat) (s : State) : State :=
  if (s.point? n).isSome then
    (((((s.takeTrip n trip wasTripped).meterEnergy n energy).meterWater n water).recordBases n energy
      water).takeRetained n pollMoment).takeFinal n pollMoment
  else s

/-- A FAULT-OFF outlet takes a new state as its post returns to GOOD (R85). -/
def State.returnOutlet (s : State) (n : Nat) : State :=
  match s.point? n with
  | none => s
  | some p =>
    if p.outlet = .faultOff then
      match s.charged n with
      | some r =>
        if r.state = .alongside then
          if r.account.state = .barred then s.setOutlet n .heldOff else s.callEnergise n r
        else s.setOutlet n .off
      | none => s.setOutlet n .off
    else s

/-- A good report sets the bad count to 0 and returns a post in FAULT or DOWN to GOOD, its FAULT-OFF outlets
taking their new states side A first (R83, R85, log 50). -/
def State.postGood (n : Nat) (s : State) : State :=
  match s.post? n with
  | none => s
  | some q =>
    let s := s.modPost n fun q => { q with state := .good, bad := 0, faultStart := none }
    if q.state = .good then s else (s.returnOutlet (sideA n)).returnOutlet (sideB n)

/-- A bad poll: the count rises to 5 at most, and at the fifth a GOOD post becomes FAULT (R84). -/
def State.badPoll (n : Nat) (s : State) : State :=
  match s.post? n with
  | none => s
  | some q =>
    let bad := min 5 (q.bad + 1)
    if q.state = .good && bad = 5 then
      ((s.modPost n fun q => { q with state := .fault, bad := bad, faultStart := some s.elapsed }).setFlag
        .postFault).alarm .postFault n 0
    else s.modPost n fun q => { q with bad := bad }

/-- A good report is accepted: side A whole, side B whole (log 50), then the post (R83). -/
def State.acceptReport (poll : OpenPoll) (r : PostReport) (s : State) : State :=
  let n := poll.post
  let s := s.acceptSide (sideA n) r.energyA.toNat r.waterA.toNat (r.trips.getLsbD 0) poll.trippedA poll.moment
  let s := s.acceptSide (sideB n) r.energyB.toNat r.waterB.toNat (r.trips.getLsbD 1) poll.trippedB poll.moment
  s.postGood n

/-- An outlet of a post that becomes DOWN; PWB goes on once both outlets are out (R85, R75). -/
def State.faultOutlet (s : State) (n : Nat) : State :=
  match s.point? n with
  | none => s
  | some p =>
    if p.outlet = .on || p.outlet = .shed || (p.outlet = .off && s.demandQueued n) then
      s.outletOut n .faultOff
    else s

/-! ### Starts (R100) -/

/-- The final-reading mark of a retained DEPARTING record that waits at a point (R100). -/
def State.markRetained (n occ : Nat) (s : State) : State :=
  let s := s.stamp
  s.modPoint n fun p => { p with
    retained := p.retained ++ [{ occ := occ, mark := { moment := s.moments, time := s.now } }] }

/-- Links and marks for one retained record at the JOIN acceptance (R100); an ALONGSIDE one that must wait
for its point is held back (R202, log 51). -/
def State.retainLink (s : State) (occ : Nat) : State :=
  match s.occ? occ with
  | none => s
  | some r =>
    if r.state = .booked then s
    else
      match s.berthPoint r.berth with
      | none => s
      | some n =>
        match s.point? n with
        | none => s
        | some p =>
          if p.charging.isNone then
            let s := s.chargeLink n occ
            if r.state = .departing then s.markFinal n
            else if r.account.state = .barred then s.setOutlet n .heldOff else s
          else
            let s := s.modPoint n fun p => { p with arrivals := p.arrivals ++ [occ] }
            if r.state = .departing then s.markRetained n occ
            else { s with spc := { s.spc with heldBack := s.spc.heldBack ++ [occ] } }

/-- The ON LINE step for one retained record (R100): R78 where its outlet is still OFF with no demand. -/
def State.retainEnergise (s : State) (occ : Nat) : State :=
  match s.occ? occ with
  | none => s
  | some r =>
    match s.berthPoint r.berth with
    | none => s
    | some n =>
      match s.point? n with
      | none => s
      | some p =>
        if r.state = .alongside && p.charging = some occ && r.account.state != .barred &&
            p.outlet = .off && !s.demandQueued n then
          s.commandArrival n r
        else s

/-- The first ON LINE after a start: outlets of retained records, in occupancy-number order (R100, R202). -/
def State.firstOnLine (s : State) : State :=
  if s.spc.energiseDue then
    let s : State := { s with spc := { s.spc with energiseDue := false, heldBack := [] } }
    (keysOf Occupancy.number s.occ.records).foldl State.retainEnergise s
  else s

end Sys2Proof.Machine
end

