-- ==== Sys2Proof/Machine/LineOps.lean ====
section
/-! DEFINITION. What reaches every block: LIF's changes of station state (08_the_pier_line.md), the
acceptance of JOIN and the starts (10_configuration_and_start_up.md). -/

namespace Sys2Proof.Machine

/-! ### The station state (R170 to R176) -/

/-- Entry to JOINING: the failed-send count becomes 0 and one JOIN is queued (R170). -/
def State.enterJoining (k : JoinKind) (s : State) : State :=
  let s : State := { s with lif := { s.lif with
    state := .joining, failed := 0, listenEnd := none, silenceEnd := none } }
  s.queueFrame (joinFrame s.me s.settings.baseShare k)

/-- The blocks act on the notice of LINE OFF: BAL, PWB, then FDC's pumps (R175, log 24). -/
def State.noticeLineOff (s : State) : State :=
  (s.roundsLineOff.loansLineOff.pumpLineOff 1).pumpLineOff 2

/-- The transmit queue is emptied, each frame reported FAILED (R175 step 4). -/
def State.failQueued (s : State) : State :=
  let frames := s.lif.tx
  let s : State := { s with lif := { s.lif with tx := [], attempt := none } }
  frames.foldl (fun s f => s.giveReport f false) s

/-- Entry to LINE OFF with its five steps (R175); the loop-backs not yet taken go with the receive
queue, since the station takes no frame from here on (R172, log 24). -/
def State.enterLineOff (s : State) : State :=
  let s : State := { s with lif := { s.lif with
    state := .lineOff, attempt := none, listenEnd := none, rx := [], loop := [] } }
  let s := ((s.setFlag .lineLost).noticeLineOff).failQueued
  { s with lif := { s.lif with silenceEnd := some (s.elapsed + Config.silenceUs) } }

/-- Entry to ON LINE at the end of the listen (R170, R202). -/
def State.enterOnLine (s : State) : State :=
  let s : State := { s with lif := { s.lif with state := .onLine, listenEnd := none } }
  (s.setFlag .lineUp).firstOnLine

/-! ### The acceptance of JOIN (R199 to R201) -/

/-- The details of a CONFIG refusal (R199). -/
inductive JoinFault where
  | strap | noBerths | noPoint | sharedPoint | pumpNumber | noDock
  deriving DecidableEq, Repr

/-- A detail's code: its place in R199's table. -/
def JoinFault.code : JoinFault → Nat
  | .strap => 1 | .noBerths => 2 | .noPoint => 3 | .sharedPoint => 4 | .pumpNumber => 5 | .noDock => 6

/-- The lowest number of a list. -/
def lowest : List Nat → Option Nat
  | [] => none
  | n :: r => some (match lowest r with | some m => min n m | none => n)

/-- The berths that name a point with no POINT section. -/
def State.berthsNoPoint (s : State) : List Nat :=
  (s.bal.berths.filter fun b =>
    match b.point with
    | some p => (s.point? p).isNone
    | none => false).map Berth.number

/-- The points that two berths name. -/
def State.sharedPoints (s : State) : List Nat :=
  let named := s.bal.berths.filterMap Berth.point
  named.filter fun p => 1 < (named.filter (· == p)).length

/-- The pump numbers a PUMP section has been written for, stray ones included. -/
def State.pumpsWritten (s : State) : List Nat :=
  (if s.fdc.pump1.config.isSome then [1] else []) ++
  (if s.fdc.pump2.config.isSome then [2] else []) ++
  s.fdc.straySections.map PumpSection.pump

/-- The first check of R199 that fails, with its number. -/
def State.joinFault (s : State) : Option (JoinFault × Nat) :=
  if s.straps.station = 0 then some (.strap, 0)
  else if s.bal.berths.isEmpty then some (.noBerths, 0)
  else
    match lowest s.berthsNoPoint with
    | some b => some (.noPoint, b)
    | none =>
      match lowest s.sharedPoints with
      | some p => some (.sharedPoint, p)
      | none =>
        match lowest (s.fdc.straySections.map PumpSection.pump) with
        | some n => some (.pumpNumber, n)
        | none =>
          if s.straps.dock then none
          else (lowest s.pumpsWritten).map fun n => (.noDock, n)

/-- A retained profile fitted to its berth's point (R201.2). -/
def fitProfile (q : Option Profile) (p : Option Point) : Option Profile :=
  match p with
  | none => none
  | some p =>
    match q with
    | none => some { rating := 0, three := false, tapOpen := p.tapFitted }
    | some q => some { rating := min q.rating p.maxRating, three := q.three && p.three,
                       tapOpen := q.tapOpen && p.tapFitted }

/-- A retained record meets the new configuration (R201 steps 1 and 2): an orphan is marked, loses its
holds and is tested for removal; any other has its profile fitted. -/
def State.meetRecord (s : State) (n : Nat) : State :=
  match s.occ? n with
  | none => s
  | some r =>
    if (s.berth? r.berth).isNone then
      let s := s.modOcc n fun r => { r with closureDue := some .orphan, holds := [] }
      ((s.setFlagIf (!r.holds.isEmpty) .holdLapsed).setFlag .orphanMarked).testRemoval n
    else
      s.modOcc n fun r => { r with profile := fitProfile r.profile ((s.berthPoint r.berth).bind s.point?) }

/-- OCC's meeting of the retained records, in number order: each is met, and then its holds that fell due
in UNCONFIGURED lapse (R201). -/
def State.meetRecords (s : State) : State :=
  (keysOf Occupancy.number s.occ.records).foldl (fun s n => (s.meetRecord n).lapseRecord n) s

/-- The JOIN's start kind by the kind of the last start (R170). -/
def StartKind.joinKind : StartKind → JoinKind
  | .cold => .cold
  | .warm => .warm

/-- Polling of the configured posts begins in place of the all-off cycle (R200, log 18). -/
def State.beginPolling (s : State) : State :=
  ({ s with spc := { s.spc with nextCycle := s.elapsed } } : State).startCycle

/-- The acceptance of JOIN, block by block (R200): LIF, SCH, OCC, then SPC. -/
def State.acceptJoin (s : State) : State :=
  let s := (s.enterJoining s.startKind.joinKind).armAll.meetRecords
  ((keysOf Occupancy.number s.occ.records).foldl State.retainLink s).beginPolling

/-! ### Starts (R203 to R207) -/

/-- What every start sets, cold or warm (R203, R204): the retained parts are put back by `warmStart`. -/
def State.started (k : StartKind) (inp : StartInputs) (sch : Sch) (s : State) : State :=
  { powered := true
    straps := { station := inp.station, slowLine := inp.slowLine, dock := inp.dock }
    startKind := k
    settings := Settings.start
    elapsed := s.elapsed
    moments := s.moments
    pnp := Pnp.start k
    lif := Lif.start
    bal := Bal.start
    occ := Occ.cold
    pwb := Pwb.start
    spc := Spc.start s.elapsed
    fdc := Fdc.cold inp
    gtc := Gtc.start inp s.elapsed ⟨sch.sec, sch.ms⟩
    sch := sch
    cap := Cap.start
    pending := s.pending }

/-- A cold start (R204): the clock reads 0. -/
def State.coldStart (inp : StartInputs) (s : State) : State :=
  s.started .cold inp (Sch.start 0 0 0)

/-- A warm start (R205, R127): the occupancy table, closure list, hold-id counter, journal, sale number
counter and clock are kept, and every OPEN record is closed INTERRUPTED. -/
def State.warmStart (inp : StartInputs) (s : State) : State :=
  let open_ := s.fdc.journal.filter fun r => !r.closed
  let closed := open_.map fun r => r.interrupt s.now
  let t := s.started .warm inp (Sch.start s.sch.sec s.sch.ms s.sch.us)
  let t : State := { t with
    occ := { s.occ with notices := [] }
    fdc := { t.fdc with journal := s.fdc.journal.map fun r => r.interrupt s.now
                        saleNo := s.fdc.saleNo } }
  (t.setFlagIf (!open_.isEmpty) .saleClosed).setFlagIf
    (closed.any fun r => r.flags.unsettled) .saleUnsettled

/-- A transaction begun before a start and ending after it has its request discarded (R182). -/
def State.keepTransaction (begun : Bool) (s : State) : State :=
  { s with pnp := { s.pnp with transaction := if begun then some .notReady else none } }

end Sys2Proof.Machine
end

