-- ==== Sys2Proof/Machine/Port.lean ====
section
/-! DEFINITION. The panel port and the attention flags (09_the_panel_port_and_attention.md): the
transaction, NULL, malformed frames, READ STATION, FLAGS READ, FLAGS CLEAR and FLAGS SETUP. -/

namespace Sys2Proof.Machine

/-- What the outside of the part meets as the outcome of a step. -/
abbrev Outcome := Host.Outcome State Fault Refusal

/-! ### The transaction (R180 to R183) -/

/-- At the assertion PNP chooses for the whole transaction (R180). `decided` says, where a request is
still being decided by its block, whether its decision was taken first (R181). -/
def Pnp.assert (p : Pnp) (decided : Bool) : Pnp :=
  if p.ready && (decided || p.request.isNone) then
    { p with request := none, transaction := some (.answer p.answer.bytes) }
  else { p with transaction := some .notReady }

/-- SELECT_ASSERT (R180, R181). A part without power chooses nothing, and the transaction is one
begun before the start that ends it (R182). -/
def execSelectAssert (decided : Bool) (s : State) : Outcome :=
  .next { s with pnp :=
    if s.powered then s.pnp.assert decided else { s.pnp with transaction := some .notReady } }

/-- REQUEST_DISCARDED (R181): the request of a not-ready transaction is discarded unread. -/
def execRequestDiscarded (s : State) : Outcome :=
  .next (if s.pnp.discards || !s.powered then s.endTransaction else s)

/-- NULL (R182): the answer buffer, the ready mark and the answer number stay. -/
def execNull (s : State) : Outcome :=
  .next (if s.pnp.discards || !s.powered then s.endTransaction
    else { s with pnp := { s.pnp with request := none, transaction := none } })

/-- MALFORMED_REQUEST (R183): REFUSED RANGE; answer code 0xFE with the code received where the code is
not among those of the part (R211). A frame that passes R183 is not this command's and changes nothing. -/
def execMalformedRequest (code len received kind : Nat) (s : State) : Outcome :=
  .next (
    if s.pnp.discards || !s.powered then s.endTransaction
    else if !frameMalformed code len received kind then s
    else if codeKnown code then s.refuseFrame code (.refused .range)
    else s.refuseFrame 0xFE (.refusedWith .range (u8 code)))

/-! ### READ STATION (R187) -/

/-- The place of a value in the order its rule lists it, from 1 (11: enumerated fields). -/
def StationState.code : StationState → Nat
  | .unconfigured => 1 | .joining => 2 | .onLine => 3 | .lineOff => 4

def StartKind.code : StartKind → Nat
  | .cold => 1 | .warm => 2

def GateMode.code : GateMode → Nat
  | .day => 1 | .night => 2 | .lockdown => 3

def GateCause.code : GateCause → Nat
  | .unknown => 1 | .mode => 2 | .state => 3 | .barred => 4 | .locked => 5 | .noPin => 6
  | .wrongPin => 7 | .timeout => 8 | .changed => 9

def ScheduleKind.code : ScheduleKind → Nat
  | .nightOn => 1 | .nightOff => 2 | .lockdownOn => 3 | .lockdownOff => 4 | .tariff1 => 5
  | .tariff2 => 6 | .dayRoll => 7

def EntryState.code : EntryState → Nat
  | .idle => 1 | .armed => 2 | .expired => 3

/-- A capture mode: CONTINUOUS 1, SINGLE 2. -/
def captureModeD (c : Capture) : List Datum := u8 (if c.single then 2 else 1)

/-- Straps and state (R187). -/
def State.strapsD (s : State) : List Datum :=
  u8 s.straps.station ++ u8 (if s.straps.slowLine then 2 else 1) ++ yn s.straps.dock ++
  u8 s.startKind.code ++ u8 s.lif.state.code

/-- The station settings in use (R187). -/
def State.settingsD (s : State) : List Datum :=
  let v := s.settings
  u8 v.window ++ u8 v.bidStep ++ u8 v.fender ++ u8 v.keel ++ u32 v.creditLimit ++ i32 v.warnLevel ++
  u8 v.holdLifetime ++ u8 v.overdueGrace ++ u8 v.departureGrace ++ u16 v.baseShare ++
  u8 v.keepMargin ++ u8 v.pledgeTimeout ++ u16 v.recallPeriod ++ u16 v.faultGrace ++
  captureModeD s.cap.doorOpen ++ captureModeD s.cap.doorShut ++ captureModeD s.cap.lift1 ++
  captureModeD s.cap.hang1 ++ captureModeD s.cap.lift2 ++ captureModeD s.cap.hang2 ++
  captureModeD s.cap.press ++ captureModeD s.cap.released

/-- The number of configured pumps: a pump whose section is written counts, on a station whose fuel dock strap
is clear too (R187, R101, R198, log 66). -/
def State.pumpCount (s : State) : Nat :=
  s.fdc.pump1.config.isSome.toNat + s.fdc.pump2.config.isSome.toNat

/-- The counts (R187), the free places of an empty sale journal being 64 (log 53). -/
def State.countsD (s : State) : List Datum :=
  u8 s.occ.records.length ++ u8 s.occ.closures.length ++
  u8 (Config.maxJournal - s.fdc.journal.length) ++ u8 s.bal.rounds.length ++
  u8 s.bal.berths.length ++ u8 s.spc.points.length ++ u8 s.pumpCount ++ yn s.fdc.emergency

/-- One schedule place, an empty one as zeros (R157). -/
def placeD (e : Option ScheduleEntry) : List Datum :=
  match e with
  | some e =>
    u8 e.kind.code ++ u32 e.start ++ u32 e.cycle ++ yn e.check ++ u8 e.state.code ++
      optD (u32 0) (e.due.map fun d => u32 d)
  | none => u8 0 ++ u32 0 ++ u32 0 ++ u8 0 ++ u8 0 ++ optD (u32 0) none

/-- Time and schedules (R187, R147, R157). -/
def State.timeD_ (s : State) : List Datum :=
  u32 s.sch.sec ++ u16 s.sch.ms ++ u16 s.today ++ u32 s.timeOfDay ++ u8 s.sch.tariffSet ++
  ((List.range 12).flatMap fun i => placeD (lookupKey ScheduleEntry.place (i + 1) s.sch.places))

/-- The last decision (R137), the credential found as a kind byte, 1 staff, 2 occupancy, 0 none, and then its
number (log 47). -/
def Decision.datum (d : Decision) : List Datum :=
  card5 d.card ++ yn d.suspect ++
  (match d.found with
   | some (.staff n) => u8 1 ++ u8 n
   | some (.occupancy n) => u8 2 ++ u8 n
   | none => u8 0 ++ u8 0) ++
  u8 d.mode.code ++ yn d.pinAsked ++
  (match d.cause with
   | none => u8 1 ++ u8 0
   | some c => u8 2 ++ u8 c.code) ++
  timeD d.time

/-- The widths of a last decision, for an empty one. -/
def Decision.zero : List Datum :=
  card5 0 ++ u8 0 ++ u8 0 ++ u8 0 ++ u8 0 ++ u8 0 ++ u8 0 ++ u8 0 ++ timeD ⟨0, 0⟩

/-- One staff credential as READ STATION shows it (R137). -/
def Staff.datum (e : Staff) : List Datum :=
  u8 e.number ++ card5 e.card ++ u8 e.count ++ yn e.locked ++
    optD (timeD ⟨0, 0⟩) (e.waiver.map timeD)

/-- The gate's part of READ STATION (R137): outside PIN ENTRY the digit count stands as 0 with no presence
byte, and the time since the open edge is laid out as a time left (log 47). -/
def State.gateD (s : State) : List Datum :=
  let g := s.gtc
  u8 g.mode.code ++ yn g.night ++ yn g.lockdown ++
  (match g.entry with
   | some e => u8 2 ++ u8 e.digits.length
   | none => u8 1 ++ u8 0) ++
  leftOpt s.elapsed (g.entry.map PinEntry.timeout) ++
  optD Decision.zero (g.last.map Decision.datum) ++
  u8 (if g.release.isSome then 2 else 1) ++ leftOpt s.elapsed g.release ++
  u8 (if g.door.isOpen then 1 else 2) ++
  optD (timeD ⟨0, 0⟩) (g.door.openedAt.map fun t => leftD t s.elapsed) ++ yn g.door.held ++
  listD (g.staff.map Staff.datum)

/-- The line's part of READ STATION (R178). -/
def State.lineD (s : State) : List Datum :=
  let l := s.lif
  u8 l.state.code ++ u8 l.failed ++
  listD (l.tx.map fun f =>
    u8 f.frame.kind ++ u32 (f.frame.keyField 0 19) ++ yn (l.attempt == some f.serial)) ++
  u8 l.rx.length ++ u16 l.dropped ++
  u8 (if l.state = .joining then (if l.listenEnd.isSome then 2 else 1) else 0) ++
  leftOpt s.elapsed l.listenEnd ++ leftOpt s.elapsed l.silenceEnd ++
  u8 (if s.straps.slowLine then 2 else 1)

/-- The answer of READ STATION, every part from one reading (R187). -/
def State.stationAnswer (s : State) : List Datum :=
  s.strapsD ++ s.settingsD ++ s.countsD ++ s.timeD_ ++ s.gateD ++ s.lineD

/-- READ_STATION (R187). -/
def execReadStation (s : State) : Outcome :=
  .next (s.readRequest 6 fun s => .done s.stationAnswer)

/-! ### The flags (R189 to R192) -/

/-- The levels in an answer, BERTH to STATION. -/
def levelsD (l : Levels) : List Datum :=
  u8 l.berth ++ u8 l.occupancy ++ u8 l.power ++ u8 l.fuel ++ u8 l.gate ++ u8 l.line ++ u8 l.station

/-- The answer of FLAGS READ (R189). -/
def Pnp.flagsAnswer (p : Pnp) : List Datum :=
  mask8 p.flags ++ mask8 p.enables ++ levelsD p.levels ++ u8 p.threshold ++ mask8 p.pendingMask ++
    u8 (lowestFlag p.pendingMask) ++ yn p.attention

/-- FLAGS_READ (R189). -/
def execFlagsRead (s : State) : Outcome :=
  .next (s.readRequest 7 fun s => .done s.pnp.flagsAnswer)

/-- FLAGS_CLEAR (R190). -/
def execFlagsClear (mask : BitVec 64) (s : State) : Outcome :=
  .next (s.request 8 fun s =>
    let s := s.clearFlags mask
    (s, .done (mask8 s.pnp.flags ++ yn s.pnp.attention)))

/-- A level 0-3 or the keep value 15 (R191). -/
def levelOk (n : Nat) : Bool := n ≤ 3 || n == 15

/-- The level written, or the present one at the keep value. -/
def keepLevel (present n : Nat) : Nat := if n = 15 then present else n

/-- Every value of a FLAGS SETUP is in range (R191); a keep mark other than 0 or 1 is not (R210). -/
def setupInRange (keep : Nat) (l : Levels) (threshold : Nat) : Bool :=
  keep ≤ 1 && levelOk l.berth && levelOk l.occupancy && levelOk l.power && levelOk l.fuel &&
  levelOk l.gate && levelOk l.line && levelOk l.station && (within 1 3 threshold || threshold == 15)

/-- The given values written together (R191), a one for a number that names no flag as zero. -/
def Pnp.setup (p : Pnp) (enables : BitVec 64) (keep : Nat) (l : Levels) (threshold : Nat) : Pnp :=
  { p with
    enables := if keep = 1 then p.enables else enables &&& namedMask
    levels :=
      { berth := keepLevel p.levels.berth l.berth
        occupancy := keepLevel p.levels.occupancy l.occupancy
        power := keepLevel p.levels.power l.power
        fuel := keepLevel p.levels.fuel l.fuel
        gate := keepLevel p.levels.gate l.gate
        line := keepLevel p.levels.line l.line
        station := keepLevel p.levels.station l.station }
    threshold := keepLevel p.threshold threshold }

/-- FLAGS_SETUP (R191, R192). -/
def execFlagsSetup (enables : BitVec 64) (keep : Nat) (l : Levels) (threshold : Nat) (s : State) :
    Outcome :=
  .next (s.request 9 fun s =>
    if setupInRange keep l threshold then
      let s : State := { s with pnp := (s.pnp.setup enables keep l threshold).examine }
      (s, .done (mask8 s.pnp.enables ++ levelsD s.pnp.levels ++ u8 s.pnp.threshold ++ yn s.pnp.attention))
    else (s, .refused .range))

end Sys2Proof.Machine
end

