-- ==== Sys2Proof/Machine/Clock.lean ====
section
/-! DEFINITION. Station time, schedules and capture (07_station_time_schedules_and_capture.md):
SET CLOCK, TIME, TARIFF SELECT, the due entry, the seven firings, the wrap and READ CAPTURE. -/

namespace Sys2Proof.Machine

/-! ### The clock (R147 to R150) -/

/-- SET_CLOCK (R148). -/
def execSetClock (sec ms : Nat) (s : State) : Outcome :=
  .next (s.request 4 fun s =>
    if 999 < ms then (s, .refused .range)
    else (s.setClock sec ms, .done (timeD ⟨sec, ms⟩)))

/-- TIME_FRAME (R149): a TIME from station 0 with milliseconds up to 999 sets the clock. -/
def execTimeFrame (src : RxSource) (s : State) : Outcome :=
  .next (s.frameEvent 18 src fun f _ s =>
    if f.sender = 0 && f.num 4 2 ≤ 999 then s.setClock (f.num 0 4) (f.num 4 2) else s)

/-- CLOCK_WRAP (R147, R150), without power too, the clock running from the backup supply (R207). -/
def execClockWrap (s : State) : Outcome := .next s.wrapClock

/-! ### The tariff set (R151) -/

/-- The set in force changed. -/
def State.useTariff (set : Nat) (s : State) : State :=
  { s with sch := { s.sch with tariffSet := set } }

/-- TARIFF_SELECT (R151). -/
def execTariffSelect (set : Nat) (s : State) : Outcome :=
  .next (s.request 5 fun s =>
    if within 1 2 set then (s.useTariff set, .done []) else (s, .refused .range))

/-! ### Entries and firings (R154, R155) -/

/-- An ARMED entry whose next due the clock reaches fires, and is spent or moved on (R154). -/
def State.dueEntry (e : ScheduleEntry) (due : Nat) (s : State) : State :=
  let s := (s.advanceToTime ⟨due, 0⟩).fire e.kind
  if e.cycle = 0 then s.expire e.place else s.setDue e.place (due + e.cycle)

/-- SCHEDULE_DUE (R154). -/
def execScheduleDue (place : Nat) (s : State) : Outcome :=
  .next (s.event fun s =>
    match lookupKey ScheduleEntry.place place s.sch.places with
    | some e =>
      match e.state, e.due with
      | .armed, some due => s.dueEntry e due
      | _, _ => s
    | none => s)

/-- A firing is taken by the block that owns the state it acts on (R155). -/
def State.takeAndFire (k : ScheduleKind) (act : State → State) (s : State) : State :=
  s.event fun s => act (s.takeFiring k)

/-- NIGHT_ON (R155, R130). -/
def execNightOn (s : State) : Outcome := .next (s.takeAndFire .nightOn (State.setNight true))

/-- NIGHT_OFF (R155, R130). -/
def execNightOff (s : State) : Outcome := .next (s.takeAndFire .nightOff (State.setNight false))

/-- LOCKDOWN_ON (R155, R130). -/
def execLockdownOn (s : State) : Outcome := .next (s.takeAndFire .lockdownOn (State.setLockdown true))

/-- LOCKDOWN_OFF (R155, R130). -/
def execLockdownOff (s : State) : Outcome := .next (s.takeAndFire .lockdownOff (State.setLockdown false))

/-- TARIFF_1 (R155, R151). -/
def execTariff1 (s : State) : Outcome := .next (s.takeAndFire .tariff1 (State.useTariff 1))

/-- TARIFF_2 (R155, R151). -/
def execTariff2 (s : State) : Outcome := .next (s.takeAndFire .tariff2 (State.useTariff 2))

/-- DAY_ROLL (R155, R32): OCC's day rolls run in every state past UNCONFIGURED (R50). -/
def execDayRoll (s : State) : Outcome :=
  .next (s.takeAndFire .dayRoll fun s => if s.unconfigured then s else s.dayRoll)

/-! ### Capture (R160) -/

/-- A SINGLE edge whose mark is set is re-armed by its reading (R160). -/
def Capture.reread (c : Capture) : Capture :=
  if c.single && c.mark then { c with mark := false, missed := 0 } else c

/-- What READ CAPTURE returns of an edge (R160). -/
def Capture.datum (c : Capture) : List Datum :=
  captureModeD c ++ optD (timeD ⟨0, 0⟩) (c.time.map timeD) ++ yn c.mark ++ u8 c.missed

/-- READ_CAPTURE (R160). -/
def execReadCapture (channel edge : Nat) (s : State) : Outcome :=
  .next (s.request 58 fun s =>
    match edgeOf channel edge with
    | none => (s, .refused .range)
    | some e =>
      let c := s.cap.get e
      ({ s with cap := s.cap.set e c.reread }, .done c.datum))

end Sys2Proof.Machine
end

