-- ==== Sys2Proof/Machine/Fuel.lean ====
section
/-! DEFINITION. The fuel dock and the sale journal (05_the_fuel_dock_and_sale_journal.md), with the
emergency stop. -/

namespace Sys2Proof.Machine

/-! ### Requests that name a pump (R115, R126) -/

/-- RANGE outside 1-2, UNKNOWN for a pump not configured. -/
def State.pumpRequest (code n : Nat) (body : Pump → PumpConfig → State → State × Reply) (s : State) :
    State :=
  s.request code fun s =>
    match s.pump? n with
    | none => (s, .refused .range)
    | some p =>
      match p.config with
      | none => (s, .refused .unknown)
      | some c => body p c s

/-! ### PUMP AUTHORISE (R105) -/

/-- The payment of a PUMP AUTHORISE: 1 ACCOUNT with a card in range, 2 PANEL; else out of range. -/
def paymentCard (payment card : Nat) : Option (Option Nat) :=
  if payment = 1 && cardOk card then some (some card)
  else if payment = 2 then some none
  else none

/-- The first cause after UNKNOWN that refuses a PUMP AUTHORISE (R105). -/
def State.authoriseRefusal (s : State) (p : Pump) (card : Option Nat) : Option Cause :=
  if s.fdc.emergency then some .state
  else if p.sale.isSome then some .busy
  else if card.isSome && !s.onLine then some .noLine
  else if !s.journalRoom then some .journalFull
  else if s.queueFull then some .busy
  else none

/-- A sale as its acceptance leaves it (R104, R105). -/
def newSale (number preset : Nat) (card : Option Nat) : Sale :=
  { state := .authorising, number := number, card := card, preset := preset, hold := none,
    load := .queued, pulses := 0, volume := 0, cutoff := 0, barred := false, timer := none,
    settle := none }

/-- The four steps of an accepted PUMP AUTHORISE; PWB examines a demand that joined an empty queue
once the sale stands (R105, R106, log 15). -/
def State.authorise (n number preset : Nat) (card : Option Nat) (c : PumpConfig) (s : State) : State :=
  let wasEmpty := s.pwb.demands.isEmpty
  let s := (s.appendDemand .pump n c.load).reserve number n preset card c
  let s := s.modPump n fun p => { p with sale := some (newSale number preset card), last := .pending }
  let s := if card.isSome then s.beginAsk n else s
  if wasEmpty then s.settle else s

/-- PUMP_AUTHORISE (R105): every RANGE test, then the causes in order. -/
def execPumpAuthorise (pump preset payment card : Nat) (s : State) : Outcome :=
  .next (s.request 48 fun s =>
    match s.pump? pump, paymentCard payment card with
    | some p, some cd =>
      if preset < 100 then (s, .refused .range)
      else
        match p.config with
        | none => (s, .refused .unknown)
        | some c =>
          match s.authoriseRefusal p cd with
          | some cause => (s, .refused cause)
          | none =>
            let number := s.nextSaleNo.getD 0
            (s.authorise pump number (min preset 500000) cd c,
             .accepted (decide (500000 < preset)) (u16 number))
    | _, _ => (s, .refused .range))

/-! ### Suspend, resume, stop (R115, R117, R118) -/

/-- PUMP_SUSPEND (R117). -/
def execPumpSuspend (pump : Nat) (s : State) : Outcome :=
  .next (s.pumpRequest 49 pump fun p c s =>
    match p.sale with
    | some x =>
      if x.state = .delivering then
        ((s.shutValves pump).modSale pump fun x => { x with
            state := .suspended, timer := some (s.elapsed + c.suspendLimit * 1000000) }, .done [])
      else (s, .ignored)
    | none => (s, .ignored))

/-- PUMP_RESUME (R118). -/
def execPumpResume (pump : Nat) (s : State) : Outcome :=
  .next (s.pumpRequest 50 pump fun p _ s =>
    match p.sale with
    | some x =>
      if x.state = .suspended && !s.fdc.emergency then
        ((s.modSale pump fun x => { x with state := .delivering, timer := none }).openValves pump, .done [])
      else (s, .ignored)
    | none => (s, .ignored))

/-- PUMP_STOP (R115). -/
def execPumpStop (pump : Nat) (s : State) : Outcome :=
  .next (s.pumpRequest 51 pump fun p _ s =>
    match p.sale with
    | some x =>
      match x.state with
      | .authorising | .authorised => (s.endUnused pump .cancelled .cancelled, .done [])
      | .delivering | .suspended => (s.toFinishing pump, .done [])
      | .finishing | .settling => (s, .ignored)
    | none => (s, .ignored))

/-! ### READ PUMP and the journal (R125, R126) -/

def Grade.code : Grade → Nat
  | .diesel => 1 | .petrol => 2

/-- A sale state's code in R104's order; IDLE is 1. -/
def saleStateCode (x : Option Sale) : Nat :=
  match x with
  | none => 1
  | some x =>
    match x.state with
    | .authorising => 2 | .authorised => 3 | .delivering => 4 | .suspended => 5 | .finishing => 6
    | .settling => 7

def AuthCause.code : AuthCause → Nat
  | .state => 1 | .locked => 2 | .funds => 3 | .holds => 4 | .budget => 5 | .noLine => 6
  | .noAnswer => 7 | .cancelled => 8 | .stopped => 9

def LapseReason.code : LapseReason → Nat
  | .timeout => 1 | .cancelled => 2 | .emergency => 3

/-- The last outcome with its cause or reason (R126): NONE is 0. -/
def LastOutcome.datum : LastOutcome → List Datum
  | .none => u8 0 ++ u8 0
  | .pending => u8 1 ++ u8 0
  | .authorised => u8 2 ++ u8 0
  | .refused c => u8 3 ++ u8 c.code
  | .lapsed r => u8 4 ++ u8 r.code

/-- A hold taken: home station, hold id, occupancy number (R104). -/
def HoldRef.datum (h : HoldRef) : List Datum := u8 h.home ++ u8 h.hold ++ u8 h.occ

/-- A hold taken, or none. -/
def holdD (h : Option HoldRef) : List Datum := optD (u8 0 ++ u8 0 ++ u8 0) (h.map HoldRef.datum)

/-- A hold taken as a journal record gives it: home station, occupancy number, hold id (R124). -/
def HoldRef.journalD (h : HoldRef) : List Datum := u8 h.home ++ u8 h.occ ++ u8 h.hold

def LoadState.code : LoadState → Nat
  | .queued => 1 | .held => 2 | .released => 0

/-- The moment the present state's timer ends: the settle wait in SETTLING (R104). -/
def Sale.deadline (x : Sale) : Option Nat :=
  if x.state = .settling then x.settle.bind Attempt.waitEnd else x.timer

/-- A sale's context (R104, R126). -/
def Sale.datum (now : Nat) (p : Pump) (x : Sale) : List Datum :=
  u16 x.number ++ u8 (if x.card.isSome then 1 else 2) ++ optD (card5 0) (x.card.map fun n => card5 n) ++
  u32 x.preset ++ optD (u8 0) (x.card.map fun _ => u8 p.askSeq) ++
  optD (u8 0 ++ leftOpt 0 none)
    (p.ask.map fun a => u8 a.attempt.attempt ++ leftOpt now a.attempt.waitEnd) ++
  holdD x.hold ++ u8 x.load.code ++ u32 x.pulses ++ u32 x.volume ++ u32 x.cutoff ++ yn x.barred ++
  leftOpt now x.deadline

/-- The widths of a context, for an IDLE pump. -/
def Sale.zero : List Datum :=
  u16 0 ++ u8 0 ++ optD (card5 0) none ++ u32 0 ++ optD (u8 0) none ++
  optD (u8 0 ++ leftOpt 0 none) none ++ holdD none ++ u8 0 ++ u32 0 ++ u32 0 ++ u32 0 ++ u8 0 ++
  leftOpt 0 none

/-- The answer of READ PUMP (R126), the main and then the slow valve each a yes/no, open as yes (log 47). -/
def State.pumpAnswer (s : State) (n : Nat) (p : Pump) (c : PumpConfig) : List Datum :=
  u8 n ++ u8 c.grade.code ++ u16 c.pulses ++ u16 c.price ++ u8 c.load ++ u16 c.authTimeout ++
  u16 c.suspendLimit ++
  u8 (if p.nozzleUp then 1 else 2) ++ yn p.main ++ yn p.slow ++ yn s.fdc.emergency ++ u16 p.stray ++
  u8 (saleStateCode p.sale) ++ optD Sale.zero (p.sale.map (Sale.datum s.elapsed p)) ++
  optD (u8 0 ++ u8 0 ++ leftOpt 0 none)
    (p.ask.map fun a => u8 a.seq ++ u8 a.attempt.attempt ++ leftOpt s.elapsed a.attempt.waitEnd) ++
  optD (u8 0 ++ u16 0) (p.closedAsk.map fun a => u8 a.seq ++ u16 a.sale) ++ p.last.datum

/-- READ_PUMP (R126). -/
def execReadPump (pump : Nat) (s : State) : Outcome :=
  .next (s.pumpRequest 52 pump fun p c s => (s, .done (s.pumpAnswer pump p c)))

/-- The flags of a record (R124), one yes/no byte each in the order R124 names them (log 68). -/
def SaleFlags.datum (f : SaleFlags) : List Datum :=
  yn f.presetReached ++ yn f.suspendTimeout ++ yn f.emergency ++ yn f.overrunClamped ++
  yn f.unsettled ++ yn f.late ++ yn f.interrupted

/-- A settle result, NONE as 0 (R124). -/
def settleCode (r : Option SettleResult) : Nat :=
  match r with
  | some r => r.code
  | none => 0

/-- A journal record (R124), the three fields of its hold under one presence byte (log 47). -/
def JournalRecord.datum (r : JournalRecord) : List Datum :=
  u16 r.number ++ u8 (if r.closed then 2 else 1) ++ u8 r.pump ++ u8 r.grade.code ++ u32 r.preset ++
  u8 (if r.card.isSome then 1 else 2) ++ optD (card5 0) (r.card.map fun n => card5 n) ++
  optD (u8 0 ++ u8 0 ++ u8 0) (r.hold.map HoldRef.journalD) ++
  optD (timeD ⟨0, 0⟩) (r.startTime.map timeD) ++ optD (timeD ⟨0, 0⟩) (r.endTime.map timeD) ++
  u32 r.volume ++ u16 r.price ++ optD (u32 0) (r.charged.map fun n => u32 n) ++
  u8 (settleCode r.settle) ++ r.flags.datum

/-- The widths of a journal record, for the empty mark. -/
def JournalRecord.zero : List Datum :=
  u16 0 ++ u8 0 ++ u8 0 ++ u8 0 ++ u32 0 ++ u8 0 ++ optD (card5 0) none ++ holdD none ++
  optD (timeD ⟨0, 0⟩) none ++ optD (timeD ⟨0, 0⟩) none ++ u32 0 ++ u16 0 ++ optD (u32 0) none ++
  u8 0 ++ SaleFlags.clear.datum

/-- JOURNAL_READ (R125). -/
def execJournalRead (s : State) : Outcome :=
  .next (s.readRequest 53 fun s =>
    .done (optD JournalRecord.zero (s.oldestClosed.map JournalRecord.datum)))

/-- JOURNAL_COLLECT (R125). -/
def execJournalCollect (s : State) : Outcome :=
  .next (s.request 54 fun s =>
    match s.oldestClosed with
    | none => (s, .ignored)
    | some r =>
      ({ s with fdc := { s.fdc with
          journal := eraseKey JournalRecord.number r.number s.fdc.journal } }, .done (u16 r.number)))

/-! ### Meter and nozzle (R102, R111 to R114, R119) -/

/-- A pulse outside the counting states is stray (R102). -/
def State.strayPulse (n : Nat) (s : State) : State :=
  (s.modPump n fun p => { p with stray := min 65535 (p.stray + 1) }).setFlag .pulseStray

/-- A pulse of a pump's meter by the state of its sale (R102, R113, R119, R120); one of the run-on leaves
"main valve barred" as it stands (log 62). -/
def State.pulse (n : Nat) (p : Pump) (s : State) : State :=
  match p.sale, p.config with
  | some x, some c =>
    match x.state with
    | .delivering | .suspended => (s.countPulse n c.pulses).checkVolume n
    | .finishing => s.countPulse n c.pulses
    | .authorising | .authorised | .settling => s.strayPulse n
  | _, _ => s.strayPulse n

/-- PUMP_PULSE (R102, R113). -/
def execPumpPulse (pump : Nat) (s : State) : Outcome :=
  .next (s.event fun s =>
    match s.pump? pump with
    | some p => s.pulse pump p
    | none => s)

/-- A lift edge by the state of the sale (R102, R111). -/
def State.lift (n : Nat) (p : Pump) (s : State) : State :=
  let s := s.modPump n fun p => { p with nozzleUp := true }
  match p.sale, p.config with
  | some x, some c =>
    if x.state = .authorised then s.startDelivery n c
    else if x.state = .delivering then s
    else s.setFlag .unauthLift
  | _, _ => s.setFlag .unauthLift

/-- NOZZLE_LIFT (R102, R111, R158). -/
def execNozzleLift (pump : Nat) (s : State) : Outcome :=
  .next (s.event fun s =>
    match s.pump? pump with
    | some p => (s.capture (if pump = 1 then .lift1 else .lift2)).lift pump p
    | none => s)

/-- A hang edge by the state of the sale (R102, R114, R119). -/
def State.hang (n : Nat) (p : Pump) (s : State) : State :=
  let s := s.modPump n fun p => { p with nozzleUp := false }
  match p.sale with
  | some x => if x.state = .delivering || x.state = .suspended then s.toFinishing n else s
  | none => s

/-- NOZZLE_HANG (R102, R114, R158). -/
def execNozzleHang (pump : Nat) (s : State) : Outcome :=
  .next (s.event fun s =>
    match s.pump? pump with
    | some p => (s.capture (if pump = 1 then .hang1 else .hang2)).hang pump p
    | none => s)

/-! ### The sale's timers (R111, R119, R120) -/

/-- A timer of a pump's sale in one state: time runs on to its end and `body` follows (log 2). -/
def State.saleTimer (n : Nat) (st : SaleState) (body : State → State) (s : State) : State :=
  s.event fun s =>
    match s.sale? n with
    | some x =>
      match x.timer with
      | some t => if x.state = st then body (s.advanceTo t) else s
      | none => s
    | none => s

/-- AUTHORISATION_TIMEOUT (R111). -/
def execAuthorisationTimeout (pump : Nat) (s : State) : Outcome :=
  .next (s.saleTimer pump .authorised fun s => s.endUnused pump .cancelled .timeout)

/-- SUSPEND_LIMIT_END (R119). -/
def execSuspendLimitEnd (pump : Nat) (s : State) : Outcome :=
  .next (s.saleTimer pump .suspended fun s =>
    (s.flagRecord pump fun f => { f with suspendTimeout := true }).toFinishing pump)

/-- RUN_ON_END (R120). -/
def execRunOnEnd (pump : Nat) (s : State) : Outcome :=
  .next (s.saleTimer pump .finishing fun s => s.finishSale pump)

/-! ### Asking and settling (R107, R108, R121, R122) -/

/-- The pump a test finds, pump 1 first where both meet it (log 58). -/
def State.findPump (s : State) (test : Pump → Bool) : Option Nat :=
  if test s.fdc.pump1 then some 1 else if test s.fdc.pump2 then some 2 else none

/-- HOLD_ASK_REPORT (R107). -/
def execHoldAskReport (s : State) : Outcome :=
  .next (s.reportEvent 9 fun rep s =>
    match s.findPump fun p => (p.ask.map fun a => a.attempt.frame) == some rep.serial with
    | some n =>
      if rep.sent then
        s.modPump n fun p => { p with ask := p.ask.map fun a => { a with
          attempt := { a.attempt with waitEnd := some (s.elapsed + Config.answerWaitUs) } } }
      else s.askUnanswered n
    | none => s)

/-- HOLD_ASK_WAIT_END (R107). -/
def execHoldAskWaitEnd (pump : Nat) (s : State) : Outcome :=
  .next (s.event fun s =>
    match ((s.pump? pump).bind Pump.ask).bind fun a => a.attempt.waitEnd with
    | some t => (s.advanceTo t).askUnanswered pump
    | none => s)

/-- The cause of a REFUSED answer by its code (R209). -/
def answerCause : Nat → Option AuthCause
  | 1 => some .state | 2 => some .locked | 3 => some .funds | 4 => some .holds | _ => none

/-- An answer taken for the open ask of a pump (R108). -/
def State.answerOpen (n : Nat) (ok : Bool) (cause : AuthCause) (h : HoldRef) (s : State) : State :=
  if ok then
    match s.sale? n with
    | some x =>
      let s := s.modPump n fun p =>
        { (p.closeAsk x.number (some h)) with sale := some { x with hold := some h } }
      (s.modRecord x.number fun r => { r with hold := some h }).tryAuthorise n
    | none => s
  else s.endUnused n cause .cancelled

/-- A later answer for the closed ask of a pump: an OK but the one taken is released (R108). -/
def State.answerClosed (a : ClosedAsk) (ok : Bool) (h : HoldRef) (s : State) : State :=
  let taken := match a.hold with
    | some t => t.home == h.home && t.hold == h.hold
    | none => false
  if ok && !taken then s.zeroSettle h a.sale else s

/-- An answer matched to a pump by its ask sequence (R108). -/
def State.takeAnswer (n seq : Nat) (ok : Bool) (cause : AuthCause) (h : HoldRef) (s : State) : State :=
  match s.pump? n with
  | none => s
  | some p =>
    let isOpen := match p.ask with | some a => a.seq == seq | none => false
    if isOpen then s.answerOpen n ok cause h
    else
      match p.closedAsk with
      | some a => if a.seq = seq then s.answerClosed a ok h else s
      | none => s

/-- HOLD_ANSWER_FRAME (R108); a code with no meaning drops the frame (R209, log 26). -/
def execHoldAnswerFrame (src : RxSource) (s : State) : Outcome :=
  .next (s.frameEvent 10 src fun f _ s =>
    let h : HoldRef := { home := f.sender, hold := f.num 2 1, occ := f.num 3 1 }
    let pump := f.keyField 5 2
    let seq := f.keyField 7 8
    if 4 < f.num 1 1 then s
    else if f.num 0 1 = 1 then s.takeAnswer pump seq true .state h
    else if f.num 0 1 = 2 then
      match answerCause (f.num 1 1) with
      | some c => s.takeAnswer pump seq false c h
      | none => s
    else s)

/-- SETTLE_REPORT (R121). -/
def execSettleReport (s : State) : Outcome :=
  .next (s.reportEvent 11 fun rep s =>
    match s.findPump fun p => ((p.sale.bind Sale.settle).map Attempt.frame) == some rep.serial with
    | some n =>
      if rep.sent then
        s.modSale n fun x => { x with settle := x.settle.map fun a =>
          { a with waitEnd := some (s.elapsed + Config.answerWaitUs) } }
      else s.settleUnanswered n
    | none => s)

/-- SETTLE_WAIT_END (R121). -/
def execSettleWaitEnd (pump : Nat) (s : State) : Outcome :=
  .next (s.event fun s =>
    match ((s.sale? pump).bind Sale.settle).bind Attempt.waitEnd with
    | some t => (s.advanceTo t).settleUnanswered pump
    | none => s)

/-- The result of a SETTLE ANSWER by its code (R209). -/
def settleResultOf : Nat → Option SettleResult
  | 1 => some .applied | 2 => some .lateApplied | 3 => some .unknown | _ => none

/-- An answer written into the record, and the sale closes (R122). -/
def State.settleAnswered (n : Nat) (r : SettleResult) (s : State) : State :=
  match s.sale? n with
  | none => s
  | some x =>
    (s.modRecord x.number fun j => { j with
      settle := some r
      flags := { j.flags with late := j.flags.late || r == .lateApplied,
                              unsettled := j.flags.unsettled || r == .unknown } }).closeSale n

/-- A pump in SETTLING with a hold of a home station (R122). -/
def settlesWith (home hold : Nat) (p : Pump) : Bool :=
  match p.sale with
  | some x =>
    x.state == .settling &&
      (match x.hold with | some h => h.home == home && h.hold == hold | none => false)
  | none => false

/-- SETTLE_ANSWER_FRAME (R122): of two pumps that settle the same hold id with the sender, pump 1 takes the
answer (log 58). -/
def execSettleAnswerFrame (src : RxSource) (s : State) : Outcome :=
  .next (s.frameEvent 12 src fun f _ s =>
    match settleResultOf (f.num 0 1), s.findPump (settlesWith f.sender (f.keyField 5 8)) with
    | some r, some n => s.settleAnswered n r
    | _, _ => s)

/-! ### The emergency stop (R103, R116) -/

/-- EMERGENCY_PRESS (R103, R116, R158), at pump 1 and then at pump 2 (log 46). -/
def execEmergencyPress (s : State) : Outcome :=
  .next (s.event fun s =>
    let s := s.capture .press
    let s : State := { s with fdc := { s.fdc with emergency := true } }
    let s := (s.setFlag .emergencyStop).alarm .emergencyStop 0 s.sch.sec
    (s.pumpEmergency 1).pumpEmergency 2)

/-- EMERGENCY_RELEASE (R103, R158). -/
def execEmergencyRelease (s : State) : Outcome :=
  .next (s.event fun s =>
    let s := s.capture .released
    { s with fdc := { s.fdc with emergency := false } })

end Sys2Proof.Machine
end

