-- ==== Sys2Proof/Machine/Gate.lean ====
section
/-! DEFINITION. Gate access (06_gate_access.md): the reader, the keypad, the latch and the door. -/

namespace Sys2Proof.Machine

/-- GATE_OPEN (R143). -/
def execGateOpen (s : State) : Outcome :=
  .next (s.request 56 fun s => (s.releaseLatch, .done []))

/-- The marks a GATE MODE gives (R130): 1 DAY, 2 NIGHT, 3 LOCKDOWN. -/
def State.gateMode (mode : Nat) (s : State) : State :=
  if mode = 1 then (s.setNight false).setLockdown false
  else if mode = 2 then (s.setNight true).setLockdown false
  else s.setLockdown true

/-- GATE_MODE (R130). -/
def execGateMode (mode : Nat) (s : State) : Outcome :=
  .next (s.request 57 fun s =>
    if within 1 3 mode then
      let s := s.gateMode mode
      (s, .done (u8 s.gtc.mode.code))
    else (s, .refused .range))

/-- A card read past UNCONFIGURED (R131, R132): an overrun in PIN ENTRY, else decided at once. -/
def State.takeRead (card : Nat) (suspect : Bool) (s : State) : State :=
  if s.gtc.entry.isSome then s.setFlag .overrun
  else (s.setFlagIf suspect .suspectRead).decideRead card suspect

/-- CARD_READ (R131, R132): discarded in UNCONFIGURED. -/
def execCardRead (card check : Nat) (s : State) : Outcome :=
  .next (s.event fun s =>
    if s.unconfigured then s else s.takeRead card (!cardGood card check))

/-- A key taken in PIN ENTRY (R135): 0-9 a digit, 10 ENTER, 11 CLEAR. -/
def State.takeKey (e : PinEntry) (code : Nat) (s : State) : State :=
  if code ≤ 9 then
    s.editEntry e (if e.digits.length < 6 then e.digits ++ [code] else e.digits)
  else if code = 11 then s.editEntry e []
  else if e.digits.isEmpty then s.editEntry e []
  else s.judgeEntry e

/-- KEY (R131, R135): discarded in UNCONFIGURED, in IDLE, and above code 11 (R213). -/
def execKey (code : Nat) (s : State) : Outcome :=
  .next (s.event fun s =>
    match s.gtc.entry with
    | some e => if s.unconfigured || 11 < code then s else s.takeKey e code
    | none => s)

/-- PIN_ENTRY_TIMEOUT (R135): the entry closes, refused TIMEOUT. -/
def execPinEntryTimeout (s : State) : Outcome :=
  .next (s.event fun s =>
    match s.gtc.entry with
    | some e =>
      ((s.advanceTo e.timeout).closeEntry).refuseRead e.card e.suspect (some e.found) true .timeout
    | none => s)

/-- READER_FRAME_TIMEOUT (R213): the bytes are discarded; GTC takes nothing for them (log 28). -/
def execReaderFrameTimeout (_bytes : List Byte) (s : State) : Outcome := .next s

/-- RELEASE_END (R141): the latch becomes HELD. -/
def execReleaseEnd (s : State) : Outcome :=
  .next (s.event fun s =>
    match s.gtc.release with
    | some t =>
      let s := s.advanceTo t
      { s with gtc := { s.gtc with release := none } }
    | none => s)

/-- EXIT_BUTTON_PRESS (R142): a release in every station state and gate mode. -/
def execExitButtonPress (s : State) : Outcome := .next (s.event State.releaseLatch)

/-- An opening begins at the edge's capture time, its held limit with it (R144). -/
def State.openDoor (s : State) : State :=
  { s with gtc := { s.gtc with door :=
      { isOpen := true, openTime := some s.now, openedAt := some s.elapsed,
        heldEnd := some (s.elapsed + s.gtc.heldLimit * 1000000), held := false } } }

/-- DOOR_OPEN_EDGE (R144, R158): with the latch HELD the opening is forced. -/
def execDoorOpenEdge (s : State) : Outcome :=
  .next (s.event fun s =>
    let s := s.capture .doorOpen
    if s.gtc.door.isOpen then s
    else
      let s := s.openDoor
      if s.gtc.release.isSome then s
      else (s.setFlag .gateForced).alarm .gateForced 0 s.sch.sec)

/-- The opening ends; the held mark stays (R145). -/
def State.shutDoor (s : State) : State :=
  { s with gtc := { s.gtc with door :=
      { s.gtc.door with isOpen := false, openTime := none, openedAt := none, heldEnd := none } } }

/-- DOOR_SHUT_EDGE (R145, R158). -/
def execDoorShutEdge (s : State) : Outcome :=
  .next (s.event fun s =>
    let s := s.capture .doorShut
    if s.gtc.door.isOpen then s.shutDoor else s)

/-- The held limit of an opening ends (R145), its ALARM carrying the seconds of the open edge's capture time
(R177), or of the station time at the start for an opening found at a start, which no edge began (log 52). -/
def State.holdDoor (t : Nat) (s : State) : State :=
  let s := s.advanceTo t
  let opened := match s.gtc.door.openTime with | some t => t.sec | none => 0
  let s : State := { s with gtc := { s.gtc with door := { s.gtc.door with heldEnd := none, held := true } } }
  (s.setFlag .gateHeld).alarm .gateHeld 0 opened

/-- HELD_LIMIT_END (R145). -/
def execHeldLimitEnd (s : State) : Outcome :=
  .next (s.event fun s =>
    match s.gtc.door.heldEnd with
    | some t => if s.gtc.door.isOpen then s.holdDoor t else s
    | none => s)

end Sys2Proof.Machine
end

