-- ==== Sys2Proof/Machine/Line.lean ====
section
/-! DEFINITION. The pier line (08_the_pier_line.md): frames heard, attempts, the listen, the line
silence watch, and JOIN. -/

namespace Sys2Proof.Machine

/-! ### Receiving (R162, R172, R173) -/

/-- The addressee and state tests of R172, which a frame from the line and a loop-back copy both meet. -/
def State.passes (s : State) (f : Frame) : Bool :=
  (match f.addressee with | some a => a == s.me | none => true) && takenIn s.lif.state f.kind

/-- A frame that passes the tests joins the receive queue, or is dropped when it holds 16 (R173). -/
def State.receive (f : Frame) (s : State) : State :=
  if s.lif.rx.length < Config.maxRx then
    { s with lif := { s.lif with rx := s.lif.rx ++ [f] } }
  else
    ({ s with lif := { s.lif with dropped := min 65535 (s.lif.dropped + 1) } } : State).setFlag .rxOverflow

/-- A well-formed frame from the line (R172): clash, addressee, state. -/
def State.hear (f : Frame) (s : State) : State :=
  if f.sender = s.me then s.setFlag .stationClash
  else if s.passes f then s.receive f
  else s

/-- FRAME_HEARD (R162, R172, R173): a frame not well formed is discarded without flag. -/
def execFrameHeard (f : CanFrame) (s : State) : Outcome :=
  .next (s.event fun s =>
    if canWellFormed f then s.hear { ident := f.ident, data := f.data } else s)

/-! ### Sending (R164, R167, R168, R171) -/

/-- TX_ATTEMPT_START (R167): the head frame is offered to the idle line. -/
def execTxAttemptStart (s : State) : Outcome :=
  .next (s.event fun s =>
    match s.lif.attempt, s.lif.tx with
    | none, f :: _ =>
      if s.onSegment then
        { s with lif := { s.lif with attempt := some f.serial } }
      else s
    | _, _ => s)

/-- The loop-back of a sent frame that passes R172's tests, not yet taken (R171). -/
def State.loopBack (f : TxFrame) (s : State) : State :=
  if s.passes f.frame then { s with lif := { s.lif with loop := s.lif.loop ++ [f] } } else s

/-- A frame sent (R167): it leaves the queue, the count becomes 0, its block is told, a sent JOIN
begins the listen (R170), and the copy is looped back. -/
def State.sent (f : TxFrame) (s : State) : State :=
  let s : State := { s with lif := { s.lif with
    tx := s.lif.tx.filter fun g => g.serial != f.serial
    attempt := none, failed := 0
    listenEnd := if f.frame.kind = 17 then some (s.elapsed + Config.listenUs) else s.lif.listenEnd } }
  (s.giveReport f true).loopBack f

/-- The frame in an attempt. -/
def Lif.attempted (l : Lif) : Option TxFrame :=
  l.attempt.bind fun n => l.tx.find? fun f => f.serial == n

/-- TX_SENT (R167). -/
def execTxSent (s : State) : Outcome :=
  .next (s.event fun s =>
    match s.lif.attempted with
    | some f => s.sent f
    | none => s)

/-- TX_CONTENTION_LOST (R164, R167): the frame stays at its place. -/
def execTxContentionLost (s : State) : Outcome :=
  .next (s.event fun s => { s with lif := { s.lif with attempt := none } })

/-- An error raises the failed-send count; at 128 the station enters LINE OFF (R168). -/
def State.countError (s : State) : State :=
  let s : State := { s with lif := { s.lif with attempt := none, failed := s.lif.failed + 1 } }
  if Config.failedLimit ≤ s.lif.failed then s.enterLineOff else s

/-- TX_ERROR (R167, R168): of the attempt, or in JOINING of none (R170, log 30). -/
def execTxError (s : State) : Outcome :=
  .next (s.event fun s =>
    if s.lif.attempt.isSome || s.lif.state = .joining then s.countError else s)

/-! ### The station state (R170, R176) -/

/-- LINE_ACTIVITY (R176): in LINE OFF the silence watch starts again. -/
def execLineActivity (s : State) : Outcome :=
  .next (s.event fun s =>
    if s.lif.state = .lineOff then
      { s with lif := { s.lif with silenceEnd := some (s.elapsed + Config.silenceUs) } }
    else s)

/-- LISTEN_END (R170): the station enters ON LINE. -/
def execListenEnd (s : State) : Outcome :=
  .next (s.event fun s =>
    match s.lif.state, s.lif.listenEnd with
    | .joining, some t => (s.advanceTo t).enterOnLine
    | _, _ => s)

/-- SILENCE_WATCH_END (R176): the station enters JOINING with start kind LINE. -/
def execSilenceWatchEnd (s : State) : Outcome :=
  .next (s.event fun s =>
    match s.lif.state, s.lif.silenceEnd with
    | .lineOff, some t => (s.advanceTo t).enterJoining .line
    | _, _ => s)

/-! ### JOIN (R174) -/

/-- OCC drops the joining station's settle receipts and clears its holds' pump and ask sequence (R174). -/
def State.receiptsOnJoin (n : Nat) (s : State) : State :=
  { s with occ := { s.occ with records := s.occ.records.map fun r => { r with
      receipts := r.receipts.filter fun x => x.station != n
      holds := r.holds.map fun h => if h.station = n then { h with pump := none, ask := none } else h } } }

/-- JOIN_FRAME (R174, R70, R22): from another station, with a start kind that has a meaning (R209). PWB takes
it first, then BAL, then OCC (R173, log 60). -/
def execJoinFrame (src : RxSource) (s : State) : Outcome :=
  .next (s.frameEvent 17 src fun f _ s =>
    if f.sender = s.me || !within 1 3 (f.num 2 1) then s
    else ((s.loansOnJoin f.sender).roundsOnJoin f.sender).receiptsOnJoin f.sender)

end Sys2Proof.Machine
end

