-- ==== Sys2Proof/Machine/Berths.lean ====
section
/-! DEFINITION. Berths and the allocation contest (01_berths_and_the_allocation_contest.md): the
requests, the contest frames with their reports, and the round timers. -/

namespace Sys2Proof.Machine

/-! ### Originating (R19) -/

/-- OCC has a free place (R6). -/
def State.occRoom (s : State) : Bool := s.occ.records.length < Config.maxRecords

/-- The round table has a free place (R10). -/
def State.roundRoom (s : State) : Bool := s.bal.rounds.length < Config.maxRounds

/-- An accepted REQUEST BERTH (R19 steps 1 to 5) under its tag. -/
def State.originate (t : Tag) (r : BerthRequest) (s : State) : State :=
  let note := s.lif.serial
  let a : Await := { tag := t, acceptedAt := s.elapsed, frame := note, deadline := none, best := none }
  let s : State := { s with bal := { s.bal with
    seq := t.seq, lastTag := some t, result := .pending, await := some a } }
  (s.queueFrame (berthRequestFrame s.me t.seq r)).openRound t r s.occRoom

/-- REQUEST_BERTH (R19). -/
def execRequestBerth (r : BerthRequest) (s : State) : Outcome :=
  .next (s.request 16 fun s =>
    if !s.onLine then (s, .refused .noLine)
    else if !requestInRange r then (s, .refused .range)
    else if s.bal.await.isSome then (s, .refused .busy)
    else if !s.roundRoom then (s, .refused .full)
    else
      let t : Tag := { station := s.me, seq := (s.bal.seq + 1) % 256 }
      (s.originate t r, .accepted false (u8 t.station ++ u8 t.seq)))

/-! ### Reading (R3, R21) -/

/-- A tag as two bytes. -/
def Tag.datum (t : Sys2Proof.Tag) : List Datum := u8 t.station ++ u8 t.seq

/-- A bid key: score, station. -/
def BidKey.datum (k : BidKey) : List Datum := u16 k.score ++ u8 k.station

/-- An ASSIGN's station, berth, occupancy number and score (R20). -/
def AssignHeard.datum (h : AssignHeard) : List Datum :=
  u8 h.key.station ++ u8 h.berth ++ u8 h.occupancy ++ u16 h.key.score

/-- The ASSIGN an origination shows: its result's, or the best held so far (R21). -/
def Bal.shown (b : Bal) : Option AssignHeard :=
  match b.result with
  | .wonHere h => some h
  | .assigned h => some h
  | .pending => b.await.bind Await.best
  | .none | .noBerth | .noLine => none

/-- The code of an origination result: NONE is 0 (11: 0 means none). -/
def Origination.code : Origination → Nat
  | .none => 0 | .pending => 1 | .wonHere _ => 2 | .assigned _ => 3 | .noBerth => 4 | .noLine => 5

/-- The origination's answer (R21): one optional group, station, berth, occupancy number and score, shows
the ASSIGN of every result that has one (log 47). -/
def Bal.originationD (b : Bal) : List Datum :=
  optD (u8 0 ++ u8 0) (b.lastTag.map Tag.datum) ++ u8 b.result.code ++
  optD (u8 0 ++ u8 0 ++ u8 0 ++ u16 0) (b.shown.map AssignHeard.datum)

/-- A round state's code, in R10's order; EMPTY is 0. -/
def RoundState.code : RoundState → Nat
  | .waiting => 1 | .bidQueued => 2 | .bidSent => 3 | .withdrawn => 4 | .lost => 5 | .noFit => 6
  | .won => 7

/-- One place of the round table, an empty one with state EMPTY (R21). -/
def roundD (now : Nat) (r : Option Round) : List Datum :=
  match r with
  | some r =>
    Tag.datum r.tag ++ u8 r.state.code ++ optD (u8 0) (r.candidate.map fun n => u8 n) ++
    optD (u16 0 ++ u8 0) (r.ownKey.map BidKey.datum) ++
    optD (u16 0 ++ u8 0) (r.best.map BidKey.datum) ++
    leftD now (if r.state = .won then r.watchEnd.getD r.windowEnd else r.windowEnd)
  | none =>
    u8 0 ++ u8 0 ++ u8 0 ++ optD (u8 0) none ++ optD (u16 0 ++ u8 0) none ++
    optD (u16 0 ++ u8 0) none ++ timeD ⟨0, 0⟩

/-- READ_ROUND (R21). -/
def execReadRound (n : Nat) (s : State) : Outcome :=
  .next (s.readRequest 17 fun s =>
    if 4 < n then .refused .range
    else if n = 0 then .done s.bal.originationD
    else .done (roundD s.elapsed s.bal.rounds[n - 1]?))

/-- The live record that covers a night of a berth (R2). -/
def State.coverer (s : State) (berth night : Nat) : Option Occupancy :=
  s.occ.records.find? fun r => r.berth == berth && r.covers night

/-- The derived state of a berth for a night (R2): FREE 1, BOOKED 2, OCCUPIED 3. -/
def berthStateCode (r : Option Occupancy) : Nat :=
  match r with
  | none => 1
  | some r => if r.state = .booked then 2 else 3

/-- The answer of READ BERTH (R3); its layout follows log 47 where R211 leaves it open. -/
def berthD (b : Berth) (r : Option Occupancy) : List Datum :=
  u8 b.number ++ u16 b.length ++ u8 b.width ++ u8 b.depth ++
  optD (u8 0) (b.point.map fun n => u8 n) ++ yn b.visitor ++ yn b.member ++ yn b.reserved ++
  optD (u8 0 ++ u8 0) (b.mark.map Tag.datum) ++ u8 (berthStateCode r) ++
  optD (u8 0 ++ u16 0 ++ u16 0) (r.map fun r => u8 r.number ++ u16 r.arrival ++ u16 r.nights)

/-- READ_BERTH (R3). -/
def execReadBerth (berth night : Nat) (s : State) : Outcome :=
  .next (s.readRequest 18 fun s =>
    if !within 1 48 berth || 59 < night then .refused .range
    else
      match s.berth? berth with
      | none => .refused .unknown
      | some b => .done (berthD b (s.coverer berth (s.today + night))))

/-! ### Contest frames (R11, R13, R15) -/

/-- A request taken for a tag not in the table (R11). Where R11 would have it ignored and a full table would
flag it at once, it is ignored (log 40). -/
def State.takeBerthRequest (t : Tag) (r : BerthRequest) (s : State) : State :=
  if !s.onLine || t.station = s.me || (s.round? t).isSome || !requestInRange r then s
  else if !s.roundRoom || !s.occRoom then s.setFlag .roundMissed
  else s.openRound t r true

/-- BERTH_REQUEST_FRAME (R11, R4). -/
def execBerthRequestFrame (src : RxSource) (s : State) : Outcome :=
  .next (s.frameEvent 15 src fun f _ s =>
    s.takeBerthRequest { station := f.sender, seq := f.keyField 0 8 } (unpackRequest (f.num 0 7)))

/-- A looped-back BID is the round's own only under the note of its BID (R14, R16, log 6). -/
def ownBid (r : Round) (note : Option Nat) : Bool :=
  match note with
  | some n => r.bidFrame == some n
  | none => true

/-- BID_FRAME (R13, R24): the key is the score in the identifier with the sender. -/
def execBidFrame (src : RxSource) (s : State) : Outcome :=
  .next (s.frameEvent 13 src fun f note s =>
    match s.round? { station := f.num 0 1, seq := f.num 1 1 } with
    | some r =>
      if ownBid r note then s.hearKey r { score := f.keyField 0 10, station := f.sender } else s
    | none => s)

/-- An ASSIGN for a round of the table (R15, R18). -/
def State.assignRound (t : Tag) (k : BidKey) (s : State) : State :=
  match s.round? t with
  | none => s
  | some r =>
    if r.state = .won then
      match r.ownKey with
      | some own => if k.lt own then s.loseDouble r else s
      | none => s
    else s.hearKey r k

/-- ASSIGN_FRAME (R15, R18, R20, R24). -/
def execAssignFrame (src : RxSource) (s : State) : Outcome :=
  .next (s.frameEvent 14 src fun f _ s =>
    let t : Tag := { station := f.num 0 1, seq := f.num 1 1 }
    let k : BidKey := { score := f.num 2 2, station := f.sender }
    (s.assignRound t k).awaitHear t { key := k, berth := f.num 4 1, occupancy := f.num 5 1 })

/-! ### Reports (R14, R17, R20) -/

/-- The outcome of a BID still queued for its round (R14). -/
def State.bidOutcome (r : Round) (sent : Bool) (s : State) : State :=
  if r.state != .bidQueued then s
  else if sent then
    s.modRound r.tag fun x => { x with
      state := .bidSent
      best := match x.ownKey with | some k => some (lowerKey x.best k) | none => x.best }
  else (s.modRound r.tag fun x => { x with state := .withdrawn }).clearMark r.tag

/-- BID_REPORT (R14). -/
def execBidReport (s : State) : Outcome :=
  .next (s.reportEvent 13 fun rep s =>
    match s.bal.rounds.find? fun r => r.bidFrame == some rep.serial with
    | some r => s.bidOutcome r rep.sent
    | none => s)

/-- The deadline of an await by the outcome of its BERTH REQUEST (R20). -/
def State.awaitDeadline (s : State) (a : Await) (sent : Bool) : Nat :=
  (if sent then s.elapsed else a.acceptedAt) + s.settings.window * 1000 + Config.watchUs

/-- BERTH_REQUEST_REPORT (R20). -/
def execBerthRequestReport (s : State) : Outcome :=
  .next (s.reportEvent 15 fun rep s =>
    match s.bal.await with
    | some a =>
      if a.frame = rep.serial then
        { s with bal := { s.bal with await := some { a with deadline := some (s.awaitDeadline a rep.sent) } } }
      else s
    | none => s)

/-- ASSIGN_REPORT (R17): whatever the outcome, the booking stands and no second ASSIGN follows. -/
def execAssignReport (s : State) : Outcome := .next (s.reportEvent 14 fun _ s => s)

/-! ### Timers (R14, R16, R18, R20) -/

/-- BID_DELAY_END (R14). -/
def execBidDelayEnd (t : Tag) (s : State) : Outcome :=
  .next (s.event fun s =>
    match s.round? t with
    | some r =>
      match r.state, r.delayEnd with
      | .waiting, some d => (s.advanceTo d).endDelay r
      | _, _ => s
    | none => s)

/-- A round at its window end (R16, R17). -/
def State.endWindow (r : Round) (s : State) : State :=
  if r.state = .bidSent && r.ownKey.isSome && r.best == r.ownKey then s.winRound r
  else s.discardRound r

/-- WINDOW_END (R16, R17). -/
def execWindowEnd (t : Tag) (s : State) : Outcome :=
  .next (s.event fun s =>
    match s.round? t with
    | some r => if r.state = .won then s else (s.advanceTo r.windowEnd).endWindow r
    | none => s)

/-- WATCH_END (R18): a WON round leaves the table and its occupancy stays. -/
def execWatchEnd (t : Tag) (s : State) : Outcome :=
  .next (s.event fun s =>
    match s.round? t with
    | some r =>
      if r.state = .won then (s.advanceTo (r.watchEnd.getD r.windowEnd)).discardRound r else s
    | none => s)

/-- AWAIT_DEADLINE (R20). -/
def execAwaitDeadline (s : State) : Outcome :=
  .next (s.event fun s =>
    match s.bal.await with
    | some a =>
      match a.deadline with
      | some d => (s.advanceTo d).endAwait (s.awaitResult a)
      | none => s
    | none => s)

end Sys2Proof.Machine
end

