-- ==== Sys2Proof/Machine/Stays.lean ====
section
/-! DEFINITION. Occupancy records and accounts (02_occupancy_records_and_accounts.md): the panel
requests on records, accounts and credentials, and the hold, settle and bind frames. -/

namespace Sys2Proof.Machine

/-- A request that names an occupancy: RANGE outside 1-64, UNKNOWN with no record (R28). -/
def State.occRequest (code n : Nat) (body : Occupancy → State → State × Reply) (s : State) : State :=
  s.request code fun s =>
    if !within 1 64 n then (s, .refused .range)
    else
      match s.occ? n with
      | none => (s, .refused .unknown)
      | some r => body r s

/-! ### Booking, arrival and departure (R27 to R30) -/

/-- The stay a BOOK asks for (R27). -/
def stayOf (v : BookParams) (today : Nat) : NewStay :=
  { berth := v.berth, length := v.length, beam := v.beam, draft := v.draft, cls := classOf v.cls,
    arrival := today + v.offset, nights := v.nights, origin := none, power := v.power == 1,
    rating := v.rating, three := v.three == 1 }

/-- BOOK (R27). -/
def execBook (v : BookParams) (s : State) : Outcome :=
  .next (s.request 19 fun s =>
    if !bookInRange v then (s, .refused .range)
    else if (s.berth? v.berth).isNone then (s, .refused .unknown)
    else if !s.occRoom then (s, .refused .full)
    else
      match s.createOcc (stayOf v s.today) with
      | none => (s, .refused .state)
      | some (n, s) => (s, .done (u8 n)))

/-- CANCEL (R28). -/
def execCancel (occ : Nat) (s : State) : Outcome :=
  .next (s.occRequest 20 occ fun r s =>
    if r.state = .booked && r.closureDue.isNone then (s.removeOcc occ, .done [])
    else (s, .refused .state))

/-- ARRIVE (R29). -/
def execArrive (occ : Nat) (s : State) : Outcome :=
  .next (s.occRequest 21 occ fun r s =>
    if r.state = .booked && r.closureDue.isNone && r.arrival ≤ s.today && s.today < r.departureDay then
      (s.toAlongside occ, .done [])
    else (s, .refused .state))

/-- DEPART (R30). -/
def execDepart (occ : Nat) (s : State) : Outcome :=
  .next (s.occRequest 22 occ fun r s =>
    if r.state = .alongside then (s.toDeparting occ, .done []) else (s, .refused .state))

/-! ### Reading (R49, R35) -/

def BoatClass.code : BoatClass → Nat
  | .visitor => 1 | .member => 2 | .seasonal => 3

def OccState.code : OccState → Nat
  | .booked => 1 | .alongside => 2 | .departing => 3

def AccountState.code : AccountState → Nat
  | .open_ => 1 | .low => 2 | .overdue => 3 | .barred => 4

/-- Closure due as a record shows it: NO-SHOW 1, ORPHAN 2, 0 absent (R25). -/
def closureDueCode (c : Option CloseReason) : Nat :=
  match c with
  | some .noShow => 1
  | some .orphan => 2
  | _ => 0

/-- A reason as a closure record gives it (R34). -/
def CloseReason.code : CloseReason → Nat
  | .departed => 1 | .noShow => 2 | .orphan => 3

/-- A credential without its PIN (R49). -/
def Credential.datum (c : Credential) : List Datum :=
  card5 c.card ++ yn c.pin.isSome ++ u8 c.count ++ yn c.locked ++
    optD (timeD ⟨0, 0⟩) (c.waiver.map timeD)

/-- The widths of a credential, for an absent one. -/
def Credential.zero : List Datum :=
  card5 0 ++ u8 0 ++ u8 0 ++ u8 0 ++ optD (timeD ⟨0, 0⟩) none

/-- A profile by the values of its groups (R94): rating code, three phases, tap 0 open or 1 closed. -/
def Profile.datum (p : Profile) : List Datum :=
  u8 p.rating ++ yn p.three ++ u8 (if p.tapOpen then 0 else 1)

/-- A hold as READ OCCUPANCY gives it (R49). -/
def Hold.datum (h : Hold) : List Datum :=
  u8 h.id ++ u8 h.station ++ optD (u8 0) (h.pump.map fun n => u8 n) ++ u32 h.amount ++ timeD h.expiry

/-- A settle receipt (R42). -/
def Receipt.datum (r : Receipt) : List Datum :=
  u8 r.station ++ u8 r.hold ++ u16 r.sale ++ u8 r.result.code

/-- The account and the available amount (R49, R33). -/
def Occupancy.accountD (r : Occupancy) : List Datum :=
  i32 r.account.balance ++ u32 r.account.limit ++ i32 r.account.warn ++ u8 r.account.state.code ++
  optD (timeD ⟨0, 0⟩) (r.account.overdueSince.map timeD) ++ yn r.account.late ++ i32 r.available

/-- Every field of a record (R49), the departure day given by its arrival day and nights (log 12). -/
def Occupancy.datum (r : Occupancy) : List Datum :=
  u8 r.number ++ u8 r.berth ++ u16 r.length ++ u8 r.beam ++ u8 r.draft ++ u8 r.cls.code ++
  u16 r.arrival ++ u16 r.nights ++ u8 r.state.code ++
  optD (u8 0 ++ u8 0) (r.origin.map Tag.datum) ++ u8 (closureDueCode r.closureDue) ++
  optD Credential.zero (r.credential.map Credential.datum) ++ r.accountD ++
  listD (r.holds.map Hold.datum) ++ listD (r.receipts.map Receipt.datum) ++
  optD (u8 0 ++ u8 0 ++ u8 0) (r.profile.map Profile.datum) ++
  optD (timeD ⟨0, 0⟩) (r.graceEnd.map timeD) ++ yn r.awaiting

/-- READ_OCCUPANCY (R49). -/
def execReadOccupancy (occ : Nat) (s : State) : Outcome :=
  .next (s.occRequest 23 occ fun r s => (s, .done r.datum))

/-- A closure record (R34). -/
def Closure.datum (c : Closure) : List Datum :=
  u8 c.occupancy ++ u8 c.berth ++ u8 c.cls.code ++ u16 c.arrival ++ u16 c.nights ++ u8 c.reason.code ++
  timeD c.closedAt ++ i32 c.balance ++ yn c.late ++ u32 c.energy ++ u32 c.water

/-- The widths of a closure record, for an empty list. -/
def Closure.zero : List Datum :=
  u8 0 ++ u8 0 ++ u8 0 ++ u16 0 ++ u16 0 ++ u8 0 ++ timeD ⟨0, 0⟩ ++ u32 0 ++ u8 0 ++ u32 0 ++ u32 0

/-- CLOSURE_READ (R35): the oldest record, or the empty mark. -/
def execClosureRead (s : State) : Outcome :=
  .next (s.readRequest 24 fun s => .done (optD Closure.zero (s.occ.closures.head?.map Closure.datum)))

/-- CLOSURE_COLLECT (R35): the oldest record goes and the waiting closures are retried. -/
def execClosureCollect (s : State) : Outcome :=
  .next (s.request 25 fun s =>
    match s.occ.closures with
    | [] => (s, .ignored)
    | _ :: rest => (({ s with occ := { s.occ with closures := rest } } : State).retryClosures, .done []))

/-! ### Accounts (R39) -/

/-- An account changed by its record's number. -/
def State.modAccount (n : Nat) (f : Account → Account) (s : State) : State :=
  s.modOcc n fun r => { r with account := f r.account }

/-- The new balance and state an account request answers with. -/
def State.accountAnswer (s : State) (n : Nat) (balance : Bool) : List Datum :=
  match s.occ? n with
  | some r => (if balance then i32 r.account.balance else []) ++ u8 r.account.state.code
  | none => []

/-- A TOP UP in range: the balance rises, R33 follows, and a BARRED account at 0 or above leaves
BARRED (R39, R37). -/
def State.topUp (n amount : Nat) (r : Occupancy) (s : State) : State :=
  let new := r.account.balance + amount
  let s := (s.modAccount n fun a => { a with balance := new }).computeStanding n
  if r.account.state = .barred && 0 ≤ new then s.leaveBarred n else s

/-- TOP_UP (R39). -/
def execTopUp (occ amount : Nat) (s : State) : Outcome :=
  .next (s.occRequest 31 occ fun r s =>
    if amount = 0 || Config.balanceMax < amount || Config.balanceMax < r.account.balance + amount then
      (s, .refused .range)
    else
      let s := s.topUp occ amount r
      (s, .done (s.accountAnswer occ true)))

/-- SET_LIMIT (R39): keep mark bit 0 keeps the limit, bit 1 the warn level (R210). -/
def execSetLimit (occ keep limit : Nat) (warn : Int) (s : State) : Outcome :=
  .next (s.occRequest 32 occ fun _ s =>
    let keepLimit := keep % 2 == 1
    let keepWarn := keep / 2 % 2 == 1
    if (!keepLimit && 10000000 < limit) || (!keepWarn && (warn < -10000000 || 10000000 < warn)) then
      (s, .refused .range)
    else
      let s := (s.modAccount occ fun a => { a with
        limit := if keepLimit then a.limit else limit
        warn := if keepWarn then a.warn else warn }).computeStanding occ
      (s, .done (s.accountAnswer occ false)))

/-- BAR (R39, R37). -/
def execBar (occ : Nat) (s : State) : Outcome :=
  .next (s.occRequest 33 occ fun r s =>
    if r.account.state = .barred then (s, .refused .state) else (s.enterBarred occ, .done []))

/-- UNBAR (R39, R37). -/
def execUnbar (occ : Nat) (s : State) : Outcome :=
  .next (s.occRequest 34 occ fun r s =>
    if r.account.state ≠ .barred then (s, .refused .state)
    else if r.account.balance < -(r.account.limit : Int) then (s, .refused .funds)
    else (s.leaveBarred occ, .done []))

/-! ### Credentials (R44 to R48) -/

/-- BIND_CARD (R44). -/
def execBindCard (occ card : Nat) (s : State) : Outcome :=
  .next (s.request 26 fun s =>
    if !within 1 64 occ || !cardOk card then (s, .refused .range)
    else if (s.occ? occ).isNone then (s, .refused .unknown)
    else if s.cardTaken occ card then (s, .refused .state)
    else (s.bindCard occ card, .done []))

/-- CARD_BIND_FRAME (R45): ignored with no such record or card id 0, else a conflict or a binding. -/
def execCardBindFrame (src : RxSource) (s : State) : Outcome :=
  .next (s.frameEvent 16 src fun f _ s =>
    let occ := f.keyField 5 7
    let card := f.num 0 5
    if (s.occ? occ).isNone || card = 0 then s
    else if s.cardTaken occ card then s.setFlag .bindConflict
    else s.bindCard occ card)

/-- SET_PIN (R46). -/
def execSetPin (occ : Nat) (pin : PinField) (s : State) : Outcome :=
  .next (s.occRequest 27 occ fun r s =>
    match r.credential with
    | none => (s, .refused .state)
    | some c =>
      match pinDigits pin with
      | none => (s, .refused .range)
      | some d =>
        if c.pin.isSome then (s, .refused .state)
        else (s.modCredential occ fun c => { c with pin := some d }, .done []))

/-- The old PIN does not match: a wrong PIN is counted, and the request is refused (R46, R47). -/
def State.wrongOldPin (occ : Nat) (c : Credential) (s : State) : State × Reply :=
  (s.wrongPin occ, .refused (if !c.locked && c.wrongPin.locked then .locked else .state))

/-- CHANGE_PIN (R46, R47). -/
def execChangePin (occ : Nat) (old new : PinField) (s : State) : Outcome :=
  .next (s.occRequest 28 occ fun r s =>
    match r.credential with
    | none => (s, .refused .state)
    | some c =>
      match pinDigits new with
      | none => (s, .refused .range)
      | some d =>
        if c.pin.isNone then (s, .refused .state)
        else if c.locked then (s, .refused .locked)
        else if pinDigits old = c.pin then
          (s.modCredential occ fun c => { c with pin := some d, count := 0 }, .done [])
        else s.wrongOldPin occ c)

/-- CLEAR_PIN (R48). -/
def execClearPin (occ : Nat) (s : State) : Outcome :=
  .next (s.occRequest 29 occ fun r s =>
    if r.credential.isNone then (s, .refused .state)
    else (s.modCredential occ fun c => { c with pin := none, locked := false, count := 0, waiver := none },
          .done []))

/-- UNLOCK (R48). -/
def execUnlock (occ : Nat) (s : State) : Outcome :=
  .next (s.occRequest 30 occ fun r s =>
    if r.credential.isNone then (s, .refused .state)
    else (s.modCredential occ fun c => { c with locked := false, count := 0 }, .done []))

/-! ### Holds and settlements (R41 to R43) -/

/-- The cause that refuses a HOLD ASK (R41). -/
def State.holdRefusal (s : State) (r : Occupancy) (amount : Nat) : Option HoldCause :=
  if r.state = .booked || r.closureDue.isSome then some .state
  else if (match r.credential with | some c => c.locked | none => false) then some .locked
  else if r.account.state = .overdue || r.account.state = .barred then some .funds
  else if r.available < amount then some .funds
  else if Config.maxHolds ≤ r.holds.length || s.nextHoldId.isNone then some .holds
  else none

/-- The hold a repeated ask finds (R41). -/
def Occupancy.repeatedHold (r : Occupancy) (station pump ask : Nat) : Option Hold :=
  r.holds.find? fun h => h.station == station && h.pump == some pump && h.ask == some ask

/-- An ask that finds its card (R41): a repeat, a refusal, or a hold placed and answered OK. -/
def State.answerHold (r : Occupancy) (station pump ask amount : Nat) (s : State) : State :=
  match r.repeatedHold station pump ask with
  | some h => s.queueFrame (holdOkFrame s.me station pump ask h.id r.number)
  | none =>
    match s.holdRefusal r amount with
    | some c => s.queueFrame (holdRefusedFrame s.me station pump ask c)
    | none =>
      let id := s.nextHoldId.getD 0
      (s.placeHold r.number id station pump ask amount).queueFrame
        (holdOkFrame s.me station pump ask id r.number)

/-- HOLD_ASK_FRAME (R41): nothing is sent for a card no record holds or an amount out of range. The pump of
its key is taken as it stands, 0 and 3 included (log 49). -/
def execHoldAskFrame (src : RxSource) (s : State) : Outcome :=
  .next (s.frameEvent 9 src fun f _ s =>
    match s.cardHolder (f.num 0 5) with
    | some r =>
      if within 100 500000 (f.num 5 3) then
        s.answerHold r f.sender (f.keyField 0 2) (f.keyField 2 8) (f.num 5 3)
      else s
    | none => s)

/-- A settle receipt added to a record (R42). -/
def State.giveReceipt (n : Nat) (rc : Receipt) (s : State) : State :=
  s.modOcc n fun r => { r with receipts := addReceipt rc r.receipts }

/-- A SETTLE for a live record that holds no receipt of it (R42). -/
def State.settleRecord (r : Occupancy) (station hold sale amount : Nat) (s : State) : State × SettleResult :=
  if r.holds.any fun h => h.id == hold && h.station == station then
    let s := ((s.debit r.number amount).dropHold r.number hold).giveReceipt r.number
      ⟨station, hold, sale, .applied⟩
    (s.testRemoval r.number, .applied)
  else
    let s := if amount = 0 then s
      else ((s.debit r.number amount).modAccount r.number fun a => { a with late := true }).setFlag
        .lateSettle
    (s.giveReceipt r.number ⟨station, hold, sale, .lateApplied⟩, .lateApplied)

/-- What a SETTLE comes to (R42). -/
def State.settleCase (occ station hold sale amount : Nat) (s : State) : State × SettleResult :=
  match s.occ? occ with
  | none => (s, .unknown)
  | some r =>
    match r.receipts.find? fun x => x.station == station && x.hold == hold && x.sale == sale with
    | some x => (s, x.result)
    | none => s.settleRecord r station hold sale amount

/-- SETTLE_FRAME (R42): each SETTLE is answered with a SETTLE ANSWER. -/
def execSettleFrame (src : RxSource) (s : State) : Outcome :=
  .next (s.frameEvent 11 src fun f _ s =>
    let hold := f.keyField 5 8
    let x := s.settleCase (f.num 3 1) f.sender hold (f.num 4 2) (f.num 0 3)
    x.1.queueFrame (settleAnswerFrame x.1.me f.sender hold x.2))

/-- HOLD_EXPIRY (R43): OCC takes no lapse in UNCONFIGURED (R201). -/
def execHoldExpiry (occ hold : Nat) (s : State) : Outcome :=
  .next (s.event fun s =>
    if s.unconfigured then s
    else
      match (s.occ? occ).bind fun r => r.holds.find? fun h => h.id == hold with
      | some h => (s.advanceToTime h.expiry).lapseHold occ hold
      | none => s)

end Sys2Proof.Machine
end

