-- ==== Sys2Proof/Machine/Points.lean ====
section
/-! DEFINITION. Service points (04_service_points_outlets_water_and_metering.md): READ POINT, the
profile requests, OUTLET RESET, OCC's notices, the poll and the fault grace. -/

namespace Sys2Proof.Machine

/-! ### Notices (R78 to R80) -/

/-- ALONGSIDE_NOTICE (R78). -/
def execAlongsideNotice (occ : Nat) (s : State) : Outcome :=
  .next (s.noticeEvent .alongside occ fun _ n r s => s.spcArrive n r)

/-- DEPARTING_NOTICE (R79). -/
def execDepartingNotice (occ : Nat) (s : State) : Outcome :=
  .next (s.noticeEvent .departing occ fun m n _ s => s.spcDepart n occ m)

/-- BARRED_NOTICE (R80). -/
def execBarredNotice (occ : Nat) (s : State) : Outcome :=
  .next (s.noticeEvent .barred occ fun _ n r s => s.spcBar n r)

/-- UNBARRED_NOTICE (R80). -/
def execUnbarredNotice (occ : Nat) (s : State) : Outcome :=
  .next (s.noticeEvent .unbarred occ fun _ n r s => s.spcUnbar n r)

/-! ### The poll (R82 to R85) -/

/-- POLL_CYCLE_START (R82): one cycle at a time. -/
def execPollCycleStart (s : State) : Outcome :=
  .next (s.event fun s =>
    if s.spc.poll.isSome || !s.spc.toPoll.isEmpty then s
    else (s.advanceTo s.spc.nextCycle).startCycle)

/-- A report that ends the open poll within its 50 ms: disregarded in UNCONFIGURED, else good or bad
(R82, R83). -/
def State.takeReport (p : OpenPoll) (r : PostReport) (s : State) : State :=
  if p.allOff then s
  else if r.post.toNat = p.post && reportCheckOk r then s.acceptReport p r
  else s.badPoll p.post

/-- POST_REPORT (R83): one that arrives with no poll open or after its 50 ms is discarded. -/
def execPostReport (r : PostReport) (s : State) : Outcome :=
  .next (s.event fun s =>
    match s.spc.poll with
    | some p => if s.elapsed ≤ p.sentAt + Config.pollUs then (s.takeReport p r).nextPoll else s
    | none => s)

/-- POLL_TIMEOUT (R84). -/
def execPollTimeout (s : State) : Outcome :=
  .next (s.event fun s =>
    match s.spc.poll with
    | some p =>
      let s := s.advanceTo (p.sentAt + Config.pollUs)
      (if p.allOff then s else s.badPoll p.post).nextPoll
    | none => s)

/-- A post in FAULT becomes DOWN: its outlets go FAULT-OFF together, and then PWB goes on (R85). -/
def State.postFails (n : Nat) (s : State) : State :=
  let t := s.modPost n fun q => { q with state := .down }
  (((t.faultOutlet (sideA n)).faultOutlet (sideB n)).settleSince s).setFlag .outletFaultOff

/-- FAULT_GRACE_END (R85). -/
def execFaultGraceEnd (post : Nat) (s : State) : Outcome :=
  .next (s.event fun s =>
    match s.post? post with
    | some q =>
      match q.state, q.faultStart with
      | .fault, some t => (s.advanceTo (t + s.settings.faultGrace * 1000000)).postFails post
      | _, _ => s
    | none => s)

/-! ### OUTLET RESET (R93) -/

/-- A reset outlet takes a new state by the occupancy charged at its point (R93). -/
def State.resetOutlet (n : Nat) (s : State) : State :=
  match s.charged n with
  | some r =>
    if r.state = .alongside then
      if r.account.state = .barred then s.setOutlet n .heldOff else s.callEnergise n r
    else s.setOutlet n .off
  | none => s.setOutlet n .off

/-- OUTLET_RESET (R93). -/
def execOutletReset (point : Nat) (s : State) : Outcome :=
  .next (s.request 44 fun s =>
    if !within 1 32 point then (s, .refused .range)
    else
      match s.point? point with
      | none => (s, .refused .unknown)
      | some p =>
        if p.outlet = .tripped && p.tripAck then (s.resetOutlet point, .done [])
        else (s, .refused .state))

/-! ### Profiles (R94 to R98) -/

/-- The three result values of a profile request (R94). -/
structure ProfileResult where
  rating : Nat
  phases : Nat
  tap    : Nat
  deriving DecidableEq, Repr

/-- The result values of three group values at a point (R94). -/
def profileResult (p : Point) (q : Profile) (g1 g2 g3 : Nat) : ProfileResult :=
  { rating := groupRating p.maxRating q.rating g1, phases := groupPhases p.three q.three g2,
    tap := groupTap p.tapFitted q.tapOpen g3 }

/-- Every group is valid (R94). -/
def ProfileResult.valid (r : ProfileResult) : Bool := r.rating != 15 && r.phases != 15 && r.tap != 15

/-- The profile a valid result gives. -/
def ProfileResult.profile (r : ProfileResult) : Profile :=
  { rating := r.rating, three := r.phases == 1, tapOpen := r.tap == 0 }

/-- The load figure of a result, 0 when a group is invalid (R94). -/
def ProfileResult.figure (r : ProfileResult) : Nat := if r.valid then r.profile.figure else 0

/-- The result values as an answer carries them. -/
def ProfileResult.datum (r : ProfileResult) : List Datum := u8 r.rating ++ u8 r.phases ++ u8 r.tap

/-- The verdicts of PROFILE CHECK (R95). -/
inductive Verdict where
  | exceedsOutlet | fits | needsLoan
  deriving DecidableEq, Repr

def Verdict.code : Verdict → Nat
  | .exceedsOutlet => 1 | .fits => 2 | .needsLoan => 3

/-- The verdict of a result at a point (R95). -/
def State.verdict (s : State) (n : Nat) (r : ProfileResult) : Verdict :=
  if !r.valid then .exceedsOutlet
  else if (r.figure : Int) - s.outletFigure n ≤ s.spare then .fits
  else .needsLoan

/-- A group's supported values and its result (R95). -/
def groupD (supported : List Nat) (result : Nat) : List Datum :=
  listD (supported.map fun n => u8 n) ++ u8 result

/-- The answer of PROFILE CHECK (R95). -/
def State.checkAnswer (s : State) (p : Point) (r : ProfileResult) : List Datum :=
  groupD (List.range (p.maxRating + 1)) r.rating ++
  groupD (if p.three then [0, 1] else [0]) r.phases ++
  groupD (if p.tapFitted then [0, 1] else [1]) r.tap ++
  u8 r.figure ++ u8 (s.verdict p.number r).code

/-- A profile request: STATE for a record with no profile (R95, R96). -/
def State.profileRequest (code occ : Nat)
    (body : Occupancy → Point → Profile → State → State × Reply) (s : State) : State :=
  s.occRequest code occ fun r s =>
    match (s.berthPoint r.berth).bind s.point?, r.profile with
    | some p, some q => body r p q s
    | _, _ => (s, .refused .state)

/-- PROFILE_CHECK (R95). -/
def execProfileCheck (occ g1 g2 g3 : Nat) (s : State) : Outcome :=
  .next (s.profileRequest 42 occ fun _ p q s =>
    (s, .done (s.checkAnswer p (profileResult p q g1 g2 g3))))

/-- The new figure of an outlet told to PWB: in its place of the energised list, where a fall of G
follows, or of the shed list (R97). -/
def State.tellFigure (p : Point) (figure : Nat) (s : State) : State :=
  let upd := modifyKey OutletLoad.point p.number fun e => { e with figure := figure }
  if p.outlet = .on then
    let lower := decide (figure < s.outletFigure p.number)
    let s : State := { s with pwb := { s.pwb with energised := upd s.pwb.energised } }
    if lower then s.settle else s
  else if p.outlet = .shed then { s with pwb := { s.pwb with shed := upd s.pwb.shed } }
  else s

/-- A PROFILE SET that is not a raise (R97). -/
def State.applyProfile (occ : Nat) (p : Point) (q : Profile) (s : State) : State :=
  let s := s.modOcc occ fun r => { r with profile := some q }
  if p.charging = some occ then (s.tellFigure p q.figure).followTap p.number else s

/-- A PROFILE SET that is a raise (R98): PENDING, and a RAISE joins PWB's queue. -/
def State.beginRaise (p : Point) (q : Profile) (need : Nat) (s : State) : State :=
  let s := s.modPoint p.number fun x => { x with raisePending := some q, raiseLast := .none }
  let wasEmpty := s.pwb.demands.isEmpty
  let s := s.appendDemand .raise p.number need
  if wasEmpty then s.settle else s

/-- The first cause that refuses a PROFILE SET with a valid result (R96). -/
def State.profileRefusal (s : State) (r : Occupancy) (p : Point) (old new : Profile) : Option Cause :=
  if r.state ≠ .alongside || p.arrivals.contains r.number then some .state
  else if r.account.state = .barred then some .funds
  else if r.account.state = .overdue && old.figure < new.figure then some .funds
  else if p.raisePending.isSome then some .busy
  else if s.demandQueued p.number && (new.rating != old.rating || new.three != old.three) then some .busy
  else none

/-- A PROFILE SET that passes every test of R96: a raise only of an outlet ON for this occupancy, the one
charged at the point (log 45). -/
def State.setProfile (occ : Nat) (p : Point) (old new : Profile) (s : State) : State × Reply :=
  if p.outlet = .on && p.charging = some occ && old.figure < new.figure then
    if s.queueFull then (s, .refused .busy)
    else (s.beginRaise p new (new.figure - old.figure), .accepted false [])
  else (s.applyProfile occ p new, .done (new.datum ++ u8 new.figure))

/-- PROFILE_SET (R96 to R98). -/
def execProfileSet (occ g1 g2 g3 : Nat) (s : State) : Outcome :=
  .next (s.profileRequest 43 occ fun r p q s =>
    let x := profileResult p q g1 g2 g3
    if !x.valid then (s, .refusedWith .range x.datum)
    else
      match s.profileRefusal r p q x.profile with
      | some c => (s, .refused c)
      | none => s.setProfile occ p q x.profile)

/-! ### READ POINT (R99) -/

def OutletState.code : OutletState → Nat
  | .off => 1 | .on => 2 | .shed => 3 | .heldOff => 4 | .tripped => 5 | .faultOff => 6

def PostState.code : PostState → Nat
  | .good => 1 | .fault => 2 | .down => 3

/-- The berth that names a point. -/
def State.pointBerth (s : State) (n : Nat) : Option Nat :=
  (s.bal.berths.find? fun b => b.point == some n).map Berth.number

/-- The post of a point as READ POINT shows it (R99), the time since its fault start laid out as a time
left (log 47). -/
def State.postD (s : State) (n : Nat) : List Datum :=
  match s.post? (postOf n) with
  | some q =>
    u8 q.state.code ++ u8 q.bad ++
      optD (timeD ⟨0, 0⟩) (q.faultStart.map fun t => leftD t s.elapsed)
  | none => u8 0 ++ u8 0 ++ optD (timeD ⟨0, 0⟩) none

/-- A meter link: occupancy, totals and residues (R99). -/
def Link.datum (l : Link) : List Datum :=
  u8 l.occ ++ u32 l.energy ++ u32 l.water ++ u16 l.energyRes ++ u16 l.waterRes

/-- The raise of a point: 1 PENDING, 2 APPLIED, 3 BUDGET, 0 none, with the result profile (R99). -/
def Point.raiseD (p : Point) : List Datum :=
  (match p.raisePending, p.raiseLast with
   | some _, _ => u8 1
   | none, .applied => u8 2
   | none, .budget => u8 3
   | none, .none => u8 0) ++
  optD (u8 0 ++ u8 0 ++ u8 0) (p.raisePending.map Profile.datum)

/-- The final-reading mark READ POINT shows: the point's own, else the first of a retained record that
waits there (R99, R100). -/
def Point.shownMark (p : Point) : Option FinalMark :=
  match p.finalMark with
  | some m => some m
  | none => p.retained.head?.map RetainedFinal.mark

/-- The rating and phases commanded at a point: code 0 and single phase with no occupancy charged there
(log 42). -/
def State.commandedD (s : State) (n : Nat) : List Datum :=
  match (s.charged n).bind Occupancy.profile with
  | some q => u8 q.rating ++ yn q.three
  | none => u8 0 ++ yn false

/-- The answer of READ POINT (R99). -/
def State.pointAnswer (s : State) (p : Point) : List Datum :=
  u8 p.number ++ u8 p.maxRating ++ yn p.three ++ yn p.tapFitted ++
  optD (u8 0) ((s.pointBerth p.number).map fun n => u8 n) ++
  u8 p.outlet.code ++ yn (s.demandQueued p.number) ++ s.commandedD p.number ++
  u8 (if p.tapOpen then 1 else 2) ++ yn p.leakMark ++
  s.postD p.number ++ yn p.tripAck ++
  optD (u32 0) (p.energyBase.map fun n => u32 n) ++ optD (u32 0) (p.waterBase.map fun n => u32 n) ++
  optD (timeD ⟨0, 0⟩) (p.lastTime.map timeD) ++ u8 p.interval ++ yn p.tapMark ++
  optD (u8 0 ++ u32 0 ++ u32 0 ++ u16 0 ++ u16 0) ((p.charging.bind s.link?).map Link.datum) ++
  optD (timeD ⟨0, 0⟩) (p.shownMark.map fun m => timeD m.time) ++ listD (p.arrivals.map fun n => u8 n) ++ p.raiseD

/-- READ_POINT (R99). -/
def execReadPoint (point : Nat) (s : State) : Outcome :=
  .next (s.readRequest 41 fun s =>
    if !within 1 32 point then .refused .range
    else
      match s.point? point with
      | none => .refused .unknown
      | some p => .done (s.pointAnswer p))

end Sys2Proof.Machine
end

