-- ==== Sys2Proof/Machine/Power.lean ====
section
/-! DEFINITION. The power budget and loans (03_the_power_budget_and_loans.md): READ LOANS, the loan
frames, LIF's reports on them, and PWB's deadlines. -/

namespace Sys2Proof.Machine

/-! ### READ LOANS (R73) -/

def LoanState.code : LoanState → Nat
  | .pledged => 1 | .active => 2 | .recalled => 3

def DemandKind.code : DemandKind → Nat
  | .energise => 1 | .raise => 2 | .pump => 3

/-- A loan place, an empty one as zeros: direction 1 IN, 2 OUT. -/
def loanD (now : Nat) (l : Option Loan) : List Datum :=
  match l with
  | some l =>
    u8 l.partner ++ u8 (if l.lent then 2 else 1) ++ u16 l.amount ++ u8 l.state.code ++ u8 l.pledge ++
    optD (u16 0) (l.addition.map fun n => u16 n) ++ leftOpt now l.deadline
  | none =>
    u8 0 ++ u8 0 ++ u16 0 ++ u8 0 ++ u8 0 ++ optD (u16 0) none ++ leftOpt now none

/-- What the head waits for: 1 a recall, 2 its ask, 3 a collection of an earlier ask; 0 nothing. -/
def State.headWait (s : State) : Nat :=
  match s.pwb.demands with
  | [] => 0
  | d :: _ =>
    match s.pwb.collection with
    | some c => if c.demand = d.id then 2 else 3
    | none => if s.recallsOut d then 1 else 0

/-- The ask state (R73). -/
def Collection.datum (now : Nat) (c : Collection) : List Datum :=
  u8 c.seq ++ u16 c.amount ++ listD (c.offers.map fun o => u8 o.lender ++ u16 o.amount) ++
    leftOpt now c.closeAt

/-- The answer of READ LOANS (R73); the shed list's front figure and the time left to a close not yet timed
have presence bytes of their own (log 47). -/
def State.loansAnswer (s : State) : List Datum :=
  u16 s.settings.baseShare ++ [⟨2, s.ceiling⟩] ++ [⟨2, s.ownCeiling⟩] ++ u16 s.load ++
  u8 s.pumpLoads ++ u8 s.settings.keepMargin ++
  ((List.range 16).flatMap fun i => loanD s.elapsed s.pwb.loans[i]?) ++
  listD (s.pwb.demands.map fun d => u8 d.kind.code ++ u8 d.source ++ u8 d.need) ++ u8 s.headWait ++
  optD (u8 0 ++ u16 0 ++ u8 0 ++ leftOpt 0 none) (s.pwb.collection.map (Collection.datum s.elapsed)) ++
  u8 s.pwb.shed.length ++ optD (u8 0) (s.pwb.shed.head?.map fun e => u8 e.figure)

/-- READ_LOANS (R73). -/
def execReadLoans (s : State) : Outcome :=
  .next (s.readRequest 40 fun s => .done s.loansAnswer)

/-! ### Lending (R64 to R66) -/

/-- A station that makes no offer to an asker (R64). -/
def State.noOffer (s : State) (asker : Nat) : Bool :=
  s.pwb.collection.isSome ||
  s.pwb.loans.any (fun l => !l.lent && l.partner == asker) ||
  match s.pwb.loans.find? (fun l => l.lent && l.partner == asker) with
  | some l => !l.recallable
  | none => Config.maxLoans ≤ s.pwb.loans.length

/-- The offer for an ask: the least of three amounts, rounded down to a multiple of 4 A (R64). -/
def State.offerAmount (s : State) (ask : Nat) : Nat :=
  (min (ask : Int) (min (s.spare - s.settings.keepMargin) s.pumpSpare)).toNat / 4 * 4

/-- The pledge id a new OUT record takes (R53). -/
def State.nextPledge (s : State) : Nat :=
  (nextFree 1 255 s.pwb.pledgeId ((s.pwb.loans.filter Loan.lent).map Loan.pledge)).getD 0

/-- An offer of 4 A or more is queued, and pledged at once (R64). -/
def State.makeOffer (asker seq amount : Nat) (s : State) : State :=
  let note := s.lif.serial
  let deadline := s.elapsed + s.settings.pledgeTimeout * 1000000
  match s.pwb.loans.find? (fun l => l.lent && l.partner == asker) with
  | some l =>
    let s := s.modLoan true asker fun l => { l with
      addition := some amount, deadline := some deadline, offerFrame := some note }
    s.queueFrame (loanOfferFrame s.me asker seq amount l.pledge)
  | none =>
    let id := s.nextPledge
    let l : Loan := { partner := asker, lent := true, amount := amount, state := .pledged, pledge := id,
                      addition := none, deadline := some deadline, offerFrame := some note }
    let s : State := { s with pwb := { s.pwb with loans := s.pwb.loans ++ [l], pledgeId := id } }
    s.queueFrame (loanOfferFrame s.me asker seq amount id)

/-- LOAN_ASK_FRAME (R64): a station number 0 is no partner of a loan (R53, log 14). -/
def execLoanAskFrame (src : RxSource) (s : State) : Outcome :=
  .next (s.frameEvent 4 src fun f _ s =>
    if f.sender = s.me || f.sender = 0 || s.noOffer f.sender then s
    else
      let amount := s.offerAmount (f.num 0 2)
      if 4 ≤ amount then s.makeOffer f.sender (f.keyField 0 8) amount else s)

/-- A pledge or a pledged addition ends, and C and H rise by it (R64, R66). -/
def State.endPledge (l : Loan) (s : State) : State :=
  if l.state = .pledged then (s.dropLoans fun x => x.lent && x.partner == l.partner).settle
  else if l.addition.isSome then
    (s.modLoan true l.partner fun x => { x with addition := none, deadline := none, offerFrame := none }).settle
  else s

/-- LOAN_OFFER_REPORT (R64): a failed offer's pledge or addition is removed. -/
def execLoanOfferReport (s : State) : Outcome :=
  .next (s.reportEvent 5 fun rep s =>
    if rep.sent then s
    else
      match s.pwb.loans.find? fun l => l.lent && l.offerFrame == some rep.serial with
      | some l => s.endPledge l
      | none => s)

/-- A void take: the record found goes whole, LOAN VOID is sent and flagged (R65). -/
def State.voidTake (partner pledge : Nat) (s : State) : State :=
  let t := s.dropLoans fun l => l.lent && l.partner == partner && l.pledge == pledge
  ((t.queueFrame (loanVoidFrame s.me partner pledge)).setFlag .loanVoid).settleSince s

/-- A take matched against its OUT record (R65). -/
def State.takeLoan (partner pledge taken : Nat) (s : State) : State :=
  match s.loan? true partner pledge with
  | none => s.voidTake partner pledge
  | some l =>
    if l.state = .pledged && 4 ≤ taken && taken ≤ l.amount then
      (s.modLoan true partner fun x => { x with
        state := .active, amount := taken, deadline := none, offerFrame := none }).settleSince s
    else if l.state = .active && l.addition.isSome && 4 ≤ taken && taken ≤ l.addition.getD 0 then
      (s.modLoan true partner fun x => { x with
        amount := x.amount + taken, addition := none, deadline := none, offerFrame := none }).settleSince s
    else s.voidTake partner pledge

/-- LOAN_TAKE_FRAME (R65). -/
def execLoanTakeFrame (src : RxSource) (s : State) : Outcome :=
  .next (s.frameEvent 6 src fun f _ s => s.takeLoan f.sender (f.keyField 5 8) (f.num 0 2))

/-- LOAN_DECLINE_FRAME (R66). -/
def execLoanDeclineFrame (src : RxSource) (s : State) : Outcome :=
  .next (s.frameEvent 7 src fun f _ s =>
    match s.loan? true f.sender (f.keyField 5 8) with
    | some l => s.endPledge l
    | none => s)

/-- PLEDGE_DEADLINE (R66): of the OUT record to a partner, PLEDGED or with a pledged addition. -/
def execPledgeDeadline (partner : Nat) (s : State) : Outcome :=
  .next (s.event fun s =>
    match s.pwb.loans.find? fun l => l.lent && l.partner == partner && l.state != .recalled with
    | some l =>
      match l.deadline with
      | some d => (s.advanceTo d).endPledge l
      | none => s
    | none => s)

/-! ### Recall and return (R67 to R69) -/

/-- LOAN_VOID_FRAME (R67). -/
def execLoanVoidFrame (src : RxSource) (s : State) : Outcome :=
  .next (s.frameEvent 8 src fun f _ s =>
    let pledge := f.keyField 5 8
    if (s.loan? false f.sender pledge).isSome then
      ((s.dropLoans fun l => !l.lent && l.partner == f.sender && l.pledge == pledge).ceilingFell).setFlag
        .loanVoid
    else s)

/-- LOAN_RECALL_FRAME (R68): the IN record goes, the shed pass runs, and a RETURN is queued. -/
def execLoanRecallFrame (src : RxSource) (s : State) : Outcome :=
  .next (s.frameEvent 2 src fun f _ s =>
    let pledge := f.keyField 5 8
    match s.loan? false f.sender pledge with
    | none => s.queueFrame (loanReturnFrame s.me f.sender pledge 0)
    | some l =>
      let t := (s.dropLoans fun x => !x.lent && x.partner == f.sender && x.pledge == pledge).shedIfShort
      (t.queueFrame (loanReturnFrame s.me f.sender pledge l.amount)).settleSince s)

/-- LOAN_RETURN_FRAME (R69). -/
def execLoanReturnFrame (src : RxSource) (s : State) : Outcome :=
  .next (s.frameEvent 3 src fun f _ s =>
    match s.loan? true f.sender (f.keyField 5 8) with
    | some l =>
      if l.state = .pledged then s
      else (s.dropLoans fun x => x.lent && x.partner == f.sender && x.pledge == l.pledge).settle
    | none => s)

/-- RECALL_DEADLINE (R69): of the RECALLED record to a partner. -/
def execRecallDeadline (partner : Nat) (s : State) : Outcome :=
  .next (s.event fun s =>
    match s.pwb.loans.find? fun l => l.lent && l.partner == partner && l.state == .recalled with
    | some l =>
      let s := s.advanceTo (l.deadline.getD s.elapsed)
      let s := s.dropLoans fun x => x.lent && x.partner == partner
      ((s.queueFrame (loanVoidFrame s.me partner l.pledge)).setFlag .recallLapsed).settle
    | none => s)

/-! ### Asking (R61 to R63) -/

/-- LOAN_ASK_REPORT (R61): sent, the collection closes 300 ms on; failed, it closes at once. -/
def execLoanAskReport (s : State) : Outcome :=
  .next (s.reportEvent 4 fun rep s =>
    match s.pwb.collection with
    | some c =>
      if c.frame = rep.serial then
        if rep.sent then
          { s with pwb := { s.pwb with
            collection := some { c with closeAt := some (s.elapsed + Config.collectionUs) } } }
        else s.askFailed c
      else s
    | none => s)

/-- LOAN_OFFER_FRAME (R61): declined with no collection open or under another ask sequence, tested first (log
61); else ignored from a lender already in the collection, and collected from any other (log 41). -/
def execLoanOfferFrame (src : RxSource) (s : State) : Outcome :=
  .next (s.frameEvent 5 src fun f _ s =>
    let o : Offer := { lender := f.sender, amount := f.num 0 2, pledge := f.num 2 1 }
    match s.pwb.collection with
    | some c =>
      if c.seq = f.keyField 5 8 then
        if c.offers.any fun x => x.lender == o.lender then s
        else { s with pwb := { s.pwb with collection := some { c with offers := c.offers ++ [o] } } }
      else s.declineOffers [o]
    | none => s.declineOffers [o])

/-- COLLECTION_CLOSE (R62). -/
def execCollectionClose (s : State) : Outcome :=
  .next (s.event fun s =>
    match s.pwb.collection with
    | some c =>
      match c.closeAt with
      | some d => (s.advanceTo d).closeCollection c
      | none => s
    | none => s)

/-- A failed take is undone: the IN record of its lender and pledge (log 41) falls by the amount, and goes
when nothing remains (R63). -/
def State.undoTake (lender pledge taken : Nat) (s : State) : State :=
  match s.loan? false lender pledge with
  | none => s
  | some l =>
    (if l.amount ≤ taken then s.dropLoans fun x => !x.lent && x.partner == lender && x.pledge == pledge
     else s.modLoan false lender fun x => { x with amount := x.amount - taken }).ceilingFell

/-- LOAN_TAKE_REPORT (R63). -/
def execLoanTakeReport (s : State) : Outcome :=
  .next (s.reportEvent 6 fun rep s =>
    if rep.sent then s
    else s.undoTake (rep.frame.keyField 0 5) (rep.frame.keyField 5 8) (rep.frame.num 0 2))

end Sys2Proof.Machine
end

