-- ==== Sys2Proof/Machine/Setup.lean ====
section
/-! DEFINITION. Configuration and start-up (10_configuration_and_start_up.md): the eight CONFIGURE
sections, JOIN, RESTART, and the supply. -/

namespace Sys2Proof.Machine

/-- CONFIGURE is taken in UNCONFIGURED alone (R196); `ok` is the section's own RANGE test, and the
answer carries CLAMPED where `clamped` says that a value was moved. -/
def State.configure (ok clamped : Bool) (write : State → State) (s : State) : State :=
  s.request 1 fun s =>
    if !s.unconfigured then (s, .refused .state)
    else if !ok then (s, .refused .range)
    else (write s, .doneClamped clamped)

/-! ### STATION (R197, R9) -/

/-- The least window for a bid step (R9). -/
def leastWindow (q : Nat) : Nat := (588 * q + 999) / 1000 + 20

/-- The STATION section with every field in its range, the window last (R197). -/
def clampStation (v : StationSection) : StationSection :=
  let q := clamp 20 200 v.bidStep
  { window := max (clamp 40 250 v.window) (leastWindow q)
    bidStep := q
    fender := clamp 0 10 v.fender
    keel := clamp 2 10 v.keel
    creditLimit := clamp 0 10000000 v.creditLimit
    warnLevel := clampInt (-10000000) 10000000 v.warnLevel
    holdLifetime := clamp 10 120 v.holdLifetime
    overdueGrace := clamp 0 72 v.overdueGrace
    departureGrace := clamp 0 12 v.departureGrace
    baseShare := clamp 0 Config.ceilingMax v.baseShare
    keepMargin := clamp 0 63 v.keepMargin
    pledgeTimeout := clamp 1 10 v.pledgeTimeout
    recallPeriod := clamp 10 600 v.recallPeriod
    faultGrace := clamp 60 3600 v.faultGrace
    captureModes := v.captureModes }

/-- The settings a section gives. -/
def settingsOf (v : StationSection) : Settings :=
  { window := v.window, bidStep := v.bidStep, fender := v.fender, keel := v.keel,
    creditLimit := v.creditLimit, warnLevel := v.warnLevel, holdLifetime := v.holdLifetime,
    overdueGrace := v.overdueGrace, departureGrace := v.departureGrace, baseShare := v.baseShare,
    keepMargin := v.keepMargin, pledgeTimeout := v.pledgeTimeout, recallPeriod := v.recallPeriod,
    faultGrace := v.faultGrace }

/-- The capture modes written (R159, R210): channel c rising at bit 2c - 2, falling at bit 2c - 1. -/
def Cap.setModes (c : Cap) (m : BitVec 8) : Cap :=
  { doorOpen := { c.doorOpen with single := m.getLsbD 0 }
    doorShut := { c.doorShut with single := m.getLsbD 1 }
    lift1 := { c.lift1 with single := m.getLsbD 2 }
    hang1 := { c.hang1 with single := m.getLsbD 3 }
    lift2 := { c.lift2 with single := m.getLsbD 4 }
    hang2 := { c.hang2 with single := m.getLsbD 5 }
    press := { c.press with single := m.getLsbD 6 }
    released := { c.released with single := m.getLsbD 7 } }

/-- The section written (R197). -/
def State.writeStation (v : StationSection) (s : State) : State :=
  { s with settings := settingsOf v, cap := s.cap.setModes v.captureModes }

/-- CONFIGURE_STATION (R197). -/
def execConfigureStation (v : StationSection) (s : State) : Outcome :=
  .next (s.configure true (clampStation v != v) (State.writeStation (clampStation v)))

/-! ### BERTH (R1) -/

/-- The BERTH section clamped, but for its number (R1, R210). -/
def clampBerth (v : BerthSection) : BerthSection :=
  { berth := v.berth
    length := clamp 20 800 v.length
    width := clamp 15 200 v.width
    depth := clamp 0 100 v.depth
    point := clamp 0 32 v.point
    classMask := clamp 0 3 v.classMask
    reserved := clamp 0 1 v.reserved }

/-- The berth record a section gives, its mark absent. -/
def berthOf (v : BerthSection) : Berth :=
  { number := v.berth, length := v.length, width := v.width, depth := v.depth,
    point := if v.point = 0 then none else some v.point,
    visitor := v.classMask % 2 == 1, member := v.classMask / 2 % 2 == 1, reserved := v.reserved == 1,
    mark := none }

/-- The record written at its place in berth number order, over any earlier one (R1, R196). -/
def State.writeBerth (v : BerthSection) (s : State) : State :=
  { s with bal := { s.bal with berths := insertKey Berth.number (berthOf v) s.bal.berths } }

/-- CONFIGURE_BERTH (R1, R198). -/
def execConfigureBerth (v : BerthSection) (s : State) : Outcome :=
  .next (s.configure (within 1 48 v.berth) (clampBerth v != v) (State.writeBerth (clampBerth v)))

/-! ### POINT (R74) -/

/-- The POINT section clamped, but for its number. -/
def clampPoint (v : PointSection) : PointSection :=
  { point := v.point, maxRating := clamp 0 3 v.maxRating, three := clamp 0 1 v.three,
    tap := clamp 0 1 v.tap }

/-- A service point as its section describes it, everything SPC keeps at its start value (R100). -/
def pointOf (v : PointSection) : Point :=
  { number := v.point, maxRating := v.maxRating, three := v.three == 1, tapFitted := v.tap == 1,
    outlet := .off, tapOpen := false, charging := none, arrivals := [], finalMark := none,
    retained := [], tripAck := false, energyBase := none, waterBase := none, lastAccept := none, lastTime := none,
    interval := 0, tapMark := false, leakMark := false, raisePending := none, raiseLast := .none }

/-- The description written (R74). -/
def State.writePoint (v : PointSection) (s : State) : State :=
  { s with spc := { s.spc with points := insertKey Point.number (pointOf v) s.spc.points } }

/-- CONFIGURE_POINT (R74, R198). -/
def execConfigurePoint (v : PointSection) (s : State) : Outcome :=
  .next (s.configure (within 1 32 v.point) (clampPoint v != v) (State.writePoint (clampPoint v)))

/-! ### TARIFF (R198) -/

/-- A tariff set written. -/
def State.writeTariff (set : Nat) (t : Tariff) (s : State) : State :=
  { s with spc :=
    if set = 1 then { s.spc with tariff1 := t } else { s.spc with tariff2 := t } }

/-- CONFIGURE_TARIFF (R198). -/
def execConfigureTariff (set energy water : Nat) (s : State) : Outcome :=
  let t : Tariff := { energy := clamp 0 9999 energy, water := clamp 0 9999 water }
  .next (s.configure (within 1 2 set) (t.energy != energy || t.water != water) (State.writeTariff set t))

/-! ### PUMP (R101) -/

/-- The PUMP section clamped, but for its number (R101, R210: grade 0 is the first, above 2 the last). -/
def clampPump (v : PumpSection) : PumpSection :=
  { pump := v.pump, grade := clamp 1 2 v.grade, pulses := clamp 100 2000 v.pulses,
    price := clamp 1 999 v.price, load := clamp 0 32 v.load,
    authTimeout := clamp 30 600 v.authTimeout, suspendLimit := clamp 60 900 v.suspendLimit }

/-- A pump's description. -/
def pumpOf (v : PumpSection) : PumpConfig :=
  { grade := if v.grade = 1 then .diesel else .petrol, pulses := v.pulses, price := v.price,
    load := v.load, authTimeout := v.authTimeout, suspendLimit := v.suspendLimit }

/-- The description written, or a stray section kept, one of each number (R101, R198). -/
def State.writePump (v : PumpSection) (s : State) : State :=
  if within 1 2 v.pump then s.modPump v.pump fun p => { p with config := some (pumpOf v) }
  else { s with fdc := { s.fdc with straySections := insertKey PumpSection.pump v s.fdc.straySections } }

/-- CONFIGURE_PUMP (R101, R198). -/
def execConfigurePump (v : PumpSection) (s : State) : Outcome :=
  .next (s.configure true (clampPump v != v) (State.writePump (clampPump v)))

/-! ### GATE (R128) -/

/-- The GATE section clamped (R128). -/
def clampGate (v : GateSection) : GateSection :=
  { openTime := clamp 2 30 v.openTime, heldLimit := clamp 10 300 v.heldLimit,
    waiverLength := clamp 0 12 v.waiverLength, arriveOnEntry := clamp 0 1 v.arriveOnEntry }

/-- The gate timings and options written (R128). -/
def State.writeGate (v : GateSection) (s : State) : State :=
  { s with gtc := { s.gtc with openTime := v.openTime, heldLimit := v.heldLimit,
                               waiverLength := v.waiverLength, arriveOnEntry := v.arriveOnEntry == 1 } }

/-- CONFIGURE_GATE (R128, R198). -/
def execConfigureGate (v : GateSection) (s : State) : Outcome :=
  .next (s.configure true (clampGate v != v) (State.writeGate (clampGate v)))

/-! ### STAFF (R129) -/

/-- A staff credential written, its count 0, lock clear and waiver absent (R129). -/
def State.writeStaff (staff card : Nat) (pin : List Nat) (s : State) : State :=
  let e : Staff :=
    { number := staff, card := card, pin := pin, count := 0, locked := false, waiver := none }
  { s with gtc := { s.gtc with staff := insertKey Staff.number e s.gtc.staff } }

/-- CONFIGURE_STAFF (R129, R198): a staff number, card or PIN out of range is RANGE. -/
def execConfigureStaff (staff card : Nat) (pin : PinField) (s : State) : Outcome :=
  .next (s.configure (within 1 8 staff && cardOk card && (pinDigits pin).isSome) false
    (State.writeStaff staff card ((pinDigits pin).getD [])))

/-! ### SCHEDULE (R152) -/

/-- A cycle in its range: 0, or 60-604,800 s (R152). -/
def clampCycle (n : Nat) : Nat := if n = 0 then 0 else clamp 60 604800 n

/-- An IDLE entry written in its place (R152). -/
def State.writeSchedule (v : ScheduleSection) (kind : ScheduleKind) (s : State) : State :=
  let e : ScheduleEntry :=
    { place := v.place, kind := kind, start := v.start, cycle := clampCycle v.cycle,
      check := clamp 0 1 v.check == 1, state := .idle, due := none }
  { s with sch := { s.sch with places := insertKey ScheduleEntry.place e s.sch.places } }

/-- CONFIGURE_SCHEDULE (R152, R198). -/
def execConfigureSchedule (v : ScheduleSection) (s : State) : Outcome :=
  .next (s.configure (within 1 12 v.place && (scheduleKindOf v.kind).isSome)
    (clampCycle v.cycle != v.cycle || clamp 0 1 v.check != v.check)
    (State.writeSchedule v ((scheduleKindOf v.kind).getD .dayRoll)))

/-! ### JOIN, RESTART and the supply -/

/-- JOIN (R199, R200): STATE outside UNCONFIGURED, CONFIG at the first failing check, else accepted. -/
def execJoin (s : State) : Outcome :=
  .next (s.request 2 fun s =>
    if !s.unconfigured then (s, .refused .state)
    else
      match s.joinFault with
      | some (f, n) => (s, .refusedWith .config (u8 f.code ++ u8 n))
      | none => (s.acceptJoin, .done []))

/-- RESTART (R206): taken at the release like any request, it is a warm start with no answer of its own. -/
def execRestart (inp : StartInputs) (s : State) : Outcome :=
  .next (if s.pnp.discards || !s.powered then s.endTransaction else s.warmStart inp)

/-- POWER_UP (R203): a valid backup makes the start warm, any other cold; a transaction then in
progress has its request discarded (R182). -/
def execPowerUp (inp : StartInputs) (backupHeld storeAgrees : Bool) (s : State) : Outcome :=
  let begun := s.pnp.transaction.isSome
  .next ((if backupHeld && storeAgrees then s.warmStart inp else s.coldStart inp).keepTransaction begun)

/-- POWER_FAIL (R207): the clock and the backed store run on, and the rest of the part is off. -/
def execPowerFail (s : State) : Outcome :=
  .next { s with powered := false }

end Sys2Proof.Machine
end

