-- ==== Sys2Proof/Machine/Dispatch.lean ====
section
/-! DEFINITION. One arm for each command: its meaning. -/

namespace Sys2Proof.Machine

/-- The effect of a command on everything but the queue. -/
def exec (i : Instr) (s : State) : Host.Outcome State Fault Refusal :=
  match i with
  | .selectAssert decided => Sys2Proof.Machine.execSelectAssert decided s
  | .requestDiscarded => Sys2Proof.Machine.execRequestDiscarded s
  | .null => Sys2Proof.Machine.execNull s
  | .malformedRequest code len received kind => Sys2Proof.Machine.execMalformedRequest code len received kind s
  | .configureStation v => Sys2Proof.Machine.execConfigureStation v s
  | .configureBerth v => Sys2Proof.Machine.execConfigureBerth v s
  | .configurePoint v => Sys2Proof.Machine.execConfigurePoint v s
  | .configureTariff set_ energy water => Sys2Proof.Machine.execConfigureTariff set_ energy water s
  | .configurePump v => Sys2Proof.Machine.execConfigurePump v s
  | .configureGate v => Sys2Proof.Machine.execConfigureGate v s
  | .configureStaff staff card pin => Sys2Proof.Machine.execConfigureStaff staff card pin s
  | .configureSchedule v => Sys2Proof.Machine.execConfigureSchedule v s
  | .join => Sys2Proof.Machine.execJoin s
  | .restart inp => Sys2Proof.Machine.execRestart inp s
  | .setClock sec ms => Sys2Proof.Machine.execSetClock sec ms s
  | .tariffSelect set_ => Sys2Proof.Machine.execTariffSelect set_ s
  | .readStation => Sys2Proof.Machine.execReadStation s
  | .flagsRead => Sys2Proof.Machine.execFlagsRead s
  | .flagsClear mask => Sys2Proof.Machine.execFlagsClear mask s
  | .flagsSetup enables keep levels threshold => Sys2Proof.Machine.execFlagsSetup enables keep levels threshold s
  | .requestBerth r => Sys2Proof.Machine.execRequestBerth r s
  | .readRound n => Sys2Proof.Machine.execReadRound n s
  | .readBerth berth night => Sys2Proof.Machine.execReadBerth berth night s
  | .book v => Sys2Proof.Machine.execBook v s
  | .cancel occ => Sys2Proof.Machine.execCancel occ s
  | .arrive occ => Sys2Proof.Machine.execArrive occ s
  | .depart occ => Sys2Proof.Machine.execDepart occ s
  | .readOccupancy occ => Sys2Proof.Machine.execReadOccupancy occ s
  | .closureRead => Sys2Proof.Machine.execClosureRead s
  | .closureCollect => Sys2Proof.Machine.execClosureCollect s
  | .bindCard occ card => Sys2Proof.Machine.execBindCard occ card s
  | .setPin occ pin => Sys2Proof.Machine.execSetPin occ pin s
  | .changePin occ old_ new_ => Sys2Proof.Machine.execChangePin occ old_ new_ s
  | .clearPin occ => Sys2Proof.Machine.execClearPin occ s
  | .unlock occ => Sys2Proof.Machine.execUnlock occ s
  | .topUp occ amount => Sys2Proof.Machine.execTopUp occ amount s
  | .setLimit occ keep limit warn => Sys2Proof.Machine.execSetLimit occ keep limit warn s
  | .bar occ => Sys2Proof.Machine.execBar occ s
  | .unbar occ => Sys2Proof.Machine.execUnbar occ s
  | .readLoans => Sys2Proof.Machine.execReadLoans s
  | .readPoint point => Sys2Proof.Machine.execReadPoint point s
  | .profileCheck occ g1 g2 g3 => Sys2Proof.Machine.execProfileCheck occ g1 g2 g3 s
  | .profileSet occ g1 g2 g3 => Sys2Proof.Machine.execProfileSet occ g1 g2 g3 s
  | .outletReset point => Sys2Proof.Machine.execOutletReset point s
  | .pumpAuthorise pump preset payment card => Sys2Proof.Machine.execPumpAuthorise pump preset payment card s
  | .pumpSuspend pump => Sys2Proof.Machine.execPumpSuspend pump s
  | .pumpResume pump => Sys2Proof.Machine.execPumpResume pump s
  | .pumpStop pump => Sys2Proof.Machine.execPumpStop pump s
  | .readPump pump => Sys2Proof.Machine.execReadPump pump s
  | .journalRead => Sys2Proof.Machine.execJournalRead s
  | .journalCollect => Sys2Proof.Machine.execJournalCollect s
  | .gateOpen => Sys2Proof.Machine.execGateOpen s
  | .gateMode mode => Sys2Proof.Machine.execGateMode mode s
  | .readCapture channel edge => Sys2Proof.Machine.execReadCapture channel edge s
  | .frameHeard f => Sys2Proof.Machine.execFrameHeard f s
  | .txAttemptStart => Sys2Proof.Machine.execTxAttemptStart s
  | .txSent => Sys2Proof.Machine.execTxSent s
  | .txContentionLost => Sys2Proof.Machine.execTxContentionLost s
  | .txError => Sys2Proof.Machine.execTxError s
  | .lineActivity => Sys2Proof.Machine.execLineActivity s
  | .listenEnd => Sys2Proof.Machine.execListenEnd s
  | .silenceWatchEnd => Sys2Proof.Machine.execSilenceWatchEnd s
  | .berthRequestFrame src => Sys2Proof.Machine.execBerthRequestFrame src s
  | .bidFrame src => Sys2Proof.Machine.execBidFrame src s
  | .assignFrame src => Sys2Proof.Machine.execAssignFrame src s
  | .loanAskFrame src => Sys2Proof.Machine.execLoanAskFrame src s
  | .loanOfferFrame src => Sys2Proof.Machine.execLoanOfferFrame src s
  | .loanTakeFrame src => Sys2Proof.Machine.execLoanTakeFrame src s
  | .loanDeclineFrame src => Sys2Proof.Machine.execLoanDeclineFrame src s
  | .loanVoidFrame src => Sys2Proof.Machine.execLoanVoidFrame src s
  | .loanRecallFrame src => Sys2Proof.Machine.execLoanRecallFrame src s
  | .loanReturnFrame src => Sys2Proof.Machine.execLoanReturnFrame src s
  | .holdAskFrame src => Sys2Proof.Machine.execHoldAskFrame src s
  | .holdAnswerFrame src => Sys2Proof.Machine.execHoldAnswerFrame src s
  | .settleFrame src => Sys2Proof.Machine.execSettleFrame src s
  | .settleAnswerFrame src => Sys2Proof.Machine.execSettleAnswerFrame src s
  | .cardBindFrame src => Sys2Proof.Machine.execCardBindFrame src s
  | .joinFrame src => Sys2Proof.Machine.execJoinFrame src s
  | .timeFrame src => Sys2Proof.Machine.execTimeFrame src s
  | .bidReport => Sys2Proof.Machine.execBidReport s
  | .berthRequestReport => Sys2Proof.Machine.execBerthRequestReport s
  | .assignReport => Sys2Proof.Machine.execAssignReport s
  | .loanAskReport => Sys2Proof.Machine.execLoanAskReport s
  | .loanOfferReport => Sys2Proof.Machine.execLoanOfferReport s
  | .loanTakeReport => Sys2Proof.Machine.execLoanTakeReport s
  | .holdAskReport => Sys2Proof.Machine.execHoldAskReport s
  | .settleReport => Sys2Proof.Machine.execSettleReport s
  | .bidDelayEnd tag => Sys2Proof.Machine.execBidDelayEnd tag s
  | .windowEnd tag => Sys2Proof.Machine.execWindowEnd tag s
  | .watchEnd tag => Sys2Proof.Machine.execWatchEnd tag s
  | .awaitDeadline => Sys2Proof.Machine.execAwaitDeadline s
  | .holdExpiry occ hold => Sys2Proof.Machine.execHoldExpiry occ hold s
  | .pledgeDeadline partner => Sys2Proof.Machine.execPledgeDeadline partner s
  | .recallDeadline partner => Sys2Proof.Machine.execRecallDeadline partner s
  | .collectionClose => Sys2Proof.Machine.execCollectionClose s
  | .pollCycleStart => Sys2Proof.Machine.execPollCycleStart s
  | .postReport r => Sys2Proof.Machine.execPostReport r s
  | .pollTimeout => Sys2Proof.Machine.execPollTimeout s
  | .faultGraceEnd post => Sys2Proof.Machine.execFaultGraceEnd post s
  | .alongsideNotice occ => Sys2Proof.Machine.execAlongsideNotice occ s
  | .departingNotice occ => Sys2Proof.Machine.execDepartingNotice occ s
  | .barredNotice occ => Sys2Proof.Machine.execBarredNotice occ s
  | .unbarredNotice occ => Sys2Proof.Machine.execUnbarredNotice occ s
  | .pumpPulse pump => Sys2Proof.Machine.execPumpPulse pump s
  | .nozzleLift pump => Sys2Proof.Machine.execNozzleLift pump s
  | .nozzleHang pump => Sys2Proof.Machine.execNozzleHang pump s
  | .authorisationTimeout pump => Sys2Proof.Machine.execAuthorisationTimeout pump s
  | .suspendLimitEnd pump => Sys2Proof.Machine.execSuspendLimitEnd pump s
  | .runOnEnd pump => Sys2Proof.Machine.execRunOnEnd pump s
  | .holdAskWaitEnd pump => Sys2Proof.Machine.execHoldAskWaitEnd pump s
  | .settleWaitEnd pump => Sys2Proof.Machine.execSettleWaitEnd pump s
  | .emergencyPress => Sys2Proof.Machine.execEmergencyPress s
  | .emergencyRelease => Sys2Proof.Machine.execEmergencyRelease s
  | .cardRead card check => Sys2Proof.Machine.execCardRead card check s
  | .key code => Sys2Proof.Machine.execKey code s
  | .pinEntryTimeout => Sys2Proof.Machine.execPinEntryTimeout s
  | .readerFrameTimeout bytes => Sys2Proof.Machine.execReaderFrameTimeout bytes s
  | .releaseEnd => Sys2Proof.Machine.execReleaseEnd s
  | .exitButtonPress => Sys2Proof.Machine.execExitButtonPress s
  | .doorOpenEdge => Sys2Proof.Machine.execDoorOpenEdge s
  | .doorShutEdge => Sys2Proof.Machine.execDoorShutEdge s
  | .heldLimitEnd => Sys2Proof.Machine.execHeldLimitEnd s
  | .scheduleDue place => Sys2Proof.Machine.execScheduleDue place s
  | .nightOn => Sys2Proof.Machine.execNightOn s
  | .nightOff => Sys2Proof.Machine.execNightOff s
  | .lockdownOn => Sys2Proof.Machine.execLockdownOn s
  | .lockdownOff => Sys2Proof.Machine.execLockdownOff s
  | .tariff1 => Sys2Proof.Machine.execTariff1 s
  | .tariff2 => Sys2Proof.Machine.execTariff2 s
  | .dayRoll => Sys2Proof.Machine.execDayRoll s
  | .clockWrap => Sys2Proof.Machine.execClockWrap s
  | .powerUp inp backupHeld storeAgrees => Sys2Proof.Machine.execPowerUp inp backupHeld storeAgrees s
  | .powerFail => Sys2Proof.Machine.execPowerFail s

end Sys2Proof.Machine
end

