-- ==== Sys2Proof/Safety.lean ====
section
/-! DEFINITION. The terms claims are stated in: what a command leaves unchanged, when a request is
taken and what its answer does to PNP, which command is which request, and what a sound state is. -/

namespace Sys2Proof.Machine

/-! ### Frames -/

/-- The parts of the state. -/
inductive Part where
  | powered | straps | startKind | settings | elapsed | moments | pnp | lif | bal | occ | pwb | spc
  | fdc | gtc | sch | cap | pending
  deriving DecidableEq, Repr

/-- Two states agree on a part. -/
def State.agree (s t : State) : Part → Prop
  | .powered => t.powered = s.powered
  | .straps => t.straps = s.straps
  | .startKind => t.startKind = s.startKind
  | .settings => t.settings = s.settings
  | .elapsed => t.elapsed = s.elapsed
  | .moments => t.moments = s.moments
  | .pnp => t.pnp = s.pnp
  | .lif => t.lif = s.lif
  | .bal => t.bal = s.bal
  | .occ => t.occ = s.occ
  | .pwb => t.pwb = s.pwb
  | .spc => t.spc = s.spc
  | .fdc => t.fdc = s.fdc
  | .gtc => t.gtc = s.gtc
  | .sch => t.sch = s.sch
  | .cap => t.cap = s.cap
  | .pending => t.pending = s.pending

/-- From `s` to `t` no part changes but those listed. -/
def OnlyChanges (parts : List Part) (s t : State) : Prop := ∀ p : Part, p ∉ parts → s.agree t p

/-- The parts PWB's work can change: its own, LIF's queue, SPC's outlets with the profile a raise
writes, FDC's sales, and the count of moments (R57, R60). -/
def pwbParts : List Part := [.moments, .lif, .occ, .pwb, .spc, .fdc]

/-- The parts a loss of the line, or a peer's JOIN, can change besides (R22, R23, R175). -/
def lineParts : List Part := .bal :: pwbParts

/-- The parts of the state each command may change: those of the block that owns it and of the blocks
that block tells, with PNP where a request is answered or a flag can be set. -/
def mayChange : Instr → List Part
  | .selectAssert _ | .requestDiscarded | .null | .malformedRequest _ _ _ _ => [.pnp]
  | .configureStation _ => [.pnp, .settings, .cap]
  | .configureBerth _ => [.pnp, .bal]
  | .configurePoint _ | .configureTariff _ _ _ => [.pnp, .spc]
  | .configurePump _ => [.pnp, .fdc]
  | .configureGate _ | .configureStaff _ _ _ => [.pnp, .gtc]
  | .configureSchedule _ => [.pnp, .sch]
  | .join => [.pnp, .lif, .sch, .occ, .spc, .moments]
  | .restart _ | .powerUp _ _ _ =>
    [.powered, .straps, .startKind, .settings, .pnp, .lif, .bal, .occ, .pwb, .spc, .fdc, .gtc, .sch, .cap]
  | .powerFail => [.powered]
  | .setClock _ _ => [.pnp, .sch, .occ, .spc]
  | .tariffSelect _ => [.pnp, .sch]
  | .readStation | .flagsRead | .flagsClear _ | .flagsSetup _ _ _ _ | .readRound _ | .readBerth _ _
  | .readOccupancy _ | .closureRead | .readLoans | .readPoint _ | .profileCheck _ _ _ _
  | .readPump _ | .journalRead => [.pnp]
  | .requestBerth _ => [.pnp, .lif, .bal]
  | .book _ | .arrive _ | .bindCard _ _ | .setPin _ _ | .changePin _ _ _ | .clearPin _ | .unlock _
  | .topUp _ _ | .setLimit _ _ _ _ | .bar _ | .unbar _ => [.pnp, .occ]
  | .cancel _ | .depart _ | .closureCollect => [.pnp, .occ, .spc]
  | .profileSet _ _ _ _ | .outletReset _ | .pumpAuthorise _ _ _ _ | .pumpStop _ => .pnp :: pwbParts
  | .pumpSuspend _ | .pumpResume _ | .journalCollect => [.pnp, .fdc]
  | .gateOpen | .gateMode _ => [.pnp, .gtc]
  | .readCapture _ _ => [.pnp, .cap]
  | .frameHeard _ => [.pnp, .lif]
  | .txAttemptStart | .txSent | .txContentionLost | .lineActivity => [.lif]
  | .txError => .pnp :: lineParts
  | .listenEnd => .pnp :: .elapsed :: .sch :: pwbParts
  | .silenceWatchEnd => [.pnp, .elapsed, .sch, .lif]
  | .berthRequestFrame _ | .bidFrame _ => [.pnp, .lif, .bal]
  | .assignFrame _ => [.pnp, .lif, .bal, .occ, .spc]
  | .loanAskFrame _ | .loanOfferFrame _ => [.pnp, .lif, .pwb]
  | .loanTakeFrame _ | .loanDeclineFrame _ | .loanVoidFrame _ | .loanRecallFrame _
  | .loanReturnFrame _ | .holdAnswerFrame _ => .pnp :: pwbParts
  | .holdAskFrame _ | .cardBindFrame _ => [.pnp, .lif, .occ]
  | .settleFrame _ => [.pnp, .lif, .occ, .spc]
  | .settleAnswerFrame _ => [.pnp, .lif, .fdc]
  | .joinFrame _ => .pnp :: lineParts
  | .timeFrame _ => [.pnp, .lif, .sch, .occ, .spc]
  | .bidReport | .berthRequestReport => [.lif, .bal]
  | .assignReport => [.lif]
  | .loanAskReport | .loanOfferReport | .loanTakeReport | .holdAskReport => .pnp :: pwbParts
  | .settleReport => [.pnp, .lif, .fdc]
  | .bidDelayEnd _ => [.pnp, .elapsed, .sch, .lif, .bal]
  | .windowEnd _ => [.pnp, .elapsed, .sch, .lif, .bal, .occ]
  | .watchEnd _ => [.elapsed, .sch, .lif, .bal]
  | .awaitDeadline => [.pnp, .elapsed, .sch, .bal]
  | .holdExpiry _ _ => [.pnp, .elapsed, .sch, .occ, .spc]
  | .pledgeDeadline _ | .recallDeadline _ | .collectionClose | .faultGraceEnd _
  | .authorisationTimeout _ | .runOnEnd _ | .holdAskWaitEnd _ =>
    .pnp :: .elapsed :: .sch :: pwbParts
  | .pollCycleStart => [.elapsed, .sch, .moments, .spc]
  | .postReport _ | .alongsideNotice _ | .departingNotice _ | .barredNotice _ | .unbarredNotice _ =>
    .pnp :: pwbParts
  | .pollTimeout => [.pnp, .elapsed, .sch, .moments, .lif, .spc]
  | .pumpPulse _ => [.pnp, .fdc]
  | .nozzleLift _ | .nozzleHang _ => [.pnp, .fdc, .cap]
  | .suspendLimitEnd _ => [.elapsed, .sch, .fdc]
  | .settleWaitEnd _ => [.pnp, .elapsed, .sch, .lif, .fdc]
  | .emergencyPress => .pnp :: .cap :: pwbParts
  | .emergencyRelease => [.pnp, .fdc, .cap]
  | .cardRead _ _ | .key _ => [.pnp, .occ, .gtc]
  | .pinEntryTimeout => [.pnp, .elapsed, .sch, .gtc]
  | .readerFrameTimeout _ => []
  | .releaseEnd => [.elapsed, .sch, .gtc]
  | .exitButtonPress => [.gtc]
  | .doorOpenEdge => [.pnp, .lif, .gtc, .cap]
  | .doorShutEdge => [.pnp, .gtc, .cap]
  | .heldLimitEnd => [.pnp, .elapsed, .sch, .lif, .gtc]
  | .scheduleDue _ => [.pnp, .elapsed, .sch]
  | .nightOn | .nightOff | .lockdownOn | .lockdownOff => [.gtc, .sch]
  | .tariff1 | .tariff2 => [.sch]
  | .dayRoll => [.pnp, .occ, .spc, .sch]
  | .clockWrap => [.elapsed, .sch]

/-! ### Requests -/

/-- A request of a code is taken and decided: the part has power, the transaction did not choose the
not-ready marker (R181), and the station state takes the code (R184). -/
abbrev Takes (code : Nat) (s : State) : Prop :=
  s.powered = true ∧ s.pnp.discards = false ∧
    (s.lif.state = .unconfigured → takenUnconfigured code = true)

/-- PNP once a request is answered and nothing else of it changed (R180, R181). -/
def Pnp.answered (p : Pnp) (code : Nat) (r : Reply) : Pnp :=
  { p with
    request := some code
    transaction := none
    ready := true
    answerNo := (p.answerNo + 1) % 256
    answer :=
      { code := code, number := (p.answerNo + 1) % 256, result := r.result, clamped := r.clamped,
        cause := r.cause, data := r.data } }

/-- PNP once it has itself refused a request frame, which no block has to decide (R180, R183, R184). -/
def Pnp.refusedBy (p : Pnp) (code : Nat) (r : Reply) : Pnp := { p.answered code r with request := none }

/-- PNP once the flags of a mask are set and the attention line is examined (R188, R192). -/
def Pnp.flagged (p : Pnp) (mask : BitVec 64) : Pnp :=
  { p with
    flags := p.flags ||| mask
    attention := ({ p with flags := p.flags ||| mask } : Pnp).pendingMask != 0 }

/-- The code of a command that is a request with an answer of its own (R182, R183 and R206 give NULL,
a malformed frame and RESTART theirs). -/
def requestCode : Instr → Option Nat
  | .configureStation _ | .configureBerth _ | .configurePoint _ | .configureTariff _ _ _
  | .configurePump _ | .configureGate _ | .configureStaff _ _ _ | .configureSchedule _ => some 1
  | .join => some 2
  | .setClock _ _ => some 4
  | .tariffSelect _ => some 5
  | .readStation => some 6
  | .flagsRead => some 7
  | .flagsClear _ => some 8
  | .flagsSetup _ _ _ _ => some 9
  | .requestBerth _ => some 16
  | .readRound _ => some 17
  | .readBerth _ _ => some 18
  | .book _ => some 19
  | .cancel _ => some 20
  | .arrive _ => some 21
  | .depart _ => some 22
  | .readOccupancy _ => some 23
  | .closureRead => some 24
  | .closureCollect => some 25
  | .bindCard _ _ => some 26
  | .setPin _ _ => some 27
  | .changePin _ _ _ => some 28
  | .clearPin _ => some 29
  | .unlock _ => some 30
  | .topUp _ _ => some 31
  | .setLimit _ _ _ _ => some 32
  | .bar _ => some 33
  | .unbar _ => some 34
  | .readLoans => some 40
  | .readPoint _ => some 41
  | .profileCheck _ _ _ _ => some 42
  | .profileSet _ _ _ _ => some 43
  | .outletReset _ => some 44
  | .pumpAuthorise _ _ _ _ => some 48
  | .pumpSuspend _ => some 49
  | .pumpResume _ => some 50
  | .pumpStop _ => some 51
  | .readPump _ => some 52
  | .journalRead => some 53
  | .journalCollect => some 54
  | .gateOpen => some 56
  | .gateMode _ => some 57
  | .readCapture _ _ => some 58
  | .selectAssert _ | .requestDiscarded | .null | .malformedRequest _ _ _ _ | .restart _
  | .frameHeard _ | .txAttemptStart | .txSent | .txContentionLost | .txError | .lineActivity
  | .listenEnd | .silenceWatchEnd | .berthRequestFrame _ | .bidFrame _ | .assignFrame _
  | .loanAskFrame _ | .loanOfferFrame _ | .loanTakeFrame _ | .loanDeclineFrame _
  | .loanVoidFrame _ | .loanRecallFrame _ | .loanReturnFrame _ | .holdAskFrame _
  | .holdAnswerFrame _ | .settleFrame _ | .settleAnswerFrame _ | .cardBindFrame _ | .joinFrame _
  | .timeFrame _ | .bidReport | .berthRequestReport | .assignReport | .loanAskReport
  | .loanOfferReport | .loanTakeReport | .holdAskReport | .settleReport | .bidDelayEnd _
  | .windowEnd _ | .watchEnd _ | .awaitDeadline | .holdExpiry _ _ | .pledgeDeadline _
  | .recallDeadline _ | .collectionClose | .pollCycleStart | .postReport _ | .pollTimeout
  | .faultGraceEnd _ | .alongsideNotice _ | .departingNotice _ | .barredNotice _
  | .unbarredNotice _ | .pumpPulse _ | .nozzleLift _ | .nozzleHang _ | .authorisationTimeout _
  | .suspendLimitEnd _ | .runOnEnd _ | .holdAskWaitEnd _ | .settleWaitEnd _ | .emergencyPress
  | .emergencyRelease | .cardRead _ _ | .key _ | .pinEntryTimeout | .readerFrameTimeout _
  | .releaseEnd | .exitButtonPress | .doorOpenEdge | .doorShutEdge | .heldLimitEnd
  | .scheduleDue _ | .nightOn | .nightOff | .lockdownOn | .lockdownOff | .tariff1 | .tariff2
  | .dayRoll | .clockWrap | .powerUp _ _ _ | .powerFail => none

/-- A start may follow the command: RESTART or POWER_UP (R203). -/
def isStart : Instr → Bool
  | .restart _ => true
  | .powerUp _ _ _ => true
  | _ => false

/-! ### Outlets and sales that leave PWB -/

/-- From `s` to `w` SPC commanded the outlets `gone` into the state `o` and told PWB (R75): each has left
PWB's lists and G, its ENERGISE or RAISE demand is withdrawn (R56), and a raise it had pending ends BUDGET
with PROFILE DONE flagged (R98). What PWB then does on the fall of G is not yet done. -/
def OutletsOut (gone : List Nat) (o : OutletState) (s w : State) : Prop :=
  (∀ q ∈ gone, ∀ p, s.point? q = some p → w.point? q = some { p with
    outlet := o
    raisePending := none
    raiseLast := if p.raisePending.isSome = true then .budget else p.raiseLast }) ∧
  (∀ q, q ∉ gone → w.point? q = s.point? q) ∧
  w.pwb = { s.pwb with
    energised := s.pwb.energised.filter fun e => !gone.contains e.point
    shed := s.pwb.shed.filter fun e => !gone.contains e.point
    demands := s.pwb.demands.filter fun d => d.kind == .pump || !gone.contains d.source } ∧
  w.ceiling = s.ceiling ∧ w.load + ((s.pwb.energised.filter fun e =>
    gone.contains e.point).map OutletLoad.figure).sum = s.load ∧
  w.pnp = (if gone.any fun q => ((s.point? q).bind Point.raisePending).isSome
    then s.pnp.flagged Flag.profileDone.bit else s.pnp) ∧
  w.spc = { s.spc with points := w.spc.points } ∧ OnlyChanges [.pnp, .pwb, .spc] s w

/-- From `s` to `w` FDC's part of an unused end of the sale `x` of pump `n` (R110): its QUEUED demand is
withdrawn or its HELD load gone, a hold taken is given back by a SETTLE of amount 0 while ON LINE, the ask
closes, the journal record goes, and the pump `p` is IDLE with the outcome `o`. -/
def SaleGone (n : Nat) (p : Pump) (x : Sale) (o : LastOutcome) (s w : State) : Prop :=
  let flag : Flag := if x.state = .authorising then .authDone else .authLapsed
  w.pump? n = some { p.closeAsk x.number x.hold with
    sale := none
    main := false
    slow := false
    last := o } ∧
  (∀ m, m ≠ n → w.pump? m = s.pump? m) ∧ w.pumpLoads + p.heldLoad = s.pumpLoads ∧
  w.pwb = { s.pwb with demands := if x.load = .queued
    then s.pwb.demands.filter fun d => d.kind != .pump || d.source != n else s.pwb.demands } ∧
  w.fdc.journal = s.fdc.journal.filter (fun r => r.number != x.number) ∧
  w.fdc.saleNo = s.fdc.saleNo ∧ w.fdc.emergency = s.fdc.emergency ∧ w.hasFlag flag = true ∧
  (x.hold = none ∨ s.lif.state ≠ .onLine → w.lif = s.lif ∧ w.pnp = s.pnp.flagged flag.bit) ∧
  (∀ h, x.hold = some h → s.lif.state = .onLine → s.lif.tx.length < 12 →
    ∃ f ∈ w.lif.tx, f.serial = s.lif.serial ∧
      f.frame = settleFrame s.me h.home h.hold 0 h.occ x.number) ∧
  OnlyChanges [.pnp, .lif, .pwb, .fdc] s w

/-- From `s` to `t` the sale `x` of pump `n` ended unused, and PWB went on (R110): the release of a HELD load
has the head examined and, with the queue empty, the restore pass run; a QUEUED demand withdrawn, what its
leaving the queue calls for (R55, R57). -/
def EndsUnused (n : Nat) (p : Pump) (x : Sale) (o : LastOutcome) (s t : State) : Prop :=
  ∃ w, SaleGone n p x o s w ∧ t = (if x.load = .queued then w.settleSince s else w.settle) ∧
    t.pump? n = w.pump? n ∧ t.hasFlag (if x.state = .authorising then .authDone else .authLapsed) = true

/-! ### Keys heard and closures -/

/-- From `s` to `t` the key `k` was heard for the round `r`, which is not WON (R13, R15): the best heard
takes it where it is lower; a key below the own one ends the round's bid, WITHDRAWN where its BID never
began transmission and LOST otherwise; no other round changes. -/
def KeyHeard (r : Round) (k : BidKey) (s t : State) : Prop :=
  let heard : Round := { r with best := some (match r.best with
    | none => k
    | some b => if k.score < b.score ∨ (k.score = b.score ∧ k.station < b.station) then k else b) }
  let lower : Prop := ∃ own, r.ownKey = some own ∧
    (k.score < own.score ∨ (k.score = own.score ∧ k.station < own.station))
  let bids : Prop := r.state = .waiting ∨ r.state = .bidQueued ∨ r.state = .bidSent
  let unsent : Prop := ∃ n, r.bidFrame = some n ∧
    ((s.lif.attempt ≠ some n ∧ ∃ g ∈ s.lif.tx, g.serial = n) ∨
      ∃ x ∈ s.lif.reports, x.serial = n ∧ x.sent = false)
  (∀ tag, tag ≠ r.tag → t.round? tag = s.round? tag) ∧
  (¬ (lower ∧ bids) → t.round? r.tag = some heard ∧ t.bal.berths = s.bal.berths ∧ t.lif = s.lif) ∧
  (lower → bids → t.bal.berths = s.bal.berths.map fun b =>
    if b.mark = some r.tag then { b with mark := none } else b) ∧
  (lower → r.state = .waiting → t.lif = s.lif ∧ t.round? r.tag = some { heard with
    state := .withdrawn
    delayEnd := none }) ∧
  (lower → r.state = .bidSent → t.lif = s.lif ∧ t.round? r.tag = some { heard with state := .lost }) ∧
  (lower → r.state = .bidQueued →
    t.lif = { s.lif with tx := s.lif.tx.filter fun g =>
      !(r.bidFrame == some g.serial && s.lif.attempt != some g.serial) } ∧
    (unsent → t.round? r.tag = some { heard with state := .withdrawn }) ∧
    (¬ unsent → t.round? r.tag = some { heard with state := .lost }))

/-- The closure record of the live record `r`, removed at the station time of `s` (R34). -/
def IsClosureOf (s : State) (r : Occupancy) (reason : CloseReason) (c : Closure) : Prop :=
  c.occupancy = r.number ∧ c.berth = r.berth ∧ c.cls = r.cls ∧ c.arrival = r.arrival ∧
  c.nights = r.nights ∧ c.reason = reason ∧ c.closedAt = s.now ∧ c.balance = r.account.balance ∧
  c.late = r.account.late ∧
  (s.link? r.number = none → c.energy = 0 ∧ c.water = 0) ∧
  (∀ l, s.link? r.number = some l → c.energy = l.energy ∧ c.water = l.water)

/-! ### PWB's head demand -/

/-- The point `q` OFF with its ENERGISE demand, of a figure, at the end of PWB's queue (R56, R78). -/
def State.withEnergise (q figure : Nat) (s : State) : State :=
  { s.modPoint q fun x => { x with outlet := .off } with
    moments := s.moments + 1
    pwb := { s.pwb with demands := s.pwb.demands ++
      [Demand.mk (s.moments + 1) .energise q figure false []] } }

/-- From `s` to `t` an ENERGISE demand of the point `q` was offered at the profile `y` (R56, R57): examined
at once where the queue is empty, so served where nothing is shed and it fits, queued where the queue is not
empty, and SHED where the queue is full; the tap follows (R78). `x` is the point before it. -/
def Offered (q : Nat) (x : Point) (y : Profile) (s t : State) : Prop :=
  let tapped (z : Point) : Point := z.setTap (x.tapFitted && y.tapOpen)
  (s.pwb.demands = [] → ∃ u, u.point? q = some x ∧ (∀ m, m ≠ q → u.point? m = s.point? m) ∧
    u.occ.records = s.occ.records ∧ OnlyChanges [.occ, .spc] s u ∧
    t = (u.withEnergise q y.figure).settle.followTap q) ∧
  (s.pwb.demands = [] → s.pwb.shed = [] → (y.figure : Int) ≤ s.ceiling - s.load →
    t.point? q = some (tapped { x with
      outlet := .on
      interval := max x.interval y.figure }) ∧
    t.pwb = { s.pwb with energised := s.pwb.energised ++ [⟨q, y.figure, s.moments + 2⟩] } ∧
    t.pnp = s.pnp) ∧
  (s.pwb.demands ≠ [] → s.pwb.demands.length < 8 →
    t.point? q = some (tapped { x with outlet := .off }) ∧
    t.pwb = { s.pwb with demands := s.pwb.demands ++
      [Demand.mk (s.moments + 1) .energise q y.figure false []] } ∧ t.pnp = s.pnp) ∧
  (8 ≤ s.pwb.demands.length → t.point? q = some (tapped { x with outlet := .shed }) ∧
    t.pwb = { s.pwb with shed := insertMoment ⟨q, y.figure, s.moments + 1⟩ s.pwb.shed } ∧
    t.pnp = s.pnp.flagged Flag.outletShed.bit)

/-- From `s` to `t` the head `d` was served, `rest` being the demands behind it (R57): its need joins G
and its submitter acts (R98, R109), whatever the state and account of the outlet's occupancy (R75, log 69). -/
def HeadServed (d : Demand) (rest : List Demand) (s t : State) : Prop :=
  (d.kind = .energise →
    t.pwb = { s.pwb with
      demands := rest
      energised := s.pwb.energised ++ [⟨d.source, d.need, s.moments + 1⟩] } ∧
    (∀ p, s.point? d.source = some p → t.point? d.source = some { p with
      outlet := .on
      interval := max p.interval d.need }) ∧
    (∀ m, m ≠ d.source → t.point? m = s.point? m) ∧ OnlyChanges [.moments, .pwb, .spc] s t) ∧
  (d.kind = .raise →
    t.pwb = { s.pwb with
      demands := rest
      energised := s.pwb.energised.map fun e =>
        if e.point = d.source then { e with figure := e.figure + d.need } else e } ∧
    (∀ (p : Point) (y : Profile) (n : Nat) (r : Occupancy), s.point? d.source = some p →
      p.raisePending = some y → p.charging = some n → s.occ? n = some r →
      t.occ? n = some { r with profile := some y } ∧ (∀ m, m ≠ n → t.occ? m = s.occ? m) ∧
      t.point? d.source = some (Point.setTap { p with
        raisePending := none
        raiseLast := .applied
        interval := max p.interval y.figure }
        (p.tapFitted && decide (r.state = .alongside ∧ r.account.state ≠ .barred) && y.tapOpen)) ∧
      t.hasFlag .profileDone = true) ∧
    (∀ m, m ≠ d.source → t.point? m = s.point? m) ∧ OnlyChanges [.pnp, .occ, .pwb, .spc] s t) ∧
  (d.kind = .pump → t.pwb = { s.pwb with demands := rest } ∧
    (∀ (p : Pump) (x : Sale) (f : PumpConfig), s.pump? d.source = some p → p.sale = some x →
      p.config = some f →
      let ready : Prop := x.state = .authorising ∧ (x.card = none ∨ x.hold.isSome = true)
      (x.load = .queued → t.pumpLoads = s.pumpLoads + f.load ∧ t.load = s.load + f.load) ∧
      (¬ ready → t.pump? d.source = some { p with sale := some { x with load := .held } } ∧
        t.pnp = s.pnp) ∧
      (ready → t.hasFlag .authDone = true ∧ t.pump? d.source = some { p with
        sale := some { x with
          state := .authorised
          load := .held
          timer := some (s.elapsed + f.authTimeout * 1000000) }
        last := .authorised })) ∧
    (∀ m, m ≠ d.source → t.pump? m = s.pump? m) ∧ t.fdc.journal = s.fdc.journal ∧
    OnlyChanges [.pnp, .pwb, .fdc] s t)

/-- From `s` to `t` the head `d` failed, `rest` being the demands behind it (R60): the outlet is SHED with
energising time now, the raise ends BUDGET, or the sale ends unused; a failed ask flags ASK SHORT. -/
def HeadFailed (d : Demand) (c : FailCause) (short : Bool) (rest : List Demand) (s t : State) : Prop :=
  (short = true → t.hasFlag .askShort = true) ∧
  (d.kind = .energise →
    t.pwb = { s.pwb with
      demands := rest
      shed := insertMoment ⟨d.source, d.need, s.moments + 1⟩ s.pwb.shed } ∧
    (∀ p, s.point? d.source = some p → t.point? d.source = some { p with outlet := .shed }) ∧
    (∀ m, m ≠ d.source → t.point? m = s.point? m) ∧ t.hasFlag .outletShed = true ∧
    OnlyChanges [.moments, .pnp, .pwb, .spc] s t) ∧
  (d.kind = .raise → t.pwb = { s.pwb with demands := rest } ∧
    (∀ p, s.point? d.source = some p → p.raisePending.isSome = true →
      t.point? d.source = some { p with
        raisePending := none
        raiseLast := .budget } ∧ t.hasFlag .profileDone = true) ∧
    (∀ m, m ≠ d.source → t.point? m = s.point? m) ∧ OnlyChanges [.pnp, .pwb, .spc] s t) ∧
  (d.kind = .pump → t.pwb = { s.pwb with demands := rest } ∧
    (∀ (p : Pump) (x : Sale), s.pump? d.source = some p → p.sale = some x → x.state = .authorising →
      t.pump? d.source = some { p.closeAsk x.number x.hold with
        sale := none
        main := false
        slow := false
        last := .refused (match c with | .budget => .budget | .noLine => .noLine) } ∧
      t.fdc.journal = s.fdc.journal.filter (fun r => r.number != x.number) ∧
      t.hasFlag .authDone = true ∧
      (x.hold = none ∨ s.lif.state ≠ .onLine → t.lif = s.lif) ∧
      (∀ h, x.hold = some h → s.lif.state = .onLine → s.lif.tx.length < 12 →
        ∃ f ∈ t.lif.tx, f.serial = s.lif.serial ∧
          f.frame = settleFrame s.me h.home h.hold 0 h.occ x.number)) ∧
    (∀ m, m ≠ d.source → t.pump? m = s.pump? m) ∧ OnlyChanges [.pnp, .lif, .pwb, .fdc] s t)

/-- A loan out the head may have recalled: ACTIVE without a pledged addition (R58). -/
def mayRecall (l : Loan) : Bool := l.lent && l.state == .active && l.addition == none

/-- From `s` to `t` the head `d` had loans out recalled for a shortfall (R58): the newest first, until
their amounts reach it or none remains, each RECALLED with its deadline and a LOAN RECALL queued. -/
def HeadRecalls (d : Demand) (rest : List Demand) (shortfall : Nat) (s t : State) : Prop :=
  ∃ taken left : List Loan, s.pwb.loans.reverse.filter mayRecall = taken ++ left ∧
    (∀ before l after, taken = before ++ l :: after → (before.map Loan.amount).sum < shortfall) ∧
    (left = [] ∨ shortfall ≤ (taken.map Loan.amount).sum) ∧
    t.pwb = { s.pwb with
      loans := s.pwb.loans.map fun l => if l ∈ taken then { l with
        state := .recalled
        deadline := some (s.elapsed + s.settings.recallPeriod * 1000000) } else l
      demands := { d with recalls := d.recalls ++ taken.map Loan.partner } :: rest } ∧
    (s.lif.state = .onLine → s.lif.tx.length + taken.length ≤ 12 → ∀ l ∈ taken,
      ∃ f ∈ t.lif.tx, f.frame = loanRecallFrame s.me l.partner l.pledge l.amount) ∧
    OnlyChanges [.pnp, .lif, .pwb] s t

/-- From `s` to `t` the head `d` asked the line for an amount (R59, R61): the ask sequence rises, a LOAN
ASK is queued and its collection opens. -/
def HeadAsks (d : Demand) (rest : List Demand) (amount : Nat) (s t : State) : Prop :=
  let seq : Nat := (s.pwb.askSeq + 1) % 256
  t.pwb = { s.pwb with
    askSeq := seq
    collection := some ⟨seq, amount, s.lif.serial, d.id, none, []⟩
    demands := { d with asked := true } :: rest } ∧
  (s.lif.state = .onLine → s.lif.tx.length < 12 → ∃ f ∈ t.lif.tx, f.serial = s.lif.serial ∧
    f.frame = loanAskFrame s.me seq amount) ∧
  OnlyChanges [.pnp, .lif, .pwb] s t

/-- From `s` to `t` each offer of a list was declined (R62): a LOAN DECLINE to its lender. -/
def Declined (offers : List Offer) (s t : State) : Prop :=
  (s.lif.state = .onLine → s.lif.tx.length + offers.length ≤ 12 → ∀ o ∈ offers,
    ∃ f ∈ t.lif.tx, f.frame = loanDeclineFrame s.me o.lender o.pledge) ∧
  OnlyChanges [.pnp, .lif] s t

/-! ### Sound states -/

/-- The attention line is driven exactly while a flag is pending (R192). -/
def AttentionSound (s : State) : Prop := s.pnp.attention = (s.pnp.pendingMask != 0)

/-- LIF's queues: within their sizes (R165, R173), the transmit queue in identifier order with every
note given once, the frame of an attempt in it, and both empty while the station is not on the line
(R175, R179). -/
def LineSound (s : State) : Prop :=
  s.lif.tx.length ≤ 12 ∧ s.lif.rx.length ≤ 16 ∧
  s.lif.tx.Pairwise (fun f g => f.frame.ident.toNat ≤ g.frame.ident.toNat) ∧
  s.lif.tx.Pairwise (fun f g => f.serial ≠ g.serial) ∧
  (∀ f ∈ s.lif.tx, f.serial < s.lif.serial) ∧
  (∀ n, s.lif.attempt = some n → ∃ f ∈ s.lif.tx, f.serial = n) ∧
  (s.lif.state = .unconfigured ∨ s.lif.state = .lineOff → s.lif.tx = [] ∧ s.lif.rx = [])

/-- OCC's table: numbers rising within 1-64 (R25), no two live stays of a berth sharing a night (R26),
each list within its size (R34, R40, R42), and hold ids 1-255 given once (R40). -/
def OccupancySound (s : State) : Prop :=
  s.occ.records.Pairwise (fun a b => a.number < b.number) ∧
  (∀ r ∈ s.occ.records, 1 ≤ r.number ∧ r.number ≤ 64 ∧ r.holds.length ≤ 4 ∧ r.receipts.length ≤ 4) ∧
  s.occ.records.Pairwise (fun a b => a.berth = b.berth →
    ¬ (a.arrival < b.arrival + b.nights ∧ b.arrival < a.arrival + a.nights)) ∧
  s.occ.closures.length ≤ 8 ∧
  (s.occ.records.flatMap fun r => r.holds.map Hold.id).Nodup ∧
  (∀ r ∈ s.occ.records, ∀ h ∈ r.holds, 1 ≤ h.id ∧ h.id ≤ 255)

/-- The tables of BAL, PWB and FDC within their sizes (R10, R53, R56, R124), the journal with no sale
number twice (R124). -/
def TablesSound (s : State) : Prop :=
  s.bal.rounds.length ≤ 4 ∧ s.pwb.loans.length ≤ 16 ∧ s.pwb.demands.length ≤ 8 ∧
  s.fdc.journal.length ≤ 64 ∧ (s.fdc.journal.map JournalRecord.number).Nodup

/-- No two rounds of the round table carry the same tag (R10). -/
def RoundsApart (s : State) : Prop := (s.bal.rounds.map Round.tag).Nodup

/-- The clock's milliseconds and microseconds stay below a second and a millisecond (R147). -/
def ClockSound (s : State) : Prop := s.sch.ms < 1000 ∧ s.sch.us < 1000

/-- A pump's valves are open only in DELIVERING, the main one only with the slow one (R112); with the
emergency mark set, a sale is finishing or settling (R116). -/
def Pump.sound (emergency : Bool) (p : Pump) : Prop :=
  (p.main = true → p.slow = true) ∧
  (p.slow = true → ∃ x, p.sale = some x ∧ x.state = .delivering) ∧
  (emergency = true → ∀ x, p.sale = some x → x.state = .finishing ∨ x.state = .settling)

/-- Both pumps are sound. -/
def FuelSound (s : State) : Prop :=
  s.fdc.pump1.sound s.fdc.emergency ∧ s.fdc.pump2.sound s.fdc.emergency

end Sys2Proof.Machine
end

