-- ==== Sys2Proof/Certificates/Slice0/Obligations.lean ====
section
/-! DEFINITION. The statements for the provers: what the rules of spec/ say that each command does,
what it leaves unchanged, and what every step keeps. -/

open Sys2Proof
open Sys2Proof.Machine

/-! ### The step, the starts, power -/

/-- Taking the front command of the queue is running it with the rest of the queue. -/
def Obligations.StepRunsFrontCommand : Prop :=
  ∀ (c : Instr) (rest : List Instr) (s : State), s.pending = c :: rest →
    step s = exec c { s with pending := rest }

/-- No command stops the part (R185: a request that cannot be carried out is answered REFUSED), and each
changes only the state of the block that owns it and of the blocks that block tells. -/
def Obligations.EveryCommandCompletesWithinItsParts : Prop :=
  ∀ (c : Instr) (s : State), ∃ t, exec c s = .next t ∧ OnlyChanges (mayChange c) s t

/-- With nothing waiting one microsecond passes (log 1, the model's choice); time that runs on moves
elapsed time and the station clock together, the seconds wrapping to 0 (R147). -/
def Obligations.TimeRunsOnTogether : Prop :=
  (∀ s : State, s.pending = [] → step s = .next (s.advance 1)) ∧
  (∀ (n : Nat) (s : State), s.sch.micros < 4294967296 * 1000000 →
    (s.advance n).elapsed = s.elapsed + n ∧
    (s.advance n).sch.micros = (s.sch.micros + n) % (4294967296 * 1000000) ∧
    (s.advance n).sch.tariffSet = s.sch.tariffSet ∧ (s.advance n).sch.places = s.sch.places ∧
    (s.advance n).sch.firings = s.sch.firings ∧ OnlyChanges [.elapsed, .sch] s (s.advance n)) ∧
  (∀ (n : Nat) (s : State), 0 < n →
    (s.advance n).sch.ms < 1000 ∧ (s.advance n).sch.us < 1000 ∧ (s.advance n).sch.sec < 4294967296)

/-- A power-up whose backup is not valid is a cold start: every table empty, every counter at its
start value, the start answer COLD (R203, R204, R193, R182).
The model's choices in it: log 11. -/
def Obligations.PowerUpColdStart : Prop :=
  ∀ (inp : StartInputs) (held agrees : Bool) (s : State), (held && agrees) = false →
    ∃ t, exec (.powerUp inp held agrees) s = .next t ∧ t.powered = true ∧ t.startKind = .cold ∧
      t.straps = { station := inp.station, slowLine := inp.slowLine, dock := inp.dock } ∧
      t.bal = { berths := [], rounds := [], seq := 0, lastTag := none, result := .none, await := none } ∧
      t.occ = { records := [], closures := [], holdId := 0, notices := [] } ∧
      t.pwb = { loans := [], demands := [], energised := [], shed := [], pledgeId := 0, askSeq := 0,
                collection := none } ∧
      t.settings.baseShare = 0 ∧ t.ceiling = 0 ∧ t.ownCeiling = 0 ∧ t.load = 0 ∧ t.pumpLoads = 0 ∧
      t.spc.points = [] ∧ t.spc.links = [] ∧ t.spc.heldBack = [] ∧ t.acknowledges = false ∧ (∀ q ∈ t.spc.posts, q.state = .good ∧ q.bad = 0) ∧
      (∀ p, p = t.fdc.pump1 ∨ p = t.fdc.pump2 →
        p.config = none ∧ p.sale = none ∧ p.askSeq = 0 ∧ p.stray = 0 ∧ p.main = false ∧ p.slow = false) ∧
      t.fdc.journal = [] ∧ t.fdc.saleNo = 0 ∧ t.fdc.emergency = inp.emergency ∧
      t.gtc.openTime = 5 ∧ t.gtc.heldLimit = 60 ∧ t.gtc.waiverLength = 4 ∧
      t.gtc.arriveOnEntry = false ∧ t.gtc.staff = [] ∧ t.gtc.night = false ∧ t.gtc.lockdown = false ∧
      t.gtc.entry = none ∧ t.gtc.last = none ∧ t.gtc.release = none ∧
      t.gtc.door.isOpen = inp.doorOpen ∧
      t.sch.sec = 0 ∧ t.sch.ms = 0 ∧ t.sch.tariffSet = 1 ∧ t.sch.places = [] ∧
      (∀ e : Edge, t.cap.get e = { single := false, time := none, mark := false, missed := 0 }) ∧
      t.lif.state = .unconfigured ∧ t.lif.tx = [] ∧ t.lif.rx = [] ∧ t.lif.failed = 0 ∧
      t.lif.dropped = 0 ∧
      t.pnp.flags = 1#64 <<< 60 ∧ t.pnp.enables = 0 ∧ t.pnp.levels = ⟨0, 0, 0, 0, 0, 0, 0⟩ ∧
      t.pnp.threshold = 1 ∧ t.pnp.attention = false ∧ t.pnp.ready = true ∧ t.pnp.answerNo = 0 ∧
      t.pnp.answer = { code := 0, number := 0, result := .done, clamped := false, cause := none,
                       data := [⟨1, 1⟩] } ∧
      t.pending = s.pending

/-- A power-up with a valid backup, and a RESTART that is taken, are warm starts: the occupancy table,
the closure list, the hold-id counter, the journal, the sale number counter and the clock are kept,
OPEN records are closed INTERRUPTED, and the rest starts again (R203, R205, R206, R127).
The model's choices in it: log 11. -/
def Obligations.WarmStartRetains : Prop :=
  ∀ (c : Instr) (inp : StartInputs) (s : State),
    (c = .powerUp inp true true ∨
      (c = .restart inp ∧ s.powered = true ∧ s.pnp.discards = false)) →
    ∃ t, exec c s = .next t ∧ t.powered = true ∧ t.startKind = .warm ∧
      t.straps = { station := inp.station, slowLine := inp.slowLine, dock := inp.dock } ∧
      t.occ.records = s.occ.records ∧ t.occ.closures = s.occ.closures ∧ t.occ.holdId = s.occ.holdId ∧
      t.fdc.saleNo = s.fdc.saleNo ∧ t.sch.sec = s.sch.sec ∧ t.sch.ms = s.sch.ms ∧
      t.fdc.journal.map JournalRecord.number = s.fdc.journal.map JournalRecord.number ∧
      (∀ (i : Nat) (r : JournalRecord), s.fdc.journal[i]? = some r → r.closed = true → t.fdc.journal[i]? = some r) ∧
      (∀ (i : Nat) (r : JournalRecord), s.fdc.journal[i]? = some r → r.closed = false →
        ∃ r' : JournalRecord, t.fdc.journal[i]? = some r' ∧ r'.closed = true ∧ r'.flags.interrupted = true ∧
          (r.card.isSome = true → r'.flags.unsettled = true) ∧
          (r.charged.isSome = true → r'.charged = r.charged ∧ r'.endTime = r.endTime) ∧
          (r.charged = none → r.startTime.isSome = true →
            r'.charged = some (min ((r.volume * r.price + 50) / 100) r.preset)) ∧
          (r.charged = none → r.startTime = none → r'.volume = 0 ∧ r'.charged = some 0)) ∧
      (t.hasFlag .saleClosed = true ↔ ∃ r ∈ s.fdc.journal, r.closed = false) ∧
      t.hasFlag .warmStart = true ∧ t.hasFlag .coldStart = false ∧
      t.pnp.answer = { code := 0, number := 0, result := .done, clamped := false, cause := none,
                       data := [⟨1, 2⟩] } ∧
      t.pnp.answerNo = 0 ∧ t.pnp.ready = true ∧ t.pnp.attention = false ∧
      t.lif.state = .unconfigured ∧ t.lif.tx = [] ∧ t.lif.rx = [] ∧
      t.bal = { berths := [], rounds := [], seq := 0, lastTag := none, result := .none, await := none } ∧
      t.pwb = { loans := [], demands := [], energised := [], shed := [], pledgeId := 0, askSeq := 0,
                collection := none } ∧
      t.spc.points = [] ∧ t.spc.links = [] ∧ t.spc.heldBack = [] ∧ t.acknowledges = false ∧ t.fdc.pump1.sale = none ∧ t.fdc.pump2.sale = none ∧
      t.gtc.staff = [] ∧ t.gtc.night = false ∧ t.gtc.lockdown = false ∧ t.gtc.release = none ∧
      t.sch.places = [] ∧ t.sch.tariffSet = 1 ∧ t.pending = s.pending

/-- POWER_FAIL takes the part's power and nothing else; without power no command but POWER_UP changes
anything, the transaction at the port and the wrap of the clock, which runs on, apart (R147, R207; log 11). -/
def Obligations.NothingHappensWithoutPower : Prop :=
  (∀ s : State, exec .powerFail s = .next { s with powered := false }) ∧
  (∀ (c : Instr) (s : State), s.powered = false →
    (∀ inp held agrees, c ≠ .powerUp inp held agrees) → c ≠ .clockWrap →
    ∃ x, exec c s = .next { s with pnp := { s.pnp with transaction := x } })

/-! ### The panel port -/

/-- At the assertion the answer buffer is chosen when the ready mark is set, the not-ready marker when
it is clear; the decision and the assertion may come in either order (R180, R181; log 7). Every request
whose transaction chose the not-ready marker is discarded unread, and nothing but the transaction
changes (R181). -/
def Obligations.TransactionChoosesAtItsAssertion : Prop :=
  (∀ (decided : Bool) (s : State), s.powered = true →
     (s.pnp.ready = true → (decided = true ∨ s.pnp.request = none) →
       exec (.selectAssert decided) s = .next { s with pnp := { s.pnp with
         request := none, transaction := some (.answer s.pnp.answer.bytes) } }) ∧
     (s.pnp.ready = false ∨ (decided = false ∧ s.pnp.request.isSome = true) →
       exec (.selectAssert decided) s = .next { s with pnp := { s.pnp with
         transaction := some .notReady } })) ∧
  (∀ (c : Instr) (s : State), s.powered = true → s.pnp.discards = true →
     ((requestCode c).isSome = true ∨ c = .requestDiscarded ∨ c = .null ∨
       (∃ code len received kind, c = .malformedRequest code len received kind) ∨
       (∃ inp, c = .restart inp)) →
     exec c s = .next { s with pnp := { s.pnp with transaction := none } })

/-- Every request taken is answered once, with the next answer number, its own code and the ready mark
set (R180, R181); one that PNP refuses itself in UNCONFIGURED leaves no request to decide, so that the next
assertion shifts its answer (R180, R184).
The model's choices in it: log 7, 8. -/
def Obligations.EveryTakenRequestIsAnsweredOnce : Prop :=
  ∀ (c : Instr) (code : Nat) (s : State), requestCode c = some code → s.powered = true →
    s.pnp.discards = false →
    ∃ t, exec c s = .next t ∧ t.pnp.answerNo = (s.pnp.answerNo + 1) % 256 ∧
      t.pnp.answer.number = t.pnp.answerNo ∧ t.pnp.answer.code = code ∧ t.pnp.ready = true ∧
      t.pnp.transaction = none ∧
      t.pnp.request = (if s.lif.state = .unconfigured ∧ takenUnconfigured code = false then none
        else some code) ∧
      ((s.lif.state = .unconfigured ∧ takenUnconfigured code = false) → ∀ decided,
        exec (.selectAssert decided) t = .next { t with pnp := { t.pnp with
          transaction := some (.answer t.pnp.answer.bytes) } }) ∧
      (t.pnp.answer.result = .refused ↔ t.pnp.answer.cause.isSome = true)

/-- In UNCONFIGURED every request outside the list is refused STATE and changes nothing (R184). NULL
leaves the answer buffer, the ready mark and the answer number (R182); a frame that fails R183's checks is
refused RANGE, under code 0xFE with the code received when the part has no such code; any other frame is a
request of its code, the bytes past its length ignored (R183, R210).
The model's choices in it: log 8, 38, 39. -/
def Obligations.FramesRefusedBeforeTheirBlocks : Prop :=
  (∀ (c : Instr) (code : Nat) (s : State), requestCode c = some code → s.powered = true →
     s.pnp.discards = false → s.lif.state = .unconfigured →
     code ∉ [0, 1, 2, 3, 4, 6, 40, 58, 7, 8, 9] →
     exec c s = .next { s with pnp := s.pnp.refusedBy code (.refused .state) }) ∧
  ((∀ s : State, s.powered = true → s.pnp.discards = false →
     exec .null s = .next { s with pnp := { s.pnp with request := none, transaction := none } }) ∧
   (∀ (code len received kind : Nat) (s : State), s.powered = true → s.pnp.discards = false →
     codeKnown code = true → requestLength code kind ≠ some len ∨ received < len →
     exec (.malformedRequest code len received kind) s =
       .next { s with pnp := s.pnp.refusedBy code (.refused .range) }) ∧
   (∀ (code len received kind : Nat) (s : State), s.powered = true → s.pnp.discards = false →
     codeKnown code = false →
     exec (.malformedRequest code len received kind) s =
       .next { s with pnp := s.pnp.refusedBy 0xFE ⟨.refused, false, some .range, [⟨1, code⟩]⟩ })) ∧
  (∀ (inp : StartInputs) (c l : Byte) (ps : List Byte),
    let code : Nat := c.toNat
    let kind : Nat := if code = 1 then (match ps with | b :: _ => b.toNat | [] => 0) else 0
    let formed : Prop := codeKnown code = true ∧ requestLength code kind = some l.toNat ∧
      l.toNat ≤ ps.length
    (¬ formed → decodeRequest inp (c :: l :: ps) =
      some (.malformedRequest code l.toNat (min 255 ps.length) kind)) ∧
    (formed → (∃ i, decodeRequest inp (c :: l :: ps) = some i ∧ (code = 0 → i = .null) ∧
        (code = 3 → i = .restart inp) ∧ (code ≠ 0 → code ≠ 3 → requestCode i = some code)) ∧
      ∀ more, decodeRequest inp (c :: l :: (ps ++ more)) = decodeRequest inp (c :: l :: ps)))

/-- FLAGS READ gives the set, enabled and pending flags, the levels, the threshold, the lowest pending
number (0 when none) and the line, and changes nothing (R189, R192); FLAGS CLEAR clears the flags of its
mask and no other, and the line is examined in the same step (R190, R192); FLAGS SETUP writes every given
value together and keeps the others, or refuses RANGE and writes nothing (R191, R192). -/
def Obligations.FlagsReadClearAndSetup : Prop :=
  ((∀ s : State, Takes 7 s →
     ∃ lowest : Nat,
       exec .flagsRead s = .next { s with pnp := s.pnp.answered 7 (.done
         ([⟨8, s.pnp.flags.toNat⟩, ⟨8, s.pnp.enables.toNat⟩, ⟨1, s.pnp.levels.berth⟩,
           ⟨1, s.pnp.levels.occupancy⟩, ⟨1, s.pnp.levels.power⟩, ⟨1, s.pnp.levels.fuel⟩,
           ⟨1, s.pnp.levels.gate⟩, ⟨1, s.pnp.levels.line⟩, ⟨1, s.pnp.levels.station⟩,
           ⟨1, s.pnp.threshold⟩, ⟨8, s.pnp.pendingMask.toNat⟩, ⟨1, lowest⟩,
           ⟨1, s.pnp.attention.toNat⟩])) } ∧
       (s.pnp.pendingMask = 0 → lowest = 0) ∧
       (s.pnp.pendingMask ≠ 0 → 1 ≤ lowest ∧ lowest ≤ 64 ∧
         s.pnp.pendingMask.getLsbD (lowest - 1) = true ∧
         ∀ i, i < lowest - 1 → s.pnp.pendingMask.getLsbD i = false)) ∧
   (∀ (mask : BitVec 64) (s : State), Takes 8 s →
     exec (.flagsClear mask) s =
       let p : Pnp := { s.pnp with flags := s.pnp.flags &&& ~~~mask }
       let q : Pnp := { p with attention := p.pendingMask != 0 }
       .next { s with pnp := q.answered 8 (.done [⟨8, q.flags.toNat⟩, ⟨1, q.attention.toNat⟩]) })) ∧
  (∀ (enables : BitVec 64) (keep : Nat) (l : Levels) (threshold : Nat) (s : State), Takes 9 s →
     (keep ≤ 1 → (∀ n ∈ [l.berth, l.occupancy, l.power, l.fuel, l.gate, l.line, l.station],
         n ≤ 3 ∨ n = 15) → ((1 ≤ threshold ∧ threshold ≤ 3) ∨ threshold = 15) →
       ∃ t, exec (.flagsSetup enables keep l threshold) s = .next t ∧
         t.pnp.flags = s.pnp.flags ∧
         t.pnp.enables = (if keep = 1 then s.pnp.enables else enables &&& namedMask) ∧
         t.pnp.levels =
           { berth := if l.berth = 15 then s.pnp.levels.berth else l.berth
             occupancy := if l.occupancy = 15 then s.pnp.levels.occupancy else l.occupancy
             power := if l.power = 15 then s.pnp.levels.power else l.power
             fuel := if l.fuel = 15 then s.pnp.levels.fuel else l.fuel
             gate := if l.gate = 15 then s.pnp.levels.gate else l.gate
             line := if l.line = 15 then s.pnp.levels.line else l.line
             station := if l.station = 15 then s.pnp.levels.station else l.station } ∧
         t.pnp.threshold = (if threshold = 15 then s.pnp.threshold else threshold) ∧
         AttentionSound t ∧ t.pnp.answer.result = .done ∧ OnlyChanges [.pnp] s t) ∧
     ((∃ n ∈ [l.berth, l.occupancy, l.power, l.fuel, l.gate, l.line, l.station], 3 < n ∧ n ≠ 15) ∨
         (threshold ≠ 15 ∧ (threshold = 0 ∨ 3 < threshold)) →
       exec (.flagsSetup enables keep l threshold) s =
         .next { s with pnp := s.pnp.answered 9 (.refused .range) }))

/-! ### Configuration (R196 to R201) -/

/-- The STATION section is taken in UNCONFIGURED with each value moved to the nearer end of its range,
the window not below the least its bid step asks for, the capture modes with it; CLAMPED says that a
value moved (R9, R196, R197). -/
def Obligations.ConfigureStationTakesClampedValues : Prop :=
  ∀ (v : StationSection) (s : State), Takes 1 s → s.lif.state = .unconfigured →
    ∃ t, exec (.configureStation v) s = .next t ∧
      t.settings =
        { window := max (max 40 (min 250 v.window))
            ((588 * (max 20 (min 200 v.bidStep)) + 999) / 1000 + 20)
          bidStep := max 20 (min 200 v.bidStep)
          fender := min 10 v.fender
          keel := max 2 (min 10 v.keel)
          creditLimit := min 10000000 v.creditLimit
          warnLevel := max (-10000000) (min 10000000 v.warnLevel)
          holdLifetime := max 10 (min 120 v.holdLifetime)
          overdueGrace := min 72 v.overdueGrace
          departureGrace := min 12 v.departureGrace
          baseShare := min 1023 v.baseShare
          keepMargin := min 63 v.keepMargin
          pledgeTimeout := max 1 (min 10 v.pledgeTimeout)
          recallPeriod := max 10 (min 600 v.recallPeriod)
          faultGrace := max 60 (min 3600 v.faultGrace) } ∧
      (∀ (e : Edge) (i : Nat),
        (e, i) ∈ [(Edge.doorOpen, 0), (.doorShut, 1), (.lift1, 2), (.hang1, 3), (.lift2, 4),
                  (.hang2, 5), (.press, 6), (.released, 7)] →
        t.cap.get e = { s.cap.get e with single := v.captureModes.getLsbD i }) ∧
      (t.pnp.answer.clamped = false ↔ t.settings = settingsOf v) ∧
      t.pnp = s.pnp.answered 1 ⟨.done, t.pnp.answer.clamped, none, []⟩ ∧
      OnlyChanges [.pnp, .settings, .cap] s t

/-- A BERTH, POINT, TARIFF or PUMP section in range of its number is written in UNCONFIGURED over any
earlier one, its values clamped, and every other entry stays (R1, R74, R101, R196, R198); so are the GATE
section, a STAFF credential with its count 0 and lock clear, and an IDLE schedule entry (R128, R129,
R152, R196, R198).
The model's choices in it: log 27. -/
def Obligations.ConfigureSectionsAreWritten : Prop :=
  (∀ s : State, Takes 1 s → s.lif.state = .unconfigured →
     (∀ v : BerthSection, 1 ≤ v.berth → v.berth ≤ 48 →
       ∃ t, exec (.configureBerth v) s = .next t ∧
         t.berth? v.berth = some
           { number := v.berth
             length := max 20 (min 800 v.length)
             width := max 15 (min 200 v.width)
             depth := min 100 v.depth
             point := if v.point = 0 then none else some (min 32 v.point)
             visitor := decide (min 3 v.classMask = 1 ∨ min 3 v.classMask = 3)
             member := decide (min 3 v.classMask = 2 ∨ min 3 v.classMask = 3)
             reserved := decide (1 ≤ v.reserved)
             mark := none } ∧
         (∀ n, n ≠ v.berth → t.berth? n = s.berth? n) ∧
         (t.pnp.answer.clamped = false ↔ 20 ≤ v.length ∧ v.length ≤ 800 ∧ 15 ≤ v.width ∧ v.width ≤ 200 ∧
           v.depth ≤ 100 ∧ v.point ≤ 32 ∧ v.classMask ≤ 3 ∧ v.reserved ≤ 1) ∧
         t.pnp.answer.result = .done ∧ OnlyChanges [.pnp, .bal] s t ∧
         t.bal.rounds = s.bal.rounds ∧ t.bal.result = s.bal.result ∧ t.bal.await = s.bal.await) ∧
     (∀ v : PointSection, 1 ≤ v.point → v.point ≤ 32 →
       ∃ t p, exec (.configurePoint v) s = .next t ∧ t.point? v.point = some p ∧
         p.maxRating = min 3 v.maxRating ∧ p.three = decide (1 ≤ v.three) ∧
         p.tapFitted = decide (1 ≤ v.tap) ∧ p.outlet = .off ∧ p.tapOpen = false ∧ p.charging = none ∧
         p.arrivals = [] ∧ p.energyBase = none ∧ p.waterBase = none ∧
         (∀ n, n ≠ v.point → t.point? n = s.point? n) ∧
         (t.pnp.answer.clamped = false ↔ v.maxRating ≤ 3 ∧ v.three ≤ 1 ∧ v.tap ≤ 1) ∧
         t.pnp.answer.result = .done ∧ OnlyChanges [.pnp, .spc] s t ∧
         t.spc.posts = s.spc.posts ∧ t.spc.links = s.spc.links ∧ t.spc.poll = s.spc.poll) ∧
     (∀ set energy water : Nat, (set = 1 ∨ set = 2) →
       exec (.configureTariff set energy water) s = .next { s with
         spc := { s.spc with
           tariff1 := if set = 1 then ⟨min 9999 energy, min 9999 water⟩ else s.spc.tariff1
           tariff2 := if set = 2 then ⟨min 9999 energy, min 9999 water⟩ else s.spc.tariff2 }
         pnp := s.pnp.answered 1 ⟨.done, decide (9999 < energy ∨ 9999 < water), none, []⟩ }) ∧
     (∀ v : PumpSection,
       ∃ t, exec (.configurePump v) s = .next t ∧
         (v.pump = 1 ∨ v.pump = 2 → ∃ p q, s.pump? v.pump = some p ∧ t.pump? v.pump = some q ∧
           q.config = some
             { grade := if v.grade ≤ 1 then .diesel else .petrol
               pulses := max 100 (min 2000 v.pulses)
               price := max 1 (min 999 v.price)
               load := min 32 v.load
               authTimeout := max 30 (min 600 v.authTimeout)
               suspendLimit := max 60 (min 900 v.suspendLimit) } ∧
           q = { p with config := q.config }) ∧
         (v.pump ≠ 1 → v.pump ≠ 2 → (∃ w ∈ t.fdc.straySections, w.pump = v.pump)) ∧
         (v.pump ≠ 1 → t.fdc.pump1 = s.fdc.pump1) ∧ (v.pump ≠ 2 → t.fdc.pump2 = s.fdc.pump2) ∧
         (t.pnp.answer.clamped = false ↔ 1 ≤ v.grade ∧ v.grade ≤ 2 ∧ 100 ≤ v.pulses ∧ v.pulses ≤ 2000 ∧
           1 ≤ v.price ∧ v.price ≤ 999 ∧ v.load ≤ 32 ∧ 30 ≤ v.authTimeout ∧ v.authTimeout ≤ 600 ∧
           60 ≤ v.suspendLimit ∧ v.suspendLimit ≤ 900) ∧
         t.pnp.answer.result = .done ∧ OnlyChanges [.pnp, .fdc] s t ∧ t.fdc.journal = s.fdc.journal)) ∧
  (∀ s : State, Takes 1 s → s.lif.state = .unconfigured →
     (∀ v : GateSection,
       exec (.configureGate v) s = .next { s with
         gtc := { s.gtc with
           openTime := max 2 (min 30 v.openTime)
           heldLimit := max 10 (min 300 v.heldLimit)
           waiverLength := min 12 v.waiverLength
           arriveOnEntry := decide (1 ≤ v.arriveOnEntry) }
         pnp := s.pnp.answered 1 ⟨.done, decide (v.openTime < 2 ∨ 30 < v.openTime ∨ v.heldLimit < 10 ∨
           300 < v.heldLimit ∨ 12 < v.waiverLength ∨ 1 < v.arriveOnEntry), none, []⟩ }) ∧
     (∀ (staff card : Nat) (pin : PinField), 1 ≤ staff → staff ≤ 8 → 1 ≤ card → card ≤ 1099511627775 →
       4 ≤ pin.count → pin.count ≤ 6 → (∀ d ∈ pin.halves, d ≤ 9) →
       ∃ t, exec (.configureStaff staff card pin) s = .next t ∧
         t.staff? staff = some
           { number := staff
             card := card
             pin := pin.halves.take pin.count
             count := 0
             locked := false
             waiver := none } ∧
         (∀ n, n ≠ staff → t.staff? n = s.staff? n) ∧
         t.gtc = { s.gtc with staff := t.gtc.staff } ∧
         t.pnp = s.pnp.answered 1 (.done []) ∧ OnlyChanges [.pnp, .gtc] s t) ∧
     (∀ (v : ScheduleSection) (k : ScheduleKind), 1 ≤ v.place → v.place ≤ 12 →
       (v.kind, k) ∈ [(1, ScheduleKind.nightOn), (2, .nightOff), (3, .lockdownOn), (4, .lockdownOff),
                      (5, .tariff1), (6, .tariff2), (7, .dayRoll)] →
       ∃ t, exec (.configureSchedule v) s = .next t ∧
         lookupKey ScheduleEntry.place v.place t.sch.places = some
           { place := v.place, kind := k, start := v.start
             cycle := if v.cycle = 0 then 0 else max 60 (min 604800 v.cycle)
             check := decide (1 ≤ v.check)
             state := .idle
             due := none } ∧
         (∀ n, n ≠ v.place → lookupKey ScheduleEntry.place n t.sch.places =
           lookupKey ScheduleEntry.place n s.sch.places) ∧
         (t.pnp.answer.clamped = false ↔
           (v.cycle = 0 ∨ (60 ≤ v.cycle ∧ v.cycle ≤ 604800)) ∧ v.check ≤ 1) ∧
         t.pnp.answer.result = .done ∧ t.sch = { s.sch with places := t.sch.places } ∧
         OnlyChanges [.pnp, .sch] s t))

/-- Every CONFIGURE outside UNCONFIGURED is refused STATE; a number, kind, card or PIN out of range is
refused RANGE; neither changes anything (R184, R196, R198). -/
def Obligations.ConfigureRefusals : Prop :=
  (∀ (c : Instr) (s : State), requestCode c = some 1 → Takes 1 s → s.lif.state ≠ .unconfigured →
    exec c s = .next { s with pnp := s.pnp.answered 1 (.refused .state) }) ∧
  (∀ (c : Instr) (s : State), Takes 1 s → s.lif.state = .unconfigured →
    ((∃ v, c = .configureBerth v ∧ (v.berth = 0 ∨ 48 < v.berth)) ∨
     (∃ v, c = .configurePoint v ∧ (v.point = 0 ∨ 32 < v.point)) ∨
     (∃ set energy water, c = .configureTariff set energy water ∧ (set = 0 ∨ 2 < set)) ∨
     (∃ staff card pin, c = .configureStaff staff card pin ∧
       (staff = 0 ∨ 8 < staff ∨ card = 0 ∨ 1099511627775 < card ∨ pin.count < 4 ∨ 6 < pin.count ∨
         ∃ d ∈ pin.halves, 9 < d)) ∨
     (∃ v, c = .configureSchedule v ∧ (v.place = 0 ∨ 12 < v.place ∨ v.kind = 0 ∨ 7 < v.kind))) →
    exec c s = .next { s with pnp := s.pnp.answered 1 (.refused .range) })

/-- A JOIN outside UNCONFIGURED is refused STATE; in it, the first of R199's checks that fails refuses
CONFIG with the check's place and its number, and nothing changes (R184, R199). -/
def Obligations.JoinRefusedAtTheFirstFailingCheck : Prop :=
  ∀ s : State, Takes 2 s →
    (s.lif.state ≠ .unconfigured →
      exec .join s = .next { s with pnp := s.pnp.answered 2 (.refused .state) }) ∧
    (s.lif.state = .unconfigured →
      let refused (detail n : Nat) : Prop :=
        exec .join s = .next { s with
          pnp := s.pnp.answered 2 ⟨.refused, false, some .config, [⟨1, detail⟩, ⟨1, n⟩]⟩ }
      let noPoint (n : Nat) : Prop :=
        ∃ b ∈ s.bal.berths, b.number = n ∧ ∃ p, b.point = some p ∧ s.point? p = none
      let shared (p : Nat) : Prop := 1 < (s.bal.berths.filterMap Berth.point).count p
      let stray (n : Nat) : Prop := ∃ w ∈ s.fdc.straySections, w.pump = n
      (s.straps.station = 0 → refused 1 0) ∧
      (s.straps.station ≠ 0 → s.bal.berths = [] → refused 2 0) ∧
      (s.straps.station ≠ 0 → ∀ n, noPoint n → (∀ m, noPoint m → n ≤ m) → refused 3 n) ∧
      (s.straps.station ≠ 0 → (∀ m, ¬ noPoint m) → ∀ p, shared p → (∀ q, shared q → p ≤ q) →
        refused 4 p) ∧
      (s.straps.station ≠ 0 → s.bal.berths ≠ [] → (∀ m, ¬ noPoint m) → (∀ q, ¬ shared q) →
        ∀ n, stray n → (∀ m, stray m → n ≤ m) → refused 5 n) ∧
      (s.straps.station ≠ 0 → s.bal.berths ≠ [] → (∀ m, ¬ noPoint m) → (∀ q, ¬ shared q) →
        s.fdc.straySections = [] → s.straps.dock = false →
        (s.fdc.pump1.config.isSome = true → refused 6 1) ∧
        (s.fdc.pump1.config = none → s.fdc.pump2.config.isSome = true → refused 6 2)))

/-- A JOIN that passes R199's checks starts the station: JOINING with one JOIN of the start's kind and
the base share queued (R170, R200), every IDLE entry armed or spent (R153), the retained records met in
number order (R201), their links opened and their marks set (R100), and the poll of the configured posts
begun (R82, R200).
The model's choices in it: log 4, 6, 13, 17, 18, 21, 23, 51, 63. -/
def Obligations.JoinAcceptedStartsTheStation : Prop :=
  ∀ s : State, Takes 2 s → s.lif.state = .unconfigured → s.joinFault = none → s.lif.tx = [] →
    OccupancySound s →
    ∃ (t : State) (added : List Closure), exec .join s = .next t ∧
      t.lif.state = .joining ∧ t.acknowledges = true ∧ t.lif.failed = 0 ∧ t.lif.listenEnd = none ∧
      t.lif.tx = [⟨s.lif.serial, mkFrame 17 [] s.straps.station
        (beBytes 2 s.settings.baseShare ++ [match s.startKind with | .cold => 1#8 | .warm => 2#8])⟩] ∧
      (∀ e ∈ t.sch.places, e.state ≠ .idle) ∧ t.sch.sec = s.sch.sec ∧ t.sch.ms = s.sch.ms ∧
      t.spc.nextCycle = s.elapsed + 2000000 ∧
      (t.spc.poll.isSome = true ↔ ∃ n ∈ s.configuredPosts, True) ∧
      (∀ q, t.spc.poll = some q → some q.post = s.configuredPosts.head? ∧ q.allOff = false ∧
        t.spc.toPoll = s.configuredPosts.tail ∧ q.sentAt = s.elapsed) ∧
      ((s.sch.places.map ScheduleEntry.place).Nodup →
        let now : Nat := s.now.toMs
        let timely (e : ScheduleEntry) : Bool :=
          decide (now ≤ e.start * 1000 ∧ e.start * 1000 ≤ now + 691200 * 1000)
        let dueAt (e : ScheduleEntry) (d : Nat) : ScheduleEntry :=
          if d < 4294967296 then { e with
            state := .armed
            due := some d }
          else { e with
            state := .expired
            due := none }
        let spent (e : ScheduleEntry) : ScheduleEntry := { e with
          state := .expired
          due := none }
        t.sch.places = s.sch.places.map (fun e =>
          if e.state ≠ .idle then e
          else if e.check = true then
            if timely e = true then dueAt e e.start
            else if e.cycle = 0 then spent e else dueAt e (s.sch.sec + e.cycle)
          else if now ≤ e.start * 1000 then dueAt e e.start
          else if e.cycle = 0 then spent e
          else dueAt e (e.start +
            (now - e.start * 1000 + e.cycle * 1000 - 1) / (e.cycle * 1000) * e.cycle)) ∧
        t.sch.firings = s.sch.firings ++
          (s.sch.places.filter fun e => e.state == .idle && e.check && !timely e).map
            ScheduleEntry.kind) ∧
      (∀ r ∈ t.occ.records, ∀ h ∈ r.holds, s.now.toMs < h.expiry.toMs) ∧
      t.occ.closures = s.occ.closures ++ added ∧
      added.Pairwise (fun a b => a.occupancy < b.occupancy) ∧
      (∀ c ∈ added, (s.occ? c.occupancy).isSome = true ∧ t.occ? c.occupancy = none) ∧
      (added ≠ [] → t.hasFlag .closureAdded = true) ∧
      (∀ n, s.occ? n = none → t.occ? n = none) ∧
      (∀ (n : Nat) (r : Occupancy), s.occ? n = some r → s.berth? r.berth = none →
        t.hasFlag .orphanMarked = true ∧ (r.holds ≠ [] → t.hasFlag .holdLapsed = true) ∧
        ((t.occ? n = none ∧ ∃ c ∈ added, IsClosureOf s r .orphan c) ∨
          (8 ≤ t.occ.closures.length ∧ t.occ? n = some { r with
            closureDue := some .orphan
            holds := [] }))) ∧
      (∀ (n : Nat) (r : Occupancy), s.occ? n = some r → (s.berth? r.berth).isSome = true →
        let fitted : Option Profile := match (s.berthPoint r.berth).bind s.point? with
          | none => none
          | some p => some (match r.profile with
            | none => ⟨0, false, p.tapFitted⟩
            | some y => ⟨min y.rating p.maxRating, y.three && p.three, y.tapOpen && p.tapFitted⟩)
        let kept : List Hold := r.holds.filter fun h => decide (s.now.toMs < h.expiry.toMs)
        let met : Occupancy := { r with
          profile := fitted
          holds := kept }
        let ends : Prop := kept ≠ r.holds ∧ (r.closureDue.isSome = true ∨
          (r.state = .departing ∧ r.awaiting = false ∧ kept = []))
        (kept ≠ r.holds → t.hasFlag .holdLapsed = true) ∧
        (¬ ends → t.occ? n = some met) ∧
        (ends → (t.occ? n = none ∧ ∃ c ∈ added, IsClosureOf s r (r.closureDue.getD .departed) c) ∨
          (8 ≤ t.occ.closures.length ∧ t.occ? n = some met ∧
            (r.closureDue = none → t.hasFlag .closureWaiting = true)))) ∧
      (s.spc.links = [] → (∀ p ∈ s.spc.points, p.charging = none ∧ p.arrivals = [] ∧
          p.retained = [] ∧ p.finalMark = none) →
        ∀ (q : Nat) (p : Point), s.point? q = some p →
          let here : List Occupancy := t.occ.records.filter fun r =>
            r.state != .booked && s.berthPoint r.berth == some q
          (here = [] → t.point? q = some p) ∧
          (∀ r rest, here = r :: rest → ∃ x, t.point? q = some x ∧
            x.charging = some r.number ∧ t.link? r.number = some (Link.mk r.number q 0 0 0 0) ∧
            x.arrivals = rest.map Occupancy.number ∧
            (∀ y ∈ rest, y.state = .alongside → y.number ∈ t.spc.heldBack) ∧
            x.retained.map RetainedFinal.occ =
              (rest.filter fun y => y.state == .departing).map Occupancy.number ∧
            (x.finalMark.isSome = true ↔ r.state = .departing) ∧
            (∀ m, x.finalMark = some m ∨ m ∈ x.retained.map RetainedFinal.mark →
              m.time = s.now ∧ ∀ o, t.spc.poll = some o → m.moment < o.moment) ∧
            x.outlet = (if r.state = .alongside ∧ r.account.state = .barred then .heldOff
              else p.outlet))) ∧
      t.pnp.answer.result = .done ∧ t.elapsed = s.elapsed ∧
      OnlyChanges [.pnp, .lif, .sch, .occ, .spc, .moments] s t

/-! ### Station time, schedules, capture (07) -/

/-- SET CLOCK with milliseconds up to 999, and a TIME from station 0 with such, set the clock and flag
CLOCK SET; a step that is not forward leaves every entry, firing and hold. Other milliseconds are
refused RANGE, another TIME is dropped (R148, R149, R150, R156).
The model's choices in it: log 1. -/
def Obligations.SettingTheClock : Prop :=
  (∀ (sec ms : Nat) (s : State), Takes 4 s →
    (ms ≤ 999 → ∃ t, exec (.setClock sec ms) s = .next t ∧ t.now = ⟨sec, ms⟩ ∧ t.sch.us = 0 ∧
      t.sch.tariffSet = s.sch.tariffSet ∧ t.hasFlag .clockSet = true ∧
      (sec * 1000 + ms ≤ s.now.toMs →
        t.sch.places = s.sch.places ∧ t.sch.firings = s.sch.firings ∧ t.occ = s.occ ∧ t.spc = s.spc ∧
        t.pnp = (s.pnp.flagged Flag.clockSet.bit).answered 4 (.done [⟨4, sec⟩, ⟨2, ms⟩])) ∧
      t.pnp.answer.result = .done ∧ t.pnp.answer.data = [⟨4, sec⟩, ⟨2, ms⟩] ∧
      OnlyChanges [.pnp, .sch, .occ, .spc] s t) ∧
    (999 < ms → exec (.setClock sec ms) s =
      .next { s with pnp := s.pnp.answered 4 (.refused .range) })) ∧
  (∀ (src : RxSource) (f : Frame) (note : Option Nat) (s u : State), s.powered = true →
    s.takeRx 18 src = some (f, note, u) →
    (f.sender = 0 ∧ f.num 4 2 ≤ 999 → ∃ t, exec (.timeFrame src) s = .next t ∧
      t.now = ⟨f.num 0 4, f.num 4 2⟩ ∧ t.sch.us = 0 ∧ t.hasFlag .clockSet = true ∧
      t.sch.tariffSet = s.sch.tariffSet ∧ t.lif = u.lif ∧
      (f.num 0 4 * 1000 + f.num 4 2 ≤ s.now.toMs →
        t.sch.places = s.sch.places ∧ t.sch.firings = s.sch.firings ∧ t.occ = s.occ ∧ t.spc = s.spc) ∧
      OnlyChanges [.pnp, .lif, .sch, .occ, .spc] s t) ∧
    (f.sender ≠ 0 ∨ 999 < f.num 4 2 → exec (.timeFrame src) s = .next u))

/-- A forward step, made by SET CLOCK or by a TIME of station 0 (R148, R149, R150), fires each ARMED entry
it passes once, in place order, and moves its next due to the first time of its sequence later than the
new time, or leaves it EXPIRED with cycle 0 or no due to come (R152, R156); past UNCONFIGURED every hold it
passes lapses at once (R43).
The model's choices in it: log 4, 21, 33. -/
def Obligations.ForwardStepFiresWhatItPasses : Prop :=
  ∀ (c : Instr) (sec ms : Nat) (s : State),
    (c = .setClock sec ms ∧ Takes 4 s) ∨ (∃ src f note u, c = .timeFrame src ∧ s.powered = true ∧
      s.takeRx 18 src = some (f, note, u) ∧ f.sender = 0 ∧ f.num 0 4 = sec ∧ f.num 4 2 = ms) →
    ms ≤ 999 → s.now.toMs < sec * 1000 + ms →
    (s.sch.places.map ScheduleEntry.place).Nodup →
    let new : Nat := sec * 1000 + ms
    let next (e : ScheduleEntry) : Nat :=
      if new < e.start * 1000 then e.start
      else e.start + ((new - e.start * 1000) / (e.cycle * 1000) + 1) * e.cycle
    let passed (e : ScheduleEntry) : Prop :=
      e.state = .armed ∧ ∃ d, e.due = some d ∧ s.now.toMs < d * 1000 ∧ d * 1000 ≤ new
    ∃ t, exec c s = .next t ∧ t.now = ⟨sec, ms⟩ ∧
      (∃ fired : List ScheduleEntry, fired.Sublist s.sch.places ∧
        t.sch.firings = s.sch.firings ++ fired.map ScheduleEntry.kind ∧
        ∀ e ∈ s.sch.places, e ∈ fired ↔ passed e) ∧
      t.sch.places.length = s.sch.places.length ∧
      (∀ (i : Nat) (e : ScheduleEntry), s.sch.places[i]? = some e →
        (¬ passed e → t.sch.places[i]? = some e) ∧
        (passed e →
          (e.cycle = 0 ∨ 4294967296 ≤ next e →
            t.sch.places[i]? = some { e with
              state := .expired
              due := none }) ∧
          (e.cycle ≠ 0 → next e < 4294967296 →
            t.sch.places[i]? = some { e with due := some (next e) }) ∧
          (e.cycle ≠ 0 → 4294967296 ≤ next e → t.hasFlag .scheduleExpired = true))) ∧
      (s.lif.state ≠ .unconfigured →
        (∀ r ∈ t.occ.records, ∀ h ∈ r.holds, t.now.toMs < h.expiry.toMs))

/-- An ARMED entry fires at its next due and moves on by its cycle, or is EXPIRED when spent or when no
due can come, flagged then (R154); at the wrap of the seconds, which comes with power or without, no entry
fires and every due stays (R147, R156).
The model's choices in it: log 2, 4, 34. -/
def Obligations.DueEntriesFireAndTheWrapFiresNone : Prop :=
  (∀ (place d : Nat) (e : ScheduleEntry) (s : State), s.powered = true →
    lookupKey ScheduleEntry.place place s.sch.places = some e → e.state = .armed → e.due = some d →
    ∃ t, exec (.scheduleDue place) s = .next t ∧
      t.sch.firings = s.sch.firings ++ [e.kind] ∧
      lookupKey ScheduleEntry.place place t.sch.places = some
        (if e.cycle = 0 ∨ 4294967296 ≤ d + e.cycle then { e with state := .expired, due := none }
         else { e with due := some (d + e.cycle) }) ∧
      (∀ n, n ≠ place → lookupKey ScheduleEntry.place n t.sch.places =
        lookupKey ScheduleEntry.place n s.sch.places) ∧
      (ClockSound s → d < 4294967296 → s.sch.micros ≤ d * 1000000 → t.now = ⟨d, 0⟩) ∧
      t.sch.tariffSet = s.sch.tariffSet ∧
      t.pnp = (if e.cycle ≠ 0 ∧ 4294967296 ≤ d + e.cycle then s.pnp.flagged Flag.scheduleExpired.bit
               else s.pnp) ∧
      OnlyChanges [.pnp, .elapsed, .sch] s t) ∧
  (∀ s : State, s.sch.micros < 4294967296 * 1000000 →
    ∃ t, exec .clockWrap s = .next t ∧ t.now = ⟨0, 0⟩ ∧ t.sch.us = 0 ∧
      t.elapsed = s.elapsed + (4294967296 * 1000000 - s.sch.micros) ∧
      t.sch.places = s.sch.places ∧ t.sch.firings = s.sch.firings ∧
      t.sch.tariffSet = s.sch.tariffSet ∧ OnlyChanges [.elapsed, .sch] s t)

/-- A firing is taken once and sets the mark, or the tariff set, that its kind names (R130, R151, R155);
TARIFF SELECT sets the tariff set, or is refused RANGE (R151).
The model's choices in it: log 4. -/
def Obligations.FiringsSetWhatTheyName : Prop :=
  (∀ s : State, s.powered = true →
    let took (k : ScheduleKind) : Sch := { s.sch with firings := s.sch.firings.erase k }
    exec .nightOn s = .next { s with gtc := { s.gtc with night := true }, sch := took .nightOn } ∧
    exec .nightOff s = .next { s with gtc := { s.gtc with night := false }, sch := took .nightOff } ∧
    exec .lockdownOn s = .next { s with
      gtc := { s.gtc with lockdown := true }
      sch := took .lockdownOn } ∧
    exec .lockdownOff s = .next { s with
      gtc := { s.gtc with lockdown := false }
      sch := took .lockdownOff } ∧
    exec .tariff1 s = .next { s with sch := { took .tariff1 with tariffSet := 1 } } ∧
    exec .tariff2 s = .next { s with sch := { took .tariff2 with tariffSet := 2 } }) ∧
  (∀ (set : Nat) (s : State), Takes 5 s →
    (set = 1 ∨ set = 2 → exec (.tariffSelect set) s = .next { s with
      sch := { s.sch with tariffSet := set }
      pnp := s.pnp.answered 5 (.done []) }) ∧
    (set = 0 ∨ 2 < set → exec (.tariffSelect set) s =
      .next { s with pnp := s.pnp.answered 5 (.refused .range) }))

/-- A day roll departs every ALONGSIDE record whose departure day has come (R30, R32), closes every BOOKED
record whose arrival day has passed as NO-SHOW, or marks it closure due and flags CLOSURE WAITING where
the list is full (R32, R34), bars every account whose overdue grace has passed, with SPC told and ACCOUNT
BARRED flagged (R36, R37), and retries the waiting closures (R35); every other record stays as it is.
The model's choices in it: log 4, 5, 9, 19, 23. -/
def Obligations.DayRollMovesEveryRecord : Prop :=
  ∀ s : State, s.powered = true → s.lif.state ≠ .unconfigured → OccupancySound s →
    ∃ (t : State) (added : List Closure), exec .dayRoll s = .next t ∧
      t.sch = { s.sch with firings := s.sch.firings.erase .dayRoll } ∧
      t.occ.closures = s.occ.closures ++ added ∧
      (∀ c ∈ added, (s.occ? c.occupancy).isSome = true ∧ t.occ? c.occupancy = none) ∧
      (added ≠ [] → t.hasFlag .closureAdded = true) ∧
      (∀ n, s.occ? n = none → t.occ? n = none) ∧
      (∀ (n : Nat) (r : Occupancy), s.occ? n = some r →
        let leaves : Bool := r.state == .alongside && decide (r.arrival + r.nights ≤ s.today)
        let missed : Bool := r.state == .booked && decide (r.arrival + 1 ≤ s.today) && r.closureDue.isNone
        let rolled : Occupancy :=
          if leaves then { r with
            state := .departing
            graceEnd := some (s.now.addSec (s.settings.departureGrace * 3600))
            awaiting := (s.berthPoint r.berth).isSome }
          else if missed then { r with closureDue := some .noShow } else r
        let bars : Bool := r.account.state == .overdue && (match r.account.overdueSince with
          | some since => decide (since.toMs + s.settings.overdueGrace * 3600000 < s.now.toMs)
          | none => false)
        let kept : Occupancy :=
          if bars then { rolled with account := { r.account with state := .barred } } else rolled
        let ends : Prop := rolled.closureDue.isSome = true ∨
          (rolled.state = .departing ∧ rolled.awaiting = false ∧ rolled.holds = [])
        (¬ ends → t.occ? n = some kept) ∧
        (ends →
          (t.occ? n = none ∧ ∃ c ∈ added, IsClosureOf s r (rolled.closureDue.getD .departed) c) ∨
          (8 ≤ t.occ.closures.length ∧ t.occ? n = some kept ∧
            (missed = true ∨ (leaves = true ∧ r.closureDue = none) → t.hasFlag .closureWaiting = true))) ∧
        (bars = true → t.occ? n = some kept →
          ⟨.barred, n, ⟨s.moments, s.now⟩⟩ ∈ t.occ.notices ∧ t.hasFlag .accountBarred = true) ∧
        (leaves = true → t.occ? n = some kept → ⟨.departing, n, ⟨s.moments, s.now⟩⟩ ∈ t.occ.notices)) ∧
      OnlyChanges [.pnp, .occ, .spc, .sch] s t

/-- Each of the eight edges stores its station time in its own capture record by the record's mode
(R158, R159): CONTINUOUS overwrites, SINGLE takes the first and flags CAPTURE TAKEN, a marked SINGLE
counts what it missed; READ CAPTURE returns the record and re-arms a marked SINGLE (R160). -/
def Obligations.CaptureStoresAndReadRearms : Prop :=
  (∀ (c : Instr) (e : Edge) (s : State), s.powered = true →
    (c, e) ∈ [(Instr.doorOpenEdge, Edge.doorOpen), (.doorShutEdge, .doorShut), (.nozzleLift 1, .lift1),
              (.nozzleHang 1, .hang1), (.nozzleLift 2, .lift2), (.nozzleHang 2, .hang2),
              (.emergencyPress, .press), (.emergencyRelease, .released)] →
    ∃ t, exec c s = .next t ∧
      ((s.cap.get e).single = false → t.cap.get e = { s.cap.get e with time := some s.now }) ∧
      ((s.cap.get e).single = true → (s.cap.get e).mark = false →
        t.cap.get e = { s.cap.get e with time := some s.now, mark := true } ∧
        t.hasFlag .captureTaken = true) ∧
      ((s.cap.get e).single = true → (s.cap.get e).mark = true →
        t.cap.get e = { s.cap.get e with missed := min 255 ((s.cap.get e).missed + 1) }) ∧
      (∀ e', e' ≠ e → t.cap.get e' = s.cap.get e')) ∧
  (∀ (channel edge : Nat) (s : State), Takes 58 s →
    (∀ e, (channel, edge, e) ∈ [(1, 1, Edge.doorOpen), (1, 2, .doorShut), (2, 1, .lift1), (2, 2, .hang1),
        (3, 1, .lift2), (3, 2, .hang2), (4, 1, .press), (4, 2, .released)] →
      ∃ t, exec (.readCapture channel edge) s = .next t ∧
        t.cap.get e = (if (s.cap.get e).single = true ∧ (s.cap.get e).mark = true
          then { s.cap.get e with mark := false, missed := 0 } else s.cap.get e) ∧
        (∀ e', e' ≠ e → t.cap.get e' = s.cap.get e') ∧
        t.pnp = s.pnp.answered 58 (.done
          ([⟨1, if (s.cap.get e).single = true then 2 else 1⟩] ++
           (match (s.cap.get e).time with
            | some x => [⟨1, 1⟩, ⟨4, x.sec⟩, ⟨2, x.ms⟩]
            | none => [⟨1, 0⟩, ⟨4, 0⟩, ⟨2, 0⟩]) ++
           [⟨1, (s.cap.get e).mark.toNat⟩, ⟨1, (s.cap.get e).missed⟩])) ∧
        OnlyChanges [.pnp, .cap] s t) ∧
    (channel = 0 ∨ 4 < channel ∨ edge = 0 ∨ 2 < edge → exec (.readCapture channel edge) s =
      .next { s with pnp := s.pnp.answered 58 (.refused .range) }))

/-! ### Reading -/

/-- The requests that read answer DONE, or are refused RANGE or UNKNOWN by the number they name, and
change nothing but the answer (R3, R21, R35, R49, R73, R95, R99, R125, R126, R187).
The model's choices in it: log 12, 47, 53, 55, 66. -/
def Obligations.ReadsAnswerAndChangeNothing : Prop :=
  ∀ s : State,
    let answers (c : Instr) (code : Nat) (r : Reply) : Prop :=
      exec c s = .next { s with pnp := s.pnp.answered code r }
    let left (x : Option Nat) : List Datum := match x with
      | some d => [⟨1, 1⟩, ⟨4, ((d - s.elapsed) / 1000000 : Nat)⟩,
          ⟨2, ((d - s.elapsed) / 1000 % 1000 : Nat)⟩]
      | none => [⟨1, 0⟩, ⟨4, 0⟩, ⟨2, 0⟩]
    let rate : Datum := ⟨1, if s.straps.slowLine = true then 2 else 1⟩
    let state : Datum :=
      ⟨1, match s.lif.state with | .unconfigured => 1 | .joining => 2 | .onLine => 3 | .lineOff => 4⟩
    (Takes 6 s → answers .readStation 6 (.done
      ([⟨1, s.straps.station⟩, rate, ⟨1, s.straps.dock.toNat⟩,
        ⟨1, match s.startKind with | .cold => 1 | .warm => 2⟩, state] ++
       [⟨1, s.settings.window⟩, ⟨1, s.settings.bidStep⟩, ⟨1, s.settings.fender⟩, ⟨1, s.settings.keel⟩,
        ⟨4, s.settings.creditLimit⟩, ⟨4, s.settings.warnLevel⟩, ⟨1, s.settings.holdLifetime⟩,
        ⟨1, s.settings.overdueGrace⟩, ⟨1, s.settings.departureGrace⟩, ⟨2, s.settings.baseShare⟩,
        ⟨1, s.settings.keepMargin⟩, ⟨1, s.settings.pledgeTimeout⟩, ⟨2, s.settings.recallPeriod⟩,
        ⟨2, s.settings.faultGrace⟩] ++
       ([Edge.doorOpen, .doorShut, .lift1, .hang1, .lift2, .hang2, .press, .released].map fun e =>
        Datum.mk 1 (if (s.cap.get e).single = true then 2 else 1)) ++
       [⟨1, s.occ.records.length⟩, ⟨1, s.occ.closures.length⟩,
        ⟨1, ((64 - s.fdc.journal.length : Nat) : Int)⟩, ⟨1, s.bal.rounds.length⟩,
        ⟨1, s.bal.berths.length⟩, ⟨1, s.spc.points.length⟩,
        ⟨1, ((s.fdc.pump1.config.isSome.toNat + s.fdc.pump2.config.isSome.toNat : Nat) : Int)⟩,
        ⟨1, s.fdc.emergency.toNat⟩] ++
       [⟨4, s.sch.sec⟩, ⟨2, s.sch.ms⟩, ⟨2, ((s.sch.sec / 86400 : Nat) : Int)⟩,
        ⟨4, ((s.sch.sec % 86400 : Nat) : Int)⟩, ⟨1, s.sch.tariffSet⟩] ++
       ((List.range 12).flatMap fun i =>
        match lookupKey ScheduleEntry.place (i + 1) s.sch.places with
        | some e => [⟨1, e.kind.code⟩, ⟨4, e.start⟩, ⟨4, e.cycle⟩, ⟨1, e.check.toNat⟩, ⟨1, e.state.code⟩] ++
            (match e.due with | some d => [Datum.mk 1 1, ⟨4, d⟩] | none => [⟨1, 0⟩, ⟨4, 0⟩])
        | none => [⟨1, 0⟩, ⟨4, 0⟩, ⟨4, 0⟩, ⟨1, 0⟩, ⟨1, 0⟩, ⟨1, 0⟩, ⟨4, 0⟩]) ++
       [⟨1, s.gtc.mode.code⟩, ⟨1, s.gtc.night.toNat⟩, ⟨1, s.gtc.lockdown.toNat⟩] ++
       (match s.gtc.entry with
        | some e => [Datum.mk 1 2, ⟨1, e.digits.length⟩]
        | none => [⟨1, 1⟩, ⟨1, 0⟩]) ++ left (s.gtc.entry.map PinEntry.timeout) ++
       (match s.gtc.last with | some d => Datum.mk 1 1 :: Decision.datum d | none => ⟨1, 0⟩ :: Decision.zero) ++
       [⟨1, if s.gtc.release.isSome = true then 2 else 1⟩] ++ left s.gtc.release ++
       [⟨1, if s.gtc.door.isOpen = true then 1 else 2⟩] ++
       (match s.gtc.door.openedAt with
        | some o => [Datum.mk 1 1, ⟨4, ((s.elapsed - o) / 1000000 : Nat)⟩,
            ⟨2, ((s.elapsed - o) / 1000 % 1000 : Nat)⟩]
        | none => [⟨1, 0⟩, ⟨4, 0⟩, ⟨2, 0⟩]) ++
       [⟨1, s.gtc.door.held.toNat⟩, ⟨1, s.gtc.staff.length⟩] ++ s.gtc.staff.flatMap Staff.datum ++
       [state, ⟨1, s.lif.failed⟩, ⟨1, s.lif.tx.length⟩] ++
       (s.lif.tx.flatMap fun f => [⟨1, f.frame.kind⟩, ⟨4, f.frame.keyField 0 19⟩,
        ⟨1, (decide (s.lif.attempt = some f.serial)).toNat⟩]) ++
       [⟨1, s.lif.rx.length⟩, ⟨2, s.lif.dropped⟩,
        ⟨1, if s.lif.state = .joining then (if s.lif.listenEnd.isSome = true then 2 else 1) else 0⟩] ++
       left s.lif.listenEnd ++ left s.lif.silenceEnd ++ [rate]))) ∧
    (Takes 17 s → ∀ n, (n = 0 → answers (.readRound n) 17 (.done s.bal.originationD)) ∧
      (1 ≤ n → n ≤ 4 → answers (.readRound n) 17 (.done (roundD s.elapsed s.bal.rounds[n - 1]?))) ∧
      (4 < n → answers (.readRound n) 17 (.refused .range))) ∧
    (Takes 18 s → ∀ b night, (b = 0 ∨ 48 < b ∨ 59 < night → answers (.readBerth b night) 18 (.refused .range)) ∧
      (1 ≤ b → b ≤ 48 → night ≤ 59 → s.berth? b = none →
        answers (.readBerth b night) 18 (.refused .unknown)) ∧
      (1 ≤ b → b ≤ 48 → night ≤ 59 → ∀ x, s.berth? b = some x →
        answers (.readBerth b night) 18 (.done (berthD x (s.occ.records.find? fun r =>
          r.berth == b && decide (r.arrival ≤ s.today + night ∧ s.today + night < r.arrival + r.nights)))))) ∧
    (Takes 23 s → ∀ n, (n = 0 ∨ 64 < n → answers (.readOccupancy n) 23 (.refused .range)) ∧
      (1 ≤ n → n ≤ 64 → s.occ? n = none → answers (.readOccupancy n) 23 (.refused .unknown)) ∧
      (1 ≤ n → n ≤ 64 → ∀ r : Occupancy, s.occ? n = some r →
        answers (.readOccupancy n) 23 (.done r.datum))) ∧
    (Takes 24 s → ∃ z : List Datum, (s.occ.closures = [] → answers .closureRead 24 (.done (⟨1, 0⟩ :: z))) ∧
      (∀ c rest, s.occ.closures = c :: rest →
        answers .closureRead 24 (.done (⟨1, 1⟩ :: Closure.datum c)))) ∧
    (Takes 40 s → answers .readLoans 40 (.done
      ([⟨2, s.settings.baseShare⟩, ⟨2, s.ceiling⟩, ⟨2, s.ownCeiling⟩, ⟨2, s.load⟩, ⟨1, s.pumpLoads⟩,
        ⟨1, s.settings.keepMargin⟩] ++
       ((List.range 16).flatMap fun i => match s.pwb.loans[i]? with
        | some l => [⟨1, l.partner⟩, ⟨1, if l.lent = true then 2 else 1⟩, ⟨2, l.amount⟩,
            ⟨1, match l.state with | .pledged => 1 | .active => 2 | .recalled => 3⟩, ⟨1, l.pledge⟩] ++
            (match l.addition with | some a => [Datum.mk 1 1, ⟨2, a⟩] | none => [⟨1, 0⟩, ⟨2, 0⟩]) ++
            left l.deadline
        | none => [⟨1, 0⟩, ⟨1, 0⟩, ⟨2, 0⟩, ⟨1, 0⟩, ⟨1, 0⟩, ⟨1, 0⟩, ⟨2, 0⟩] ++ left none) ++
       [⟨1, s.pwb.demands.length⟩] ++
       (s.pwb.demands.flatMap fun d =>
        [⟨1, match d.kind with | .energise => 1 | .raise => 2 | .pump => 3⟩, ⟨1, d.source⟩, ⟨1, d.need⟩]) ++
       [⟨1, match s.pwb.demands with
          | [] => 0
          | d :: _ => match s.pwb.collection with
            | some c => if c.demand = d.id then 2 else 3
            | none => if ∃ l ∈ s.pwb.loans, l.lent = true ∧ l.state = .recalled ∧ l.partner ∈ d.recalls
                then 1 else 0⟩] ++
       (match s.pwb.collection with
        | some c => [Datum.mk 1 1, ⟨1, c.seq⟩, ⟨2, c.amount⟩, ⟨1, c.offers.length⟩] ++
            (c.offers.flatMap fun o => [⟨1, o.lender⟩, ⟨2, o.amount⟩]) ++ left c.closeAt
        | none => [⟨1, 0⟩, ⟨1, 0⟩, ⟨2, 0⟩, ⟨1, 0⟩] ++ left none) ++
       [⟨1, s.pwb.shed.length⟩] ++
       (match s.pwb.shed with | e :: _ => [Datum.mk 1 1, ⟨1, e.figure⟩] | [] => [⟨1, 0⟩, ⟨1, 0⟩])))) ∧
    (Takes 41 s → ∀ n, (n = 0 ∨ 32 < n → answers (.readPoint n) 41 (.refused .range)) ∧
      (1 ≤ n → n ≤ 32 → s.point? n = none → answers (.readPoint n) 41 (.refused .unknown)) ∧
      (1 ≤ n → n ≤ 32 → ∀ p, s.point? n = some p → answers (.readPoint n) 41 (.done (s.pointAnswer p)))) ∧
    (Takes 42 s → ∀ n g1 g2 g3,
      (n = 0 ∨ 64 < n → answers (.profileCheck n g1 g2 g3) 42 (.refused .range)) ∧
      (1 ≤ n → n ≤ 64 → s.occ? n = none → answers (.profileCheck n g1 g2 g3) 42 (.refused .unknown)) ∧
      (1 ≤ n → n ≤ 64 → ∀ r : Occupancy, s.occ? n = some r →
        (r.profile = none → answers (.profileCheck n g1 g2 g3) 42 (.refused .state)) ∧
        (∀ p q k, s.berthPoint r.berth = some k → s.point? k = some p → r.profile = some q →
          answers (.profileCheck n g1 g2 g3) 42
            (.done (s.checkAnswer p (profileResult p q g1 g2 g3)))))) ∧
    (Takes 52 s → ∀ n, (n = 0 ∨ 2 < n → answers (.readPump n) 52 (.refused .range)) ∧
      (∀ p, s.pump? n = some p → (p.config = none → answers (.readPump n) 52 (.refused .unknown)) ∧
        (∀ c, p.config = some c → answers (.readPump n) 52 (.done (s.pumpAnswer n p c))))) ∧
    (Takes 53 s → ∃ z : List Datum,
      ((∀ r ∈ s.fdc.journal, r.closed = false) → answers .journalRead 53 (.done (⟨1, 0⟩ :: z))) ∧
      (∀ before r after, s.fdc.journal = before ++ r :: after → (∀ x ∈ before, x.closed = false) →
        r.closed = true → answers .journalRead 53 (.done (⟨1, 1⟩ :: JournalRecord.datum r))))

/-! ### The gate (06) -/

/-- GATE OPEN and the exit button release the latch for the open time in every station state past R184's
list and in every gate mode; the release end holds it again (R141, R142, R143); GATE MODE gives the
marks its mode asks for, LOCKDOWN keeping the night mark, or is refused RANGE (R130).
The model's choices in it: log 2. -/
def Obligations.LatchReleasesAndGateMode : Prop :=
  (∀ s : State, Takes 56 s → exec .gateOpen s = .next { s with
    gtc := { s.gtc with release := some (s.elapsed + s.gtc.openTime * 1000000) }
    pnp := s.pnp.answered 56 (.done []) }) ∧
  (∀ s : State, s.powered = true → exec .exitButtonPress s = .next { s with
    gtc := { s.gtc with release := some (s.elapsed + s.gtc.openTime * 1000000) } }) ∧
  (∀ (e : Nat) (s : State), s.powered = true → s.gtc.release = some e →
    exec .releaseEnd s = .next { s.advanceTo e with gtc := { s.gtc with release := none } }) ∧
  (∀ (mode : Nat) (s : State), Takes 57 s →
    (mode = 1 → exec (.gateMode mode) s = .next { s with
      gtc := { s.gtc with
        night := false
        lockdown := false }
      pnp := s.pnp.answered 57 (.done [⟨1, 1⟩]) }) ∧
    (mode = 2 → exec (.gateMode mode) s = .next { s with
      gtc := { s.gtc with
        night := true
        lockdown := false }
      pnp := s.pnp.answered 57 (.done [⟨1, 2⟩]) }) ∧
    (mode = 3 → exec (.gateMode mode) s = .next { s with
      gtc := { s.gtc with lockdown := true }
      pnp := s.pnp.answered 57 (.done [⟨1, 3⟩]) }) ∧
    (mode = 0 ∨ 3 < mode → exec (.gateMode mode) s =
      .next { s with pnp := s.pnp.answered 57 (.refused .range) }))

/-- A door-open edge begins an opening with its held limit; with the latch HELD it is forced: GATE FORCED
is flagged and, ON LINE with room in the queue, an ALARM queued (R144, R177). The shut edge ends the
opening and keeps the held mark; the held limit sets it, flags GATE HELD and alarms (R145, R177).
The model's choices in it: log 2, 6. -/
def Obligations.DoorOpeningsForcedAndHeld : Prop :=
  (∀ s : State, s.powered = true →
    ∃ t, exec .doorOpenEdge s = .next t ∧
      (s.gtc.door.isOpen = true → t.gtc = s.gtc ∧ t.lif = s.lif) ∧
      (s.gtc.door.isOpen = false →
        t.gtc = { s.gtc with door :=
          { isOpen := true
            openTime := some s.now
            openedAt := some s.elapsed
            heldEnd := some (s.elapsed + s.gtc.heldLimit * 1000000)
            held := false } } ∧
        (s.gtc.release.isSome = true → t.lif = s.lif ∧
          t.hasFlag .gateForced = s.hasFlag .gateForced) ∧
        (s.gtc.release = none → t.hasFlag .gateForced = true ∧
          (s.lif.state ≠ .onLine → t.lif = s.lif) ∧
          (s.lif.state = .onLine → s.lif.tx.length < 12 →
            ∃ f ∈ t.lif.tx, f.serial = s.lif.serial ∧
              f.frame = alarmFrame s.me .gateForced 0 s.sch.sec)))) ∧
  (∀ s : State, s.powered = true →
    ∃ t, exec .doorShutEdge s = .next t ∧
      t.gtc = (if s.gtc.door.isOpen = true then
        { s.gtc with door :=
          { isOpen := false
            openTime := none
            openedAt := none
            heldEnd := none
            held := s.gtc.door.held } } else s.gtc) ∧
      OnlyChanges [.pnp, .gtc, .cap] s t) ∧
  (∀ (e : Nat) (o : Time) (s : State), s.powered = true → s.gtc.door.isOpen = true →
    s.gtc.door.heldEnd = some e → s.gtc.door.openTime = some o →
    ∃ t, exec .heldLimitEnd s = .next t ∧
      t.gtc = { s.gtc with door := { s.gtc.door with
        heldEnd := none
        held := true } } ∧
      t.hasFlag .gateHeld = true ∧ t.elapsed = (s.advanceTo e).elapsed ∧
      (s.lif.state = .onLine → s.lif.tx.length < 12 →
        ∃ f ∈ t.lif.tx, f.serial = s.lif.serial ∧ f.frame = alarmFrame s.me .gateHeld 0 o.sec) ∧
      OnlyChanges [.pnp, .elapsed, .sch, .lif, .gtc] s t)

/-- A card read: discarded in UNCONFIGURED; an overrun in PIN ENTRY; else decided at once, the first
cause in order refusing it, a grant releasing the latch, or a PIN entry opened (R131 to R134, R137 to
R139). The reader's bytes spell its card reads, its keys and the frames left incomplete 100 ms after their
mark, and a byte that begins no frame is discarded (R213).
The model's choices in it: log 32, 59. -/
def Obligations.CardReadsAreDecidedInOrder : Prop :=
  ((∀ (t : Nat) (b : Byte) (rest : List (Nat × Byte)), b ≠ 0xC1#8 → b ≠ 0xC2#8 →
      decodeReader ((t, b) :: rest) = decodeReader rest) ∧
    (∀ (t card : Nat) (check : Byte) (later rest : List (Nat × Byte)), card < 1099511627776 →
      later.map Prod.snd = beBytes 5 card ++ [check] → (∀ x ∈ later, x.1 ≤ t + 100000) →
      decodeReader ((t, 0xC1#8) :: (later ++ rest)) = .cardRead card check.toNat :: decodeReader rest) ∧
    (∀ (t u : Nat) (k : Byte) (rest : List (Nat × Byte)), u ≤ t + 100000 →
      decodeReader ((t, 0xC2#8) :: (u, k) :: rest) = .key k.toNat :: decodeReader rest) ∧
    (∀ (t : Nat) (mark : Byte) (later rest : List (Nat × Byte)),
      (mark = 0xC1#8 ∧ later.length < 6) ∨ (mark = 0xC2#8 ∧ later = []) →
      (∀ x ∈ later, x.1 ≤ t + 100000) → (∀ x more, rest = x :: more → t + 100000 < x.1) →
      decodeReader ((t, mark) :: (later ++ rest)) =
        .readerFrameTimeout (mark :: later.map Prod.snd) :: decodeReader rest)) ∧
  ∀ (card check : Nat) (s : State), s.powered = true →
    let good : Bool := cardGood card check
    let base : Pnp := if good = true then s.pnp else s.pnp.flagged Flag.suspectRead.bit
    let decision (f : Option Found) (c : Option GateCause) : Decision :=
      { card := card
        suspect := !good
        found := f
        mode := s.gtc.mode
        pinAsked := false
        cause := c
        time := s.now }
    let refused (f : Option Found) (c : GateCause) : Prop :=
      exec (.cardRead card check) s = .next { s with
        gtc := { s.gtc with last := some (decision f (some c)) }
        pnp := (base.flagged Flag.gateDecided.bit).flagged Flag.gateRefused.bit }
    let asked (f : Found) : Prop :=
      exec (.cardRead card check) s = .next { s with
        gtc := { s.gtc with
          entry := some ⟨f, card, !good, [], s.elapsed + 10000000⟩
          readerOut := [0xC8#8, 1#8] }
        pnp := base }
    (s.lif.state = .unconfigured → exec (.cardRead card check) s = .next s) ∧
    (s.lif.state ≠ .unconfigured → s.gtc.entry.isSome = true → exec (.cardRead card check) s =
      .next { s with pnp := s.pnp.flagged Flag.overrun.bit }) ∧
    (s.lif.state ≠ .unconfigured → s.gtc.entry = none →
      (card = 0 ∨ ((∀ e ∈ s.gtc.staff, e.card ≠ card) ∧
          ∀ r ∈ s.occ.records, ∀ c : Credential, r.credential = some c → c.card ≠ card) →
        refused none .unknown) ∧
      (∀ e : Staff, card ≠ 0 → s.gtc.staff.find? (fun e => e.card == card) = some e →
        s.staff? e.number = some e →
        (e.locked = true → refused (some (.staff e.number)) .locked) ∧
        (e.locked = false → ¬ (good = true ∧ s.waiverRuns e.waiver = true ∧ s.gtc.mode ≠ .lockdown) →
          asked (.staff e.number)) ∧
        (e.locked = false → good = true → s.waiverRuns e.waiver = true → s.gtc.mode ≠ .lockdown →
          exec (.cardRead card check) s = .next { s with
            gtc := { s.gtc with
              last := some (decision (some (.staff e.number)) none)
              release := some (s.elapsed + s.gtc.openTime * 1000000) }
            pnp := base.flagged Flag.gateDecided.bit })) ∧
      (∀ (r : Occupancy) (c : Credential), card ≠ 0 → (∀ e ∈ s.gtc.staff, e.card ≠ card) →
        s.cardHolder card = some r → s.occ? r.number = some r → r.credential = some c →
        let f : Found := .occupancy r.number
        let stateBars : Prop := r.closureDue.isSome = true ∨ (r.state = .booked ∧ r.arrival ≠ s.today) ∨
          (r.state = .departing ∧ ∃ e, r.graceEnd = some e ∧ e.toMs ≤ s.now.toMs)
        let eligible : Prop := s.gtc.mode ≠ .lockdown ∧ ¬ stateBars ∧ r.account.state ≠ .barred ∧
          c.locked = false
        (s.gtc.mode = .lockdown → refused (some f) .mode) ∧
        (s.gtc.mode ≠ .lockdown → stateBars → refused (some f) .state) ∧
        (s.gtc.mode ≠ .lockdown → ¬ stateBars → r.account.state = .barred → refused (some f) .barred) ∧
        (s.gtc.mode ≠ .lockdown → ¬ stateBars → r.account.state ≠ .barred → c.locked = true →
          refused (some f) .locked) ∧
        (eligible → c.pin = none → ¬ (good = true ∧ s.gtc.mode = .day) → refused (some f) .noPin) ∧
        (eligible → c.pin.isSome = true → ¬ (good = true ∧ s.waiverRuns c.waiver = true) → asked f) ∧
        (eligible → good = true → (c.pin = none ∧ s.gtc.mode = .day) ∨
            (c.pin.isSome = true ∧ s.waiverRuns c.waiver = true) →
          exec (.cardRead card check) s = .next { s with
            occ := if r.state = .booked ∧ s.gtc.arriveOnEntry = true then (s.toAlongside r.number).occ
              else s.occ
            gtc := { s.gtc with
              last := some (decision (some f) none)
              release := some (s.elapsed + s.gtc.openTime * 1000000) }
            pnp := s.pnp.flagged Flag.gateDecided.bit })))

/-- A key outside PIN ENTRY, or above 11, changes nothing; in PIN ENTRY a digit is kept up to six, CLEAR
and an empty ENTER empty the entry, and each of these restarts its timeout (R131, R135, R213). An ENTER
with digits judges: a credential changed or no longer eligible refuses first, the right PIN grants, a
wrong one is counted and refused (R47, R129, R132, R136). The timeout refuses, and bytes the reader
discards change nothing (R135, R213).
The model's choices in it: log 2, 28, 32. -/
def Obligations.PinEntryKeysAndOutcome : Prop :=
  (∀ (code : Nat) (s : State), s.powered = true →
    s.gtc.entry = none ∨ s.lif.state = .unconfigured ∨ 11 < code → exec (.key code) s = .next s) ∧
  (∀ (code : Nat) (e : PinEntry) (s : State), s.powered = true → s.lif.state ≠ .unconfigured →
    s.gtc.entry = some e →
    let kept (digits : List Nat) : Prop := exec (.key code) s = .next { s with
      gtc := { s.gtc with entry := some { e with
        digits := digits
        timeout := s.elapsed + 10000000 } } }
    let refused (c : GateCause) : Decision :=
      { card := e.card
        suspect := e.suspect
        found := some e.found
        mode := s.gtc.mode
        pinAsked := true
        cause := some c
        time := s.now }
    (code ≤ 9 → e.digits.length < 6 → kept (e.digits ++ [code])) ∧
    (code ≤ 9 → 6 ≤ e.digits.length → kept e.digits) ∧
    (code = 11 → kept []) ∧
    (code = 10 → e.digits = [] → kept []) ∧
    (code = 10 → e.digits ≠ [] → ∃ t, exec (.key code) s = .next t ∧ t.gtc.entry = none ∧
      t.gtc.readerOut = [0xC8#8, 0#8] ∧ t.hasFlag .gateDecided = true ∧
      (∀ x : Staff, e.found = .staff x.number → s.staff? x.number = some x →
        (x.locked = true → t.gtc.last = some (refused .locked) ∧ t.gtc.release = s.gtc.release) ∧
        (x.locked = false → e.digits ≠ x.pin →
          t.gtc.last = some (refused (if 2 ≤ x.count then .locked else .wrongPin)) ∧
          t.staff? x.number = some { x with
            count := min 3 (x.count + 1)
            locked := decide (2 ≤ x.count) } ∧
          (2 ≤ x.count → t.hasFlag .lockout = true) ∧ t.gtc.release = s.gtc.release ∧
          t.hasFlag .gateRefused = true) ∧
        (x.locked = false → e.digits = x.pin →
          t.gtc.last = some { refused .locked with cause := none } ∧
          t.staff? x.number = some { x with
            count := 0
            waiver := s.newWaiver } ∧
          t.gtc.release = some (s.elapsed + s.gtc.openTime * 1000000))) ∧
      (∀ n, e.found = .occupancy n → s.occ? n = none →
        t.gtc.last = some (refused .changed) ∧ t.gtc.release = s.gtc.release ∧ t.occ = s.occ) ∧
      (∀ r : Occupancy, e.found = .occupancy r.number → s.occ? r.number = some r →
        r.credential = none →
        t.gtc.last = some (refused .changed) ∧ t.gtc.release = s.gtc.release ∧ t.occ = s.occ) ∧
      (∀ (r : Occupancy) (c : Credential), e.found = .occupancy r.number → s.occ? r.number = some r →
        r.credential = some c →
        (c.card ≠ e.card → t.gtc.last = some (refused .changed) ∧ t.occ = s.occ) ∧
        (let stateBars : Prop := r.closureDue.isSome = true ∨
           (r.state = .booked ∧ r.arrival ≠ s.today) ∨
           (r.state = .departing ∧ ∃ g, r.graceEnd = some g ∧ g.toMs ≤ s.now.toMs)
         let fails (x : GateCause) : Prop := t.gtc.last = some (refused x) ∧
           t.gtc.release = s.gtc.release ∧ t.occ = s.occ ∧ t.hasFlag .gateRefused = true
         c.card = e.card →
           (s.gtc.mode = .lockdown → fails .mode) ∧
           (s.gtc.mode ≠ .lockdown → stateBars → fails .state) ∧
           (s.gtc.mode ≠ .lockdown → ¬ stateBars → r.account.state = .barred → fails .barred) ∧
           (s.gtc.mode ≠ .lockdown → ¬ stateBars → r.account.state ≠ .barred → c.locked = true →
             fails .locked) ∧
           (s.gtc.mode ≠ .lockdown → ¬ stateBars → r.account.state ≠ .barred → c.locked = false →
             c.pin = none → fails .changed)) ∧
        (c.card = e.card → s.occupancyCause r c = none → ∀ p, c.pin = some p → e.digits ≠ p →
          t.gtc.last = some (refused (if 2 ≤ c.count then .locked else .wrongPin)) ∧
          t.gtc.release = s.gtc.release ∧
          t.occ? r.number = some { r with credential := some { c with
            count := min 3 (c.count + 1)
            locked := decide (2 ≤ c.count) } } ∧
          (2 ≤ c.count → t.hasFlag .lockout = true)) ∧
        (c.card = e.card → s.occupancyCause r c = none → c.pin = some e.digits →
          t.gtc.last = some { refused .locked with cause := none } ∧
          t.gtc.release = some (s.elapsed + s.gtc.openTime * 1000000) ∧
          ∃ r' : Occupancy, t.occ? r.number = some r' ∧
            r'.credential = some { c with
              count := 0
              waiver := s.newWaiver } ∧
            (r.state = .alongside → r' = { r with credential := r'.credential }))))) ∧
  (∀ (e : PinEntry) (s : State), s.powered = true → s.gtc.entry = some e →
    ∃ t, exec .pinEntryTimeout s = .next t ∧ t.gtc.entry = none ∧ t.gtc.readerOut = [0xC8#8, 0#8] ∧
      t.gtc.last = some ⟨e.card, e.suspect, some e.found, s.gtc.mode, true, some .timeout,
        (s.advanceTo e.timeout).now⟩ ∧
      t.elapsed = (s.advanceTo e.timeout).elapsed ∧ t.gtc.release = s.gtc.release ∧
      t.pnp = (s.pnp.flagged Flag.gateDecided.bit).flagged Flag.gateRefused.bit ∧
      OnlyChanges [.pnp, .elapsed, .sch, .gtc] s t) ∧
  (∀ (bytes : List Byte) (s : State), exec (.readerFrameTimeout bytes) s = .next s)

/-- Outside a start, the latch is released by GATE OPEN, the exit button and a granted decision alone,
and held again by its release end alone (R138, R139, R141, R142, R143). -/
def Obligations.OnlyGrantsReleaseTheLatch : Prop :=
  ∀ (c : Instr) (s t : State), exec c s = .next t → isStart c = false →
    t.gtc.release ≠ s.gtc.release →
    (t.gtc.release = none → c = .releaseEnd) ∧
    (t.gtc.release.isSome = true → c = .gateOpen ∨ c = .exitButtonPress ∨
      (((∃ card check, c = .cardRead card check) ∨ c = .key 10) ∧
        ∃ d, t.gtc.last = some d ∧ d.cause = none))

/-! ### Berths and the contest (01) -/

/-- A berth is feasible for a request on its seven grounds and, where power is wanted, on its service
point (R5, R6); its score is four times the clipped length excess, twice the clipped width excess, the
clipped depth excess and 16 for each oversize step (R7), lowered by 64 at the preferred station (R8); the
candidate is the feasible berth of lowest score, the lowest number among equals, and there is none when no
berth is feasible (R8). -/
def Obligations.CandidateIsTheBestFeasibleBerth : Prop :=
  (∀ (s : State) (r : BerthRequest) (day : Nat) (b : Berth), s.feasible r day b = true ↔
    r.length ≤ b.length ∧ r.beam + s.settings.fender ≤ b.width ∧
    r.draft + s.settings.keel ≤ b.depth + r.lowWater ∧
    ((r.cls = 1 ∧ b.visitor = true) ∨ (r.cls = 2 ∧ b.member = true)) ∧ b.reserved = false ∧
    b.mark = none ∧
    (∀ x ∈ s.occ.records, x.berth = b.number →
      ¬ (x.arrival < day + r.nights ∧ day < x.arrival + x.nights)) ∧
    (r.power = true → ∃ n p, b.point = some n ∧ s.point? n = some p ∧ r.rating ≤ p.maxRating ∧
      p.three = r.three ∧ p.outlet ≠ .tripped ∧ p.outlet ≠ .faultOff)) ∧
  (∀ (s : State) (r : BerthRequest) (day : Nat) (b : Berth), s.feasible r day b = true →
    let excess : Nat := 4 * min (b.length - r.length) 100 +
      2 * min (b.width - (r.beam + s.settings.fender)) 40 +
      min (b.depth + r.lowWater - (r.draft + s.settings.keel)) 60
    let lowered (n : Nat) : Nat := if r.preferred ≠ 0 ∧ r.preferred = s.me then n - 64 else n
    (r.power = false → s.score r b = lowered excess) ∧
    (∀ n p, r.power = true → b.point = some n → s.point? n = some p →
      s.score r b = lowered (excess + 16 * (p.maxRating - r.rating)))) ∧
  (∀ (s : State) (r : BerthRequest) (day score n : Nat), s.candidate r day = some (score, n) →
    (∃ b ∈ s.bal.berths, s.feasible r day b = true ∧ s.score r b = score ∧ b.number = n) ∧
    ∀ b ∈ s.bal.berths, s.feasible r day b = true →
      score < s.score r b ∨ (score = s.score r b ∧ n ≤ b.number)) ∧
  (∀ (s : State) (r : BerthRequest) (day : Nat),
    s.candidate r day = none ↔ ∀ b ∈ s.bal.berths, s.feasible r day b = false)

/-- REQUEST BERTH is refused at the first cause in order; accepted, it takes the next tag, queues a BERTH
REQUEST, opens a round of its own, NO FIT or with its candidate marked, its key and its delay, and awaits
its result (R4, R11, R12, R19, R20).
The model's choices in it: log 6. -/
def Obligations.RequestBerthOriginates : Prop :=
  ∀ (r : BerthRequest) (s : State), Takes 16 s →
    let refused (c : Cause) : Prop :=
      exec (.requestBerth r) s = .next { s with pnp := s.pnp.answered 16 (.refused c) }
    let inRange : Prop := 30 ≤ r.length ∧ r.length ≤ 600 ∧ 10 ≤ r.beam ∧ r.beam ≤ 150 ∧ 5 ≤ r.draft ∧
      r.draft ≤ 60 ∧ r.offset ≤ 6 ∧ 1 ≤ r.nights ∧ r.nights ≤ 60 ∧ r.lowWater ≤ 80 ∧ r.rating ≤ 3 ∧
      (r.cls = 1 ∨ r.cls = 2) ∧ r.preferred ≤ 31
    (s.lif.state ≠ .onLine → refused .noLine) ∧
    (s.lif.state = .onLine → ¬ inRange → refused .range) ∧
    (s.lif.state = .onLine → inRange → s.bal.await.isSome = true → refused .busy) ∧
    (s.lif.state = .onLine → inRange → s.bal.await = none → 4 ≤ s.bal.rounds.length → refused .full) ∧
    (s.lif.state = .onLine → inRange → s.bal.await = none → s.bal.rounds.length < 4 →
      let tag : Tag := ⟨s.me, (s.bal.seq + 1) % 256⟩
      ∃ t x, exec (.requestBerth r) s = .next t ∧
        t.bal.seq = tag.seq ∧ t.bal.lastTag = some tag ∧ t.bal.result = .pending ∧
        t.bal.await = some ⟨tag, s.elapsed, s.lif.serial, none, none⟩ ∧
        t.bal.rounds.length = s.bal.rounds.length + 1 ∧ t.bal.rounds.getLast? = some x ∧
        x.tag = tag ∧ x.request = r ∧ x.arrivalDay = s.today + r.offset ∧
        x.windowEnd = s.elapsed + s.settings.window * 1000 ∧ x.best = none ∧ x.occupancy = none ∧
        (64 ≤ s.occ.records.length ∨ s.candidate r (s.today + r.offset) = none →
          x.state = .noFit ∧ x.candidate = none ∧ x.ownKey = none ∧ t.bal.berths = s.bal.berths) ∧
        (∀ score b, s.occ.records.length < 64 → s.candidate r (s.today + r.offset) = some (score, b) →
          x.candidate = some b ∧ x.ownKey = some ⟨score, s.me⟩ ∧
          (t.bal.berths = s.bal.berths.map fun y =>
            if y.number = b then { y with mark := some tag } else y) ∧
          (0 < score → x.state = .waiting ∧ x.bidFrame = none ∧
            x.delayEnd = some (s.elapsed + score * s.settings.bidStep)) ∧
          (score = 0 → x.state = .bidQueued ∧ x.delayEnd = none ∧
            x.bidFrame = some (s.lif.serial + 1) ∧
            (s.lif.tx.length < 11 → ∃ f ∈ t.lif.tx, f.serial = s.lif.serial + 1 ∧
              f.frame = bidFrame s.me 0 tag))) ∧
        (s.lif.tx.length < 11 → ∃ f ∈ t.lif.tx, f.serial = s.lif.serial ∧
          f.frame = berthRequestFrame s.me tag.seq r) ∧
        t.pnp.answer.result = .accepted ∧ t.pnp.answer.data = [⟨1, tag.station⟩, ⟨1, tag.seq⟩] ∧
        OnlyChanges [.pnp, .lif, .bal] s t)

/-- A BERTH REQUEST of another station, in range and not yet known, opens a round: NO FIT without a
candidate, else WAITING with the candidate marked and a delay of its score in bid steps; with a full
table ROUND MISSED is flagged (R4, R10, R11, R12).
The model's choices in it: log 6, 40. -/
def Obligations.BerthRequestOpensARound : Prop :=
  ∀ (src : RxSource) (f : Frame) (note : Option Nat) (s u : State), s.powered = true →
    s.takeRx 15 src = some (f, note, u) →
    let tag : Tag := ⟨f.sender, f.keyField 0 8⟩
    let r : BerthRequest := unpackRequest (f.num 0 7)
    let base : Round := ⟨tag, r, s.today + r.offset, none, none, none, none,
      s.elapsed + s.settings.window * 1000, none, .noFit, none, none⟩
    (s.lif.state ≠ .onLine ∨ f.sender = s.me ∨ (∃ x ∈ s.bal.rounds, x.tag = tag) ∨
      requestInRange r = false → exec (.berthRequestFrame src) s = .next u) ∧
    (s.lif.state = .onLine → f.sender ≠ s.me → (∀ x ∈ s.bal.rounds, x.tag ≠ tag) →
      requestInRange r = true →
      (4 ≤ s.bal.rounds.length ∨ 64 ≤ s.occ.records.length → exec (.berthRequestFrame src) s =
        .next { u with pnp := s.pnp.flagged Flag.roundMissed.bit }) ∧
      (s.bal.rounds.length < 4 → s.occ.records.length < 64 →
        (s.candidate r (s.today + r.offset) = none → exec (.berthRequestFrame src) s =
          .next { u with bal := { s.bal with rounds := s.bal.rounds ++ [base] } }) ∧
        (∀ score b, s.candidate r (s.today + r.offset) = some (score, b) → 0 < score →
          exec (.berthRequestFrame src) s = .next { u with bal := { s.bal with
            rounds := s.bal.rounds ++ [{ base with
              candidate := some b
              ownKey := some ⟨score, s.me⟩
              delayEnd := some (s.elapsed + score * s.settings.bidStep)
              state := .waiting }]
            berths := s.bal.berths.map fun x =>
              if x.number = b then { x with mark := some tag } else x } }) ∧
        (∀ b, s.candidate r (s.today + r.offset) = some (0, b) →
          ∃ t x, exec (.berthRequestFrame src) s = .next t ∧ t.round? tag = some x ∧
            x.state = .bidQueued ∧ x.candidate = some b ∧ x.ownKey = some ⟨0, s.me⟩ ∧
            x.delayEnd = none ∧ x.bidFrame = some s.lif.serial ∧
            (s.lif.tx.length < 12 → ∃ g ∈ t.lif.tx, g.serial = s.lif.serial ∧
              g.frame = bidFrame s.me 0 tag) ∧
            OnlyChanges [.pnp, .lif, .bal] s t)))

/-- The delay's end queues one BID (R14); a lower key heard, on the line or looped back, withdraws a round
whose BID never began transmission and loses one that has bid, a higher one only shows as the best (R13);
the BID's report makes it BID SENT, the own key heard with it, or withdraws it (R14). A round that is not
WAITING has no delay to end, and one no longer BID QUEUED keeps its state (R14).
The model's choices in it: log 2, 6, 20. -/
def Obligations.BidsAndKeysHeard : Prop :=
  (∀ (tag : Tag) (s : State), s.powered = true →
    ((∀ r, s.round? tag = some r → r.state ≠ .waiting) → exec (.bidDelayEnd tag) s = .next s) ∧
    (∀ (r : Round) (k : BidKey) (d : Nat), s.round? tag = some r → r.state = .waiting →
      r.delayEnd = some d → r.ownKey = some k →
      ∃ t, exec (.bidDelayEnd tag) s = .next t ∧
        t.round? tag = some { r with
          state := .bidQueued
          delayEnd := none
          bidFrame := some s.lif.serial } ∧
        (∀ tag', tag' ≠ tag → t.round? tag' = s.round? tag') ∧ t.bal.berths = s.bal.berths ∧
        t.elapsed = (s.advanceTo d).elapsed ∧
        (s.lif.state = .onLine → s.lif.tx.length < 12 →
          ∃ f ∈ t.lif.tx, f.serial = s.lif.serial ∧ f.frame = bidFrame s.me k.score tag) ∧
        OnlyChanges [.pnp, .elapsed, .sch, .lif, .bal] s t)) ∧
  (∀ (src : RxSource) (f : Frame) (note : Option Nat) (s u : State), s.powered = true →
    s.takeRx 13 src = some (f, note, u) →
    let tag : Tag := ⟨f.num 0 1, f.num 1 1⟩
    (s.round? tag = none → exec (.bidFrame src) s = .next u) ∧
    (∀ r : Round, s.round? tag = some r →
      (r.state = .won ∨ (∃ n, note = some n ∧ r.bidFrame ≠ some n) →
        exec (.bidFrame src) s = .next u) ∧
      (r.state ≠ .won → (∀ n, note = some n → r.bidFrame = some n) →
        ∃ t, exec (.bidFrame src) s = .next t ∧ KeyHeard r ⟨f.keyField 0 10, f.sender⟩ u t ∧
          OnlyChanges [.lif, .bal] s t))) ∧
  (∀ (rep : Report) (rest : List Report) (s : State), s.powered = true →
    takeFirst (fun x => x.frame.kind == 13) s.lif.reports = some (rep, rest) →
    let v : State := { s with lif := { s.lif with reports := rest } }
    ((∀ r ∈ s.bal.rounds, r.bidFrame = some rep.serial → r.state ≠ .bidQueued) →
      exec .bidReport s = .next v) ∧
    (∀ r : Round, s.bal.rounds.find? (fun r => r.bidFrame == some rep.serial) = some r →
      r.state = .bidQueued → RoundsApart s →
      ∃ t x, exec .bidReport s = .next t ∧ t.lif = v.lif ∧
        t.round? r.tag = some x ∧ (∀ tag', tag' ≠ r.tag → t.round? tag' = s.round? tag') ∧
        (rep.sent = true → t.bal.berths = s.bal.berths ∧ x = { r with
          state := .bidSent
          best := match r.ownKey, r.best with
            | some own, some b => some (if own.score < b.score ∨
                (own.score = b.score ∧ own.station < b.station) then own else b)
            | some own, none => some own
            | none, _ => r.best }) ∧
        (rep.sent = false → x = { r with state := .withdrawn } ∧
          t.bal.berths = s.bal.berths.map fun b =>
            if b.mark = some r.tag then { b with mark := none } else b) ∧
        OnlyChanges [.lif, .bal] s t))

/-- At its window end a round in BID SENT whose own key is the best heard is won: the stay is booked and
one ASSIGN queued, or BERTH FORFEIT flagged where OCC refuses; any other round is discarded, its mark
cleared and a BID still queued withdrawn, one already in transmission left (R16, R17).
A WON round leaves the table at its watch end and its stay stands (R18); the ASSIGN's report changes
nothing but itself (R17).
The model's choices in it: log 2, 6. -/
def Obligations.WindowEndWinsOrDiscards : Prop :=
  (∀ (tag : Tag) (r : Round) (s : State), s.powered = true → s.round? tag = some r →
    let wins : Prop := r.state = .bidSent ∧ r.ownKey.isSome = true ∧ r.best = r.ownKey ∧
      r.candidate.isSome = true
    let v : State := s.advanceTo r.windowEnd
    let unmarked : List Berth := s.bal.berths.map fun b =>
      if b.mark = some tag then { b with mark := none } else b
    (r.state ≠ .won → ¬ wins → ∃ t, exec (.windowEnd tag) s = .next t ∧ t.round? tag = none ∧
      (∀ tag', tag' ≠ tag → t.round? tag' = s.round? tag') ∧ t.bal.berths = unmarked ∧
      (r.state = .bidQueued → t.lif = { s.lif with tx := s.lif.tx.filter fun g =>
        !(r.bidFrame == some g.serial && s.lif.attempt != some g.serial) }) ∧
      (r.state ≠ .bidQueued → t.lif = s.lif) ∧ t.elapsed = v.elapsed ∧
      OnlyChanges [.elapsed, .sch, .lif, .bal] s t) ∧
    (wins → ∀ b k, r.candidate = some b → r.ownKey = some k →
      (v.createOcc (r.stay b) = none → ∃ t, exec (.windowEnd tag) s = .next t ∧
        t.round? tag = none ∧ (∀ tag', tag' ≠ tag → t.round? tag' = s.round? tag') ∧
        t.bal.berths = unmarked ∧ t.lif = s.lif ∧ t.hasFlag .berthForfeit = true ∧
        OnlyChanges [.pnp, .elapsed, .sch, .lif, .bal] s t) ∧
      (∀ n w, v.createOcc (r.stay b) = some (n, w) → ∃ t, exec (.windowEnd tag) s = .next t ∧
        t.round? tag = some { r with
          state := .won
          watchEnd := some (r.windowEnd + 500000)
          occupancy := some n } ∧
        t.occ = w.occ ∧ t.bal.berths = unmarked ∧
        (∀ tag', tag' ≠ tag → t.round? tag' = s.round? tag') ∧
        (s.lif.state = .onLine → s.lif.tx.length < 12 → ∃ f ∈ t.lif.tx, f.serial = s.lif.serial ∧
          f.frame = assignFrame s.me tag k.score b n) ∧
        OnlyChanges [.pnp, .elapsed, .sch, .lif, .bal, .occ] s t))) ∧
  (∀ (tag : Tag) (r : Round) (d : Nat) (s : State), s.powered = true → s.round? tag = some r →
    r.state = .won → r.watchEnd = some d →
    ∃ t, exec (.watchEnd tag) s = .next t ∧ t.round? tag = none ∧ t.occ = s.occ ∧ t.lif = s.lif ∧
      (∀ tag', tag' ≠ tag → t.round? tag' = s.round? tag') ∧
      t.elapsed = (s.advanceTo d).elapsed ∧ OnlyChanges [.elapsed, .sch, .bal] s t) ∧
  (∀ (rep : Report) (rest : List Report) (s : State), s.powered = true →
    takeFirst (fun x => x.frame.kind == 14) s.lif.reports = some (rep, rest) →
    exec .assignReport s = .next { s with lif := { s.lif with reports := rest } })

/-- An origination keeps the best ASSIGN heard for its tag (R20); a better ASSIGN than its own for a WON
round removes the booking, flags BERTH DOUBLE and discards the round (R18), and one for a round before
its window end is heard as a BID of its key (R15). The deadline is set by the
BERTH REQUEST's report, and gives the result: won here, assigned, or no berth (R20).
The model's choices in it: log 2, 6. -/
def Obligations.AwaitTakesTheBestAssign : Prop :=
  (∀ (src : RxSource) (f : Frame) (note : Option Nat) (s u : State), s.powered = true →
    s.takeRx 14 src = some (f, note, u) →
    let tag : Tag := ⟨f.num 0 1, f.num 1 1⟩
    let h : AssignHeard := ⟨⟨f.num 2 2, f.sender⟩, f.num 4 1, f.num 5 1⟩
    ∃ t, exec (.assignFrame src) s = .next t ∧
      (∀ a, s.bal.await = some a → ∃ a', t.bal.await = some a' ∧ a' = { a with best := a'.best } ∧
        (a.tag ≠ tag → a'.best = a.best) ∧
        (a.tag = tag → a.best = none → a'.best = some h) ∧
        (∀ b, a.tag = tag → a.best = some b → a'.best = some
          (if h.key.score < b.key.score ∨ (h.key.score = b.key.score ∧ h.key.station < b.key.station)
            then h else b))) ∧
      (∀ (r : Round) (own : BidKey), s.round? tag = some r → r.state = .won → r.ownKey = some own →
        (own.score < h.key.score ∨ (own.score = h.key.score ∧ own.station ≤ h.key.station) →
          t.bal.rounds = s.bal.rounds ∧ t.occ = s.occ ∧ t.pnp = s.pnp) ∧
        (h.key.score < own.score ∨ (h.key.score = own.score ∧ h.key.station < own.station) →
          t.round? tag = none ∧ t.hasFlag .berthDouble = true ∧
          (∀ (n : Nat) (o : Occupancy), r.occupancy = some n → s.occ? n = some o → o.number = n →
            o.state = .booked → o.origin = some r.tag → t.occ? n = none))) ∧
      (∀ r : Round, s.round? tag = some r → r.state ≠ .won →
        KeyHeard r h.key u t ∧ t.occ = s.occ ∧ t.pnp = s.pnp) ∧
      (s.round? tag = none → t.bal.rounds = s.bal.rounds ∧ t.occ = s.occ ∧ t.pnp = s.pnp) ∧
      OnlyChanges [.pnp, .lif, .bal, .occ, .spc] s t) ∧
  (∀ (rep : Report) (rest : List Report) (a : Await) (s : State), s.powered = true →
    takeFirst (fun x => x.frame.kind == 15) s.lif.reports = some (rep, rest) →
    s.bal.await = some a → a.frame = rep.serial →
    let from_ : Nat := if rep.sent = true then s.elapsed else a.acceptedAt
    exec .berthRequestReport s = .next { s with
      lif := { s.lif with reports := rest }
      bal := { s.bal with
        await := some { a with deadline := some (from_ + s.settings.window * 1000 + 500000) } } }) ∧
  (∀ (a : Await) (d : Nat) (s : State), s.powered = true → s.bal.await = some a → a.deadline = some d →
    exec .awaitDeadline s = .next { s.advanceTo d with
      bal := { s.bal with
        await := none
        result := match a.best with
          | none => .noBerth
          | some h => if h.key.station = s.me then .wonHere h else .assigned h }
      pnp := s.pnp.flagged Flag.roundDone.bit })

/-! ### Stays, accounts, credentials, holds (02) -/

/-- BOOK is refused at the first cause in order; else it creates a BOOKED record under the lowest free
number, its account at 0 with the station's limit and warn level and its profile fitted to the berth's
point (R26, R27, R33).
The model's choices in it: log 48. -/
def Obligations.BookCreatesTheStay : Prop :=
  ∀ (v : BookParams) (s : State), Takes 19 s →
    let refused (c : Cause) : Prop :=
      exec (.book v) s = .next { s with pnp := s.pnp.answered 19 (.refused c) }
    let inRange : Prop := 1 ≤ v.berth ∧ v.berth ≤ 48 ∧ v.offset ≤ 365 ∧ 1 ≤ v.nights ∧ v.nights ≤ 366 ∧
      30 ≤ v.length ∧ v.length ≤ 600 ∧ 10 ≤ v.beam ∧ v.beam ≤ 150 ∧ 5 ≤ v.draft ∧ v.draft ≤ 60 ∧
      1 ≤ v.cls ∧ v.cls ≤ 3 ∧ v.power ≤ 1 ∧ v.rating ≤ 3 ∧ v.three ≤ 1
    let first : Nat := s.today + v.offset
    let shared : Prop := ∃ x ∈ s.occ.records, x.berth = v.berth ∧
      x.arrival < first + v.nights ∧ first < x.arrival + x.nights
    (¬ inRange → refused .range) ∧
    (inRange → s.berth? v.berth = none → refused .unknown) ∧
    (inRange → (s.berth? v.berth).isSome = true → 64 ≤ s.occ.records.length → refused .full) ∧
    (inRange → (s.berth? v.berth).isSome = true → s.occ.records.length < 64 → shared → refused .state) ∧
    (inRange → (s.berth? v.berth).isSome = true → s.occ.records.length < 64 → ¬ shared →
      ∃ (t : State) (n : Nat) (r : Occupancy), exec (.book v) s = .next t ∧
        1 ≤ n ∧ n ≤ 64 ∧ s.occ? n = none ∧ (∀ m, 1 ≤ m → m < n → (s.occ? m).isSome = true) ∧
        t.occ? n = some r ∧ (∀ m, m ≠ n → t.occ? m = s.occ? m) ∧
        r.berth = v.berth ∧ r.length = v.length ∧ r.beam = v.beam ∧ r.draft = v.draft ∧
        r.cls = classOf v.cls ∧ r.arrival = first ∧ r.nights = v.nights ∧ r.state = .booked ∧
        r.origin = none ∧ r.closureDue = none ∧ r.credential = none ∧ r.holds = [] ∧ r.receipts = [] ∧
        r.graceEnd = none ∧ r.awaiting = false ∧
        r.account = ⟨0, s.settings.creditLimit, s.settings.warnLevel,
          if 0 < s.settings.warnLevel then .low else .open_, none, false⟩ ∧
        (s.berthPoint v.berth = none → r.profile = none) ∧
        (∀ k p, s.berthPoint v.berth = some k → s.point? k = some p →
          r.profile = some (Profile.mk (if v.power = 1 then min v.rating p.maxRating else 0)
            (decide (v.power = 1 ∧ v.three = 1 ∧ p.three = true)) true)) ∧
        t.occ.closures = s.occ.closures ∧ t.occ.notices = s.occ.notices ∧
        t.pnp.answer.result = .done ∧ t.pnp.answer.data = [⟨1, n⟩] ∧ OnlyChanges [.pnp, .occ] s t)

/-- CANCEL removes a BOOKED record (R28), ARRIVE brings it ALONGSIDE within its nights and tells SPC (R29),
DEPART takes an ALONGSIDE record to DEPARTING with its grace and its awaited reading (R30, R31); each is
refused RANGE, UNKNOWN or STATE else.
The model's choices in it: log 5, 9. -/
def Obligations.StaysCancelArriveDepart : Prop :=
  ∀ (n : Nat) (s : State),
    (∀ (c : Instr) (code : Nat), (c, code) ∈ [(Instr.cancel n, 20), (.arrive n, 21), (.depart n, 22)] →
      Takes code s →
      (n = 0 ∨ 64 < n → exec c s = .next { s with pnp := s.pnp.answered code (.refused .range) }) ∧
      (1 ≤ n → n ≤ 64 → s.occ? n = none →
        exec c s = .next { s with pnp := s.pnp.answered code (.refused .unknown) })) ∧
    (∀ r : Occupancy, 1 ≤ n → n ≤ 64 → s.occ? n = some r →
      (Takes 20 s → (r.state = .booked → r.closureDue = none → ∃ t, exec (.cancel n) s = .next t ∧
          t.occ? n = none ∧ (∀ m, m ≠ n → t.occ? m = s.occ? m) ∧ t.link? n = none ∧
          (∀ m, m ≠ n → t.link? m = s.link? m) ∧ (∀ p ∈ t.spc.points, p.charging ≠ some n) ∧
          t.occ.closures = s.occ.closures ∧ t.pnp = s.pnp.answered 20 (.done []) ∧
          OnlyChanges [.pnp, .occ, .spc] s t) ∧
        (r.state ≠ .booked ∨ r.closureDue.isSome = true → exec (.cancel n) s =
          .next { s with pnp := s.pnp.answered 20 (.refused .state) })) ∧
      (Takes 21 s →
        (r.state = .booked → r.closureDue = none → r.arrival ≤ s.today → s.today < r.arrival + r.nights →
          ∃ t, exec (.arrive n) s = .next t ∧ t.occ? n = some { r with state := .alongside } ∧
            (∀ m, m ≠ n → t.occ? m = s.occ? m) ∧
            t.occ.notices = s.occ.notices ++ [⟨.alongside, n, ⟨s.moments, s.now⟩⟩] ∧ t.occ.closures = s.occ.closures ∧
            t.pnp = s.pnp.answered 21 (.done []) ∧ OnlyChanges [.pnp, .occ] s t) ∧
        (r.state ≠ .booked ∨ r.closureDue.isSome = true ∨ s.today < r.arrival ∨
            r.arrival + r.nights ≤ s.today → exec (.arrive n) s =
          .next { s with pnp := s.pnp.answered 21 (.refused .state) })) ∧
      (Takes 22 s →
        (r.state = .alongside → r.closureDue = none →
          let gone : Prop := s.berthPoint r.berth = none ∧ r.holds = []
          ∃ t, exec (.depart n) s = .next t ∧ (∀ m, m ≠ n → t.occ? m = s.occ? m) ∧
            (¬ gone ∨ 8 ≤ s.occ.closures.length → t.occ? n = some { r with
              state := .departing
              graceEnd := some (s.now.addSec (s.settings.departureGrace * 3600))
              awaiting := (s.berthPoint r.berth).isSome } ∧
              t.occ.notices = s.occ.notices ++ [⟨.departing, n, ⟨s.moments, s.now⟩⟩] ∧
              t.occ.closures = s.occ.closures ∧ (gone → t.hasFlag .closureWaiting = true)) ∧
            (gone → s.occ.closures.length < 8 → t.occ? n = none ∧ t.hasFlag .closureAdded = true ∧
              ∃ c, t.occ.closures = s.occ.closures ++ [c] ∧ c.occupancy = r.number ∧
                c.reason = .departed ∧ c.balance = r.account.balance ∧ c.closedAt = s.now) ∧
            t.pnp.answer.result = .done ∧ OnlyChanges [.pnp, .occ, .spc] s t) ∧
        (r.state ≠ .alongside → exec (.depart n) s =
          .next { s with pnp := s.pnp.answered 22 (.refused .state) })))

/-- CLOSURE COLLECT takes the oldest closure record and retries the waiting closures, the first in number
order closing now (R35); JOURNAL COLLECT takes the oldest CLOSED record and answers its number (R125);
each is IGNORED where there is none. -/
def Obligations.CollectsTakeTheOldest : Prop :=
  (∀ s : State, Takes 25 s →
    (s.occ.closures = [] → exec .closureCollect s = .next { s with pnp := s.pnp.answered 25 .ignored }) ∧
    (∀ c rest, s.occ.closures = c :: rest →
      let waits (r : Occupancy) : Prop := r.closureDue.isSome = true ∨
        (r.state = .departing ∧ r.awaiting = false ∧ r.holds = [])
      ∃ t added, exec .closureCollect s = .next t ∧ t.occ.closures = rest ++ added ∧
        ((∀ r ∈ s.occ.records, ¬ waits r) → added = [] ∧ t.occ.records = s.occ.records) ∧
        (OccupancySound s → ∀ before r after, s.occ.records = before ++ r :: after →
          (∀ x ∈ before, ¬ waits x) → waits r → t.occ? r.number = none ∧
            ∃ d more, added = d :: more ∧ d.occupancy = r.number ∧
              d.reason = r.closureDue.getD .departed ∧ d.balance = r.account.balance) ∧
        (∀ n r, s.occ? n = some r → ¬ waits r → t.occ? n = some r) ∧
        t.pnp.answer.result = .done ∧ OnlyChanges [.pnp, .occ, .spc] s t)) ∧
  (∀ s : State, Takes 54 s →
    ((∀ r ∈ s.fdc.journal, r.closed = false) →
      exec .journalCollect s = .next { s with pnp := s.pnp.answered 54 .ignored }) ∧
    (∀ before r after, s.fdc.journal = before ++ r :: after → (∀ x ∈ before, x.closed = false) →
      r.closed = true → exec .journalCollect s = .next { s with
        fdc := { s.fdc with journal := s.fdc.journal.filter fun x => x.number != r.number }
        pnp := s.pnp.answered 54 (.done [⟨2, r.number⟩]) }))

/-- A card is bound to a record by BIND CARD or a CARD BIND frame unless another holds it: a new
credential, or the card alone with the waiver ended (R44, R45). SET PIN, CHANGE PIN, CLEAR PIN and UNLOCK
change the credential they name as their rules say, a wrong old PIN being counted (R46, R47, R48).
The model's choices in it: log 33. -/
def Obligations.CredentialRequests : Prop :=
  ∀ (n : Nat) (s : State),
    let bound (card : Nat) (r : Occupancy) : Occupancy := match r.credential with
      | none => { r with credential := some ⟨card, none, 0, false, none⟩ }
      | some c => if c.card = card then r else { r with credential := some { c with
          card := card
          waiver := none } }
    let taken (card : Nat) : Prop := (∃ e ∈ s.gtc.staff, e.card = card) ∨
      ∃ x : Occupancy, s.cardHolder card = some x ∧ x.number ≠ n
    let refused (c : Instr) (code : Nat) (x : Cause) : Prop :=
      exec c s = .next { s with pnp := s.pnp.answered code (.refused x) }
    let changes (c : Instr) (code : Nat) (r : Occupancy) : Prop :=
      ∃ t, exec c s = .next t ∧ t.occ? n = some r ∧ (∀ m, m ≠ n → t.occ? m = s.occ? m) ∧
        t.occ = { s.occ with records := t.occ.records } ∧
        t.pnp = s.pnp.answered code (.done []) ∧ OnlyChanges [.pnp, .occ] s t
    (Takes 26 s → ∀ card,
      (n = 0 ∨ 64 < n ∨ card = 0 ∨ 1099511627775 < card → refused (.bindCard n card) 26 .range) ∧
      (1 ≤ n → n ≤ 64 → 1 ≤ card → card ≤ 1099511627775 →
        (s.occ? n = none → refused (.bindCard n card) 26 .unknown) ∧
        ((s.occ? n).isSome = true → taken card → refused (.bindCard n card) 26 .state) ∧
        (∀ r : Occupancy, s.occ? n = some r → ¬ taken card →
          changes (.bindCard n card) 26 (bound card r)))) ∧
    (∀ (src : RxSource) (f : Frame) (note : Option Nat) (u : State), s.powered = true →
      s.takeRx 16 src = some (f, note, u) → f.keyField 5 7 = n →
      (s.occ? n = none ∨ f.num 0 5 = 0 → exec (.cardBindFrame src) s = .next u) ∧
      ((s.occ? n).isSome = true → f.num 0 5 ≠ 0 → taken (f.num 0 5) → exec (.cardBindFrame src) s =
        .next { u with pnp := s.pnp.flagged Flag.bindConflict.bit }) ∧
      (∀ r : Occupancy, s.occ? n = some r → f.num 0 5 ≠ 0 → ¬ taken (f.num 0 5) →
        ∃ t, exec (.cardBindFrame src) s = .next t ∧ t.occ? n = some (bound (f.num 0 5) r) ∧
          (∀ m, m ≠ n → t.occ? m = s.occ? m) ∧ t.lif = u.lif ∧ OnlyChanges [.lif, .occ] s t)) ∧
    (∀ (c : Instr) (code : Nat) (pin old : PinField), (c, code) ∈ [(Instr.setPin n pin, 27),
        (.changePin n old pin, 28), (.clearPin n, 29), (.unlock n, 30)] → Takes code s →
      (n = 0 ∨ 64 < n → refused c code .range) ∧
      (1 ≤ n → n ≤ 64 → s.occ? n = none → refused c code .unknown)) ∧
    (∀ (pin old : PinField), 1 ≤ n → n ≤ 64 → ∀ r : Occupancy, s.occ? n = some r →
      (r.credential = none →
        (Takes 27 s → refused (.setPin n pin) 27 .state) ∧
        (Takes 28 s → refused (.changePin n old pin) 28 .state) ∧
        (Takes 29 s → refused (.clearPin n) 29 .state) ∧
        (Takes 30 s → refused (.unlock n) 30 .state)) ∧
      (∀ c : Credential, r.credential = some c →
        (pinDigits pin = none →
          (Takes 27 s → refused (.setPin n pin) 27 .range) ∧
          (Takes 28 s → refused (.changePin n old pin) 28 .range)) ∧
        (∀ d, pinDigits pin = some d →
          (Takes 27 s →
            (c.pin.isSome = true → refused (.setPin n pin) 27 .state) ∧
            (c.pin = none → changes (.setPin n pin) 27
              { r with credential := some { c with pin := some d } })) ∧
          (Takes 28 s →
            (c.pin = none → refused (.changePin n old pin) 28 .state) ∧
            (c.pin.isSome = true → c.locked = true → refused (.changePin n old pin) 28 .locked) ∧
            (c.pin.isSome = true → c.locked = false → pinDigits old = c.pin →
              changes (.changePin n old pin) 28 { r with credential := some { c with
                pin := some d
                count := 0 } }) ∧
            (c.pin.isSome = true → c.locked = false → pinDigits old ≠ c.pin →
              ∃ t, exec (.changePin n old pin) s = .next t ∧
                t.occ? n = some { r with credential := some { c with
                  count := min 3 (c.count + 1)
                  locked := decide (2 ≤ c.count) } } ∧
                (∀ m, m ≠ n → t.occ? m = s.occ? m) ∧
                (2 ≤ c.count → t.hasFlag .lockout = true) ∧ t.pnp.answer.result = .refused ∧
                t.pnp.answer.cause = some (if 2 ≤ c.count then .locked else .state) ∧
                OnlyChanges [.pnp, .occ] s t))) ∧
        (Takes 29 s → changes (.clearPin n) 29 { r with credential := some { c with
          pin := none
          locked := false
          count := 0
          waiver := none } }) ∧
        (Takes 30 s → changes (.unlock n) 30 { r with credential := some { c with
          locked := false
          count := 0 } })))

/-- TOP UP and SET LIMIT change the account and its standing follows, overdue since the moment it fell
below its limit and barred once its grace has passed (R33, R36, R39); BAR bars it and UNBAR gives it its
standing again, each telling SPC (R37, R39); a number out of range or without a record, a value out of
range, a wrong state or a balance below the limit is refused.
The model's choices in it: log 5, 27, 31. -/
def Obligations.AccountRequests : Prop :=
  (∀ (c : Instr) (code n amount keep limit : Nat) (warn : Int) (s : State),
    (c, code) ∈ [(Instr.topUp n amount, 31), (.setLimit n keep limit warn, 32), (.bar n, 33),
      (.unbar n, 34)] → Takes code s →
    (n = 0 ∨ 64 < n → exec c s = .next { s with pnp := s.pnp.answered code (.refused .range) }) ∧
    (1 ≤ n → n ≤ 64 → s.occ? n = none →
      exec c s = .next { s with pnp := s.pnp.answered code (.refused .unknown) })) ∧
  (∀ (n : Nat) (r : Occupancy) (s : State), 1 ≤ n → n ≤ 64 → s.occ? n = some r →
    let a : Account := r.account
    let standing (balance limit warn : Int) : AccountState :=
      if balance < -limit then .overdue else if balance < warn then .low else .open_
    let refused (c : Instr) (code : Nat) (x : Cause) : Prop :=
      exec c s = .next { s with pnp := s.pnp.answered code (.refused x) }
    let follows (balance : Int) (limit : Nat) (warn : Int) (r' : Occupancy) (t : State) : Prop :=
      let since : Time := a.overdueSince.getD s.now
      let below : Prop := balance < -(limit : Int)
      let graceOver : Prop := since.toMs + s.settings.overdueGrace * 3600000 < s.now.toMs
      (below → r'.account.overdueSince = some since) ∧ (¬ below → r'.account.overdueSince = none) ∧
      (a.state ≠ .barred → ¬ (below ∧ graceOver) →
        r'.account.state = standing balance limit warn ∧ t.occ.notices = s.occ.notices) ∧
      (a.state ≠ .barred → below → graceOver → r'.account.state = .barred ∧
        t.occ.notices = s.occ.notices ++ [⟨.barred, n, ⟨s.moments, s.now⟩⟩] ∧ t.hasFlag .accountBarred = true) ∧
      (a.state ≠ .barred → a.state ≠ .overdue → below → t.hasFlag .accountOverdue = true) ∧
      (a.state ≠ .barred → a.state ≠ .low → standing balance limit warn = .low →
        t.hasFlag .accountLow = true)
    (Takes 31 s → ∀ amount : Nat,
      let b : Int := a.balance + amount
      (amount = 0 ∨ 99999999 < amount ∨ 99999999 < b → refused (.topUp n amount) 31 .range) ∧
      (1 ≤ amount → amount ≤ 99999999 → b ≤ 99999999 →
        ∃ (t : State) (r' : Occupancy), exec (.topUp n amount) s = .next t ∧ t.occ? n = some r' ∧
          (∀ m, m ≠ n → t.occ? m = s.occ? m) ∧ r' = { r with account := r'.account } ∧
          r'.account.balance = b ∧ r'.account.limit = a.limit ∧ r'.account.warn = a.warn ∧
          r'.account.late = a.late ∧
          follows b a.limit a.warn r' t ∧
          (a.state = .barred → b < 0 → r'.account.state = .barred ∧ t.occ.notices = s.occ.notices) ∧
          (a.state = .barred → 0 ≤ b → r'.account.state = standing b a.limit a.warn ∧
            t.occ.notices = s.occ.notices ++ [⟨.unbarred, n, ⟨s.moments, s.now⟩⟩]) ∧
          t.pnp.answer.result = .done ∧ t.pnp.answer.data.head? = some (Datum.mk 4 b) ∧
          OnlyChanges [.pnp, .occ] s t)) ∧
    (Takes 32 s → ∀ (keep limit : Nat) (warn : Int),
      let limit' : Nat := if keep % 2 = 1 then a.limit else limit
      let warn' : Int := if keep / 2 % 2 = 1 then a.warn else warn
      ((keep % 2 = 0 ∧ 10000000 < limit) ∨
          (keep / 2 % 2 = 0 ∧ (warn < -10000000 ∨ 10000000 < warn)) →
        refused (.setLimit n keep limit warn) 32 .range) ∧
      ((keep % 2 = 1 ∨ limit ≤ 10000000) →
        (keep / 2 % 2 = 1 ∨ (-10000000 ≤ warn ∧ warn ≤ 10000000)) →
        ∃ (t : State) (r' : Occupancy), exec (.setLimit n keep limit warn) s = .next t ∧
          t.occ? n = some r' ∧ (∀ m, m ≠ n → t.occ? m = s.occ? m) ∧
          r' = { r with account := r'.account } ∧ r'.account.balance = a.balance ∧
          r'.account.limit = limit' ∧ r'.account.warn = warn' ∧
          follows a.balance limit' warn' r' t ∧
          (a.state = .barred → r'.account.state = .barred ∧ t.occ.notices = s.occ.notices) ∧
          t.pnp.answer.result = .done ∧ OnlyChanges [.pnp, .occ] s t)) ∧
    (Takes 33 s → (a.state = .barred → refused (.bar n) 33 .state) ∧
      (a.state ≠ .barred → ∃ t, exec (.bar n) s = .next t ∧
        t.occ? n = some { r with account := { a with state := .barred } } ∧
        (∀ m, m ≠ n → t.occ? m = s.occ? m) ∧ t.occ.notices = s.occ.notices ++ [⟨.barred, n, ⟨s.moments, s.now⟩⟩] ∧
        t.pnp = s.pnp.answered 33 (.done []) ∧ OnlyChanges [.pnp, .occ] s t)) ∧
    (Takes 34 s → (a.state ≠ .barred → refused (.unbar n) 34 .state) ∧
      (a.state = .barred → a.balance < -(a.limit : Int) → refused (.unbar n) 34 .funds) ∧
      (a.state = .barred → -(a.limit : Int) ≤ a.balance → ∃ t, exec (.unbar n) s = .next t ∧
        t.occ? n = some { r with account := { a with
          state := standing a.balance a.limit a.warn } } ∧
        (∀ m, m ≠ n → t.occ? m = s.occ? m) ∧ t.occ.notices = s.occ.notices ++ [⟨.unbarred, n, ⟨s.moments, s.now⟩⟩] ∧
        t.pnp.answer.result = .done ∧ OnlyChanges [.pnp, .occ] s t)))

/-- A HOLD ASK for a card of the station is answered: again with the hold it has, refused with the first
cause, HOLDS where the record has four holds or no hold id is free, or OK with a hold placed under an id not
in use (R40, R41).
The model's choices in it: log 6, 9, 49. -/
def Obligations.HoldAsksAreAnswered : Prop :=
  ∀ (src : RxSource) (f : Frame) (note : Option Nat) (s u : State), s.powered = true →
    s.takeRx 9 src = some (f, note, u) →
    let amount : Nat := f.num 5 3
    let pump : Nat := f.keyField 0 2
    let ask : Nat := f.keyField 2 8
    let queues (t : State) (g : Frame) : Prop := s.lif.state = .onLine → s.lif.tx.length < 12 →
      ∃ x ∈ t.lif.tx, x.serial = s.lif.serial ∧ x.frame = g
    (s.cardHolder (f.num 0 5) = none ∨ amount < 100 ∨ 500000 < amount →
      exec (.holdAskFrame src) s = .next u) ∧
    (∀ r : Occupancy, s.cardHolder (f.num 0 5) = some r → s.occ? r.number = some r → 100 ≤ amount →
      amount ≤ 500000 →
      let same (h : Hold) : Prop := h.station = f.sender ∧ h.pump = some pump ∧ h.ask = some ask
      let locked : Prop := ∃ c, r.credential = some c ∧ c.locked = true
      let poor : Prop := r.account.state = .overdue ∨ r.account.state = .barred ∨ r.available < amount
      let refused (c : HoldCause) : Prop := ∃ t, exec (.holdAskFrame src) s = .next t ∧ t.occ = s.occ ∧
        queues t (holdRefusedFrame s.me f.sender pump ask c) ∧ OnlyChanges [.pnp, .lif] s t
      (∀ before h after, r.holds = before ++ h :: after → (∀ x ∈ before, ¬ same x) → same h →
        ∃ t, exec (.holdAskFrame src) s = .next t ∧ t.occ = s.occ ∧
          queues t (holdOkFrame s.me f.sender pump ask h.id r.number) ∧
          OnlyChanges [.pnp, .lif] s t) ∧
      ((∀ h ∈ r.holds, ¬ same h) →
        (r.state = .booked ∨ r.closureDue.isSome = true → refused .state) ∧
        (r.state ≠ .booked → r.closureDue = none → locked → refused .locked) ∧
        (r.state ≠ .booked → r.closureDue = none → ¬ locked → poor → refused .funds) ∧
        (r.state ≠ .booked → r.closureDue = none → ¬ locked → ¬ poor →
          4 ≤ r.holds.length ∨ (∀ i, 1 ≤ i → i ≤ 255 → i ∈ s.holdIds) → refused .holds) ∧
        (r.state ≠ .booked → r.closureDue = none → ¬ locked → ¬ poor → r.holds.length < 4 →
          (∃ i, 1 ≤ i ∧ i ≤ 255 ∧ i ∉ s.holdIds) →
          ∃ (t : State) (h : Hold), exec (.holdAskFrame src) s = .next t ∧
            t.occ? r.number = some { r with holds := r.holds ++ [h] } ∧
            (∀ m, m ≠ r.number → t.occ? m = s.occ? m) ∧ t.occ.holdId = h.id ∧ 1 ≤ h.id ∧
            h.id ≤ 255 ∧ h.id ∉ s.holdIds ∧ h.station = f.sender ∧ h.pump = some pump ∧
            h.ask = some ask ∧ h.amount = amount ∧ h.placed = s.now ∧
            h.expiry = s.now.addSec (s.settings.holdLifetime * 60) ∧
            queues t (holdOkFrame s.me f.sender pump ask h.id r.number) ∧
            OnlyChanges [.pnp, .lif, .occ] s t)))

/-- Every SETTLE is answered: UNKNOWN with no such record, again by its receipt, APPLIED against its hold,
or LATE-APPLIED with the late mark; the debit is the amount, and 0 debits nothing (R38, R42). A hold's
expiry takes the hold without debit and flags HOLD LAPSED (R43). Either then closes a DEPARTING record
left with no hold and no reading awaited, or one with closure due, where the list has room (R31, R34).
The model's choices in it: log 2, 6. -/
def Obligations.SettlesAndLapses : Prop :=
  (∀ (src : RxSource) (f : Frame) (note : Option Nat) (s u : State), s.powered = true →
    s.takeRx 11 src = some (f, note, u) →
    let hold : Nat := f.keyField 5 8
    let amount : Nat := f.num 0 3
    let occ : Nat := f.num 3 1
    let sale : Nat := f.num 4 2
    let answers (t : State) (res : SettleResult) : Prop :=
      exec (.settleFrame src) s = .next t ∧ (s.lif.state = .onLine → s.lif.tx.length < 12 →
        ∃ x ∈ t.lif.tx, x.serial = s.lif.serial ∧
          x.frame = settleAnswerFrame s.me f.sender hold res) ∧
      OnlyChanges [.pnp, .lif, .occ, .spc] s t
    let less (b : Int) : Int := if amount = 0 then b else max (-99999999) (b - amount)
    (s.occ? occ = none → ∃ t, answers t .unknown ∧ t.occ = s.occ) ∧
    (∀ r : Occupancy, s.occ? occ = some r →
      let known (x : Receipt) : Prop := x.station = f.sender ∧ x.hold = hold ∧ x.sale = sale
      let receipts (res : SettleResult) : List Receipt :=
        (r.receipts ++ [Receipt.mk f.sender hold sale res]).drop (r.receipts.length + 1 - 4)
      (∀ before x after, r.receipts = before ++ x :: after → (∀ y ∈ before, ¬ known y) → known x →
        ∃ t, answers t x.result ∧ t.occ = s.occ) ∧
      ((∀ x ∈ r.receipts, ¬ known x) → (∃ h ∈ r.holds, h.id = hold ∧ h.station = f.sender) →
        let kept : List Hold := r.holds.filter fun h => h.id != hold
        let ends : Prop := r.closureDue.isSome = true ∨
          (r.state = .departing ∧ r.awaiting = false ∧ kept = [])
        (¬ ends ∨ 8 ≤ s.occ.closures.length →
          ∃ (t : State) (r' : Occupancy), answers t .applied ∧ t.occ? occ = some r' ∧
            r'.account.balance = less r.account.balance ∧ r'.holds = kept ∧
            r'.receipts = receipts .applied ∧ r'.state = r.state ∧ r'.closureDue = r.closureDue ∧
            r'.account.late = r.account.late ∧ t.occ.closures = s.occ.closures ∧
            (ends → r.closureDue = none → t.hasFlag .closureWaiting = true) ∧
            (∀ m, m ≠ occ → t.occ? m = s.occ? m)) ∧
        (ends → s.occ.closures.length < 8 →
          ∃ (t : State) (c : Closure), answers t .applied ∧ t.occ? occ = none ∧
            t.occ.closures = s.occ.closures ++ [c] ∧ t.hasFlag .closureAdded = true ∧
            IsClosureOf s { r with account := { r.account with balance := less r.account.balance } }
              (r.closureDue.getD .departed) c ∧
            (∀ m, m ≠ occ → t.occ? m = s.occ? m))) ∧
      ((∀ x ∈ r.receipts, ¬ known x) → (∀ h ∈ r.holds, h.id = hold → h.station ≠ f.sender) →
        ∃ (t : State) (r' : Occupancy), answers t .lateApplied ∧ t.occ? occ = some r' ∧
          r'.account.balance = less r.account.balance ∧ r'.holds = r.holds ∧
          r'.receipts = receipts .lateApplied ∧ r'.state = r.state ∧
          r'.account.late = (r.account.late || decide (amount ≠ 0)) ∧
          (amount ≠ 0 → t.hasFlag .lateSettle = true) ∧
          (∀ m, m ≠ occ → t.occ? m = s.occ? m)))) ∧
  (∀ (n : Nat) (r : Occupancy) (h : Hold) (s : State), s.powered = true →
    s.lif.state ≠ .unconfigured → s.occ? n = some r → r.holds.find? (fun x => x.id == h.id) = some h →
    let v : State := s.advanceToTime h.expiry
    let kept : List Hold := r.holds.filter fun x => x.id != h.id
    let ends : Prop := r.closureDue.isSome = true ∨
      (r.state = .departing ∧ r.awaiting = false ∧ kept = [])
    ∃ t, exec (.holdExpiry n h.id) s = .next t ∧ t.hasFlag .holdLapsed = true ∧
      t.elapsed = v.elapsed ∧ t.sch = v.sch ∧ (∀ m, m ≠ n → t.occ? m = s.occ? m) ∧
      (¬ ends ∨ 8 ≤ s.occ.closures.length → t.occ? n = some { r with holds := kept } ∧
        t.occ.closures = s.occ.closures ∧
        (ends → r.closureDue = none → t.hasFlag .closureWaiting = true)) ∧
      (ends → s.occ.closures.length < 8 → t.occ? n = none ∧ t.hasFlag .closureAdded = true ∧
        ∃ c, t.occ.closures = s.occ.closures ++ [c] ∧
          IsClosureOf v r (r.closureDue.getD .departed) c) ∧
      OnlyChanges [.pnp, .elapsed, .sch, .occ, .spc] s t)

/-! ### The power budget and loans (03) -/

/-- The shed pass takes the energised outlets of OVERDUE accounts, then VISITORS', then the others', the
newest of each first, until G is no greater than C (R54); the restore pass brings the shed list back from
its front while each fits (R55); a head that fits is served (R57), and one that does not waits for its
recalls or its collection, has loans out recalled (R58), asks the line (R59) or fails (R60), PWB then
examining the next; with the queue empty the restore pass runs (R55). Serving and restoring ask nothing of the
outlet's occupancy: SPC takes its outlet away at the notice of a change (R75, log 69).
The model's choices in it: log 6, 13, 14, 41, 57, 69. -/
def Obligations.PassesAndTheHeadDemand : Prop :=
  (∀ s : State, s.shedPass.ceiling = s.ceiling ∧ s.shedPass.pumpLoads = s.pumpLoads ∧
    (((s.shedPass.load : Int) ≤ s.ceiling) ∨ s.shedPass.pwb.energised = [])) ∧
  (∀ (e : OutletLoad) (l : List OutletLoad), ∃ before after, l = before ++ after ∧
    insertMoment e l = before ++ e :: after ∧ (∀ x ∈ before, x.moment ≤ e.moment) ∧
    (∀ x rest, after = x :: rest → e.moment < x.moment)) ∧
  (∀ s : State, (s.pwb.energised.map OutletLoad.point).Nodup →
    (∀ e ∈ s.pwb.energised, ∀ x ∈ s.pwb.shed, x.point ≠ e.point) →
    let cls (e : OutletLoad) : Nat :=
      match ((s.point? e.point).bind Point.charging).bind s.occ? with
      | some r => if r.account.state = .overdue then 0 else if r.cls = .visitor then 1 else 2
      | none => 2
    let order : List OutletLoad :=
      [0, 1, 2].flatMap fun k => s.pwb.energised.reverse.filter fun e => cls e == k
    ∃ taken left : List OutletLoad, order = taken ++ left ∧
      (∀ before e after, taken = before ++ e :: after →
        s.ceiling < s.load - ((before.map OutletLoad.figure).sum : Int)) ∧
      (left = [] ∨ s.load - ((taken.map OutletLoad.figure).sum : Int) ≤ s.ceiling) ∧
      (taken = [] → s.shedPass = s) ∧ (taken ≠ [] → s.shedPass.hasFlag .outletShed = true) ∧
      s.shedPass.pwb = { s.pwb with
        energised := s.pwb.energised.filter fun e => !(taken.map OutletLoad.point).contains e.point
        shed := taken.foldl (fun l e => insertMoment e l) s.pwb.shed
        demands := s.pwb.demands.filter fun d =>
          d.kind == .pump || !(taken.map OutletLoad.point).contains d.source } ∧
      (∀ e ∈ taken, ∀ p, s.point? e.point = some p → s.shedPass.point? e.point = some { p with
        outlet := .shed
        raisePending := none
        raiseLast := if p.raisePending.isSome = true then .budget else p.raiseLast }) ∧
      (∀ m, m ∉ taken.map OutletLoad.point → s.shedPass.point? m = s.point? m) ∧
      OnlyChanges [.pnp, .pwb, .spc] s s.shedPass) ∧
  (∀ s : State, (s.load : Int) ≤ s.ceiling → (s.restorePass.load : Int) ≤ s.restorePass.ceiling) ∧
  (∀ s : State, (s.pwb.shed.map OutletLoad.point).Nodup →
    ∃ taken left : List OutletLoad, s.pwb.shed = taken ++ left ∧
      (∀ before e after, taken = before ++ e :: after →
        (s.load : Int) + (before.map OutletLoad.figure).sum + e.figure ≤ s.ceiling) ∧
      (∀ e after, left = e :: after →
        s.ceiling < (s.load : Int) + (taken.map OutletLoad.figure).sum + e.figure) ∧
      s.restorePass.pwb = { s.pwb with
        energised := s.pwb.energised ++
          taken.mapIdx fun i e => { e with moment := s.moments + 1 + i }
        shed := left } ∧
      (∀ e ∈ taken, ∀ p, s.point? e.point = some p → s.restorePass.point? e.point = some { p with
        outlet := .on
        interval := max p.interval e.figure }) ∧
      (∀ m, m ∉ taken.map OutletLoad.point → s.restorePass.point? m = s.point? m) ∧
      OnlyChanges [.moments, .pwb, .spc] s s.restorePass) ∧
  (∀ s : State, (s.pwb.demands = [] → s.settle = s.restorePass) ∧
    (s.settle.pwb.demands = [] → ∀ e rest, s.settle.pwb.shed = e :: rest →
      s.settle.spare < e.figure)) ∧
  (∀ s before : State,
    (before.pwb.demands ≠ [] ∨ before.ceiling < s.ceiling ∨ s.load < before.load →
      s.settleSince before = s.settle) ∧
    (before.pwb.demands = [] → s.pwb.demands = [] → s.ceiling ≤ before.ceiling →
      before.load ≤ s.load → s.settleSince before = s) ∧
    (s.pwb.demands = [] → s.pwb.shed = [] → s.settleSince before = s ∧ s.settle = s)) ∧
  (∀ (d : Demand) (rest : List Demand) (s : State), s.pwb.demands = d :: rest →
    let fits : Prop := (d.need : Int) ≤ s.ceiling - s.load ∧
      (d.kind = .pump → (d.need : Int) ≤ s.ownCeiling - s.pumpLoads)
    (fits → ∃ t, HeadServed d rest s t ∧ s.settle = t.settle) ∧
    (¬ fits →
      let waits : Prop := s.pwb.collection.isSome = true ∨
        ∃ l ∈ s.pwb.loans, l.lent = true ∧ l.state = .recalled ∧ l.partner ∈ d.recalls
      let noneOut : Prop := ∀ l ∈ s.pwb.loans, mayRecall l = false
      let beyondOwn : Prop := d.kind = .pump ∧ s.ownCeiling - s.pumpLoads < (d.need : Int)
      let short : Nat := (d.need - (s.ceiling - s.load)).toNat
      let amount : Nat := max 4 ((short + 3) / 4 * 4)
      let barred : Prop := 1023 < s.settings.baseShare +
          ((s.pwb.loans.filter fun l => !l.lent).map Loan.amount).sum + amount ∨
        16 ≤ s.pwb.loans.length ∨ d.asked = true
      let fails (c : FailCause) (asking : Bool) : Prop :=
        ∃ t, HeadFailed d c asking rest s t ∧ s.settle = t.settle
      (waits → s.settle = s) ∧
      (¬ waits → ¬ noneOut → s.pwb.loans.Pairwise (fun a b => a.lent = b.lent → a.partner ≠ b.partner) →
        HeadRecalls d rest (max short (if d.kind = .pump
          then (d.need - (s.ownCeiling - s.pumpLoads)).toNat else 0)) s s.settle) ∧
      (¬ waits → noneOut → beyondOwn → fails .budget false) ∧
      (¬ waits → noneOut → ¬ beyondOwn → s.lif.state ≠ .onLine → fails .noLine true) ∧
      (¬ waits → noneOut → ¬ beyondOwn → s.lif.state = .onLine → barred → fails .budget true) ∧
      (¬ waits → noneOut → ¬ beyondOwn → s.lif.state = .onLine → ¬ barred →
        HeadAsks d rest amount s s.settle)))

/-- A LOAN ASK is answered with one offer, pledged at once, of the least of three amounts in steps of 4 A
(R53, R64); a TAKE within it makes the loan ACTIVE, any other is void (R65); a DECLINE, the offer's
failed report and the pledge deadline end the pledge or the addition (R64, R66). After each C rises or
falls and PWB goes on where it rose.
The model's choices in it: log 2, 6, 14. -/
def Obligations.LendingPledgesAndTakes : Prop :=
  (∀ (src : RxSource) (f : Frame) (note : Option Nat) (s u : State), s.powered = true →
    s.takeRx 4 src = some (f, note, u) →
    let ask : Nat := f.num 0 2
    let amount : Nat := (min (ask : Int)
      (min (s.ceiling - s.load - s.settings.keepMargin) (s.ownCeiling - s.pumpLoads))).toNat / 4 * 4
    let deadline : Nat := s.elapsed + s.settings.pledgeTimeout * 1000000
    let out (l : Loan) : Prop := l.lent = true ∧ l.partner = f.sender
    let silent : Prop := f.sender = s.me ∨ f.sender = 0 ∨ s.pwb.collection.isSome = true ∨
      (∃ l ∈ s.pwb.loans, l.lent = false ∧ l.partner = f.sender) ∨ amount < 4
    (silent → exec (.loanAskFrame src) s = .next u) ∧
    (¬ silent → (∀ l ∈ s.pwb.loans, ¬ out l) → 16 ≤ s.pwb.loans.length →
      exec (.loanAskFrame src) s = .next u) ∧
    (¬ silent → (∀ l ∈ s.pwb.loans, ¬ out l) → s.pwb.loans.length < 16 →
      ∃ (t : State) (id : Nat), exec (.loanAskFrame src) s = .next t ∧
        t.pwb = { s.pwb with
          loans := s.pwb.loans ++
            [⟨f.sender, true, amount, .pledged, id, none, some deadline, some s.lif.serial⟩]
          pledgeId := id } ∧
        1 ≤ id ∧ id ≤ 255 ∧ (∀ l ∈ s.pwb.loans, l.lent = true → l.pledge ≠ id) ∧
        t.ceiling = s.ceiling - amount ∧ t.ownCeiling = s.ownCeiling - amount ∧
        (s.lif.state = .onLine → s.lif.tx.length < 12 → ∃ x ∈ t.lif.tx, x.serial = s.lif.serial ∧
          x.frame = loanOfferFrame s.me f.sender (f.keyField 0 8) amount id) ∧
        OnlyChanges [.pnp, .lif, .pwb] s t) ∧
    (∀ before l after, s.pwb.loans = before ++ l :: after → (∀ x ∈ before, ¬ out x) → out l →
      ¬ silent →
      (l.state ≠ .active ∨ l.addition.isSome = true → exec (.loanAskFrame src) s = .next u) ∧
      (l.state = .active → l.addition = none → ∃ t, exec (.loanAskFrame src) s = .next t ∧
        t.pwb = { s.pwb with loans := s.pwb.loans.map fun x =>
          if x.lent = true ∧ x.partner = f.sender then { x with
            addition := some amount
            deadline := some deadline
            offerFrame := some s.lif.serial } else x } ∧
        (s.lif.state = .onLine → s.lif.tx.length < 12 → ∃ x ∈ t.lif.tx, x.serial = s.lif.serial ∧
          x.frame = loanOfferFrame s.me f.sender (f.keyField 0 8) amount l.pledge) ∧
        OnlyChanges [.pnp, .lif, .pwb] s t))) ∧
  (∀ (src : RxSource) (f : Frame) (note : Option Nat) (s u : State), s.powered = true →
    s.takeRx 6 src = some (f, note, u) →
    let pledge : Nat := f.keyField 5 8
    let taken : Nat := f.num 0 2
    let out (l : Loan) : Prop := l.lent = true ∧ l.partner = f.sender
    let voided : Prop := exec (.loanTakeFrame src) s = .next (State.settleSince (State.setFlag .loanVoid
      (State.queueFrame (loanVoidFrame s.me f.sender pledge) { u with
        pwb := { s.pwb with loans := s.pwb.loans.filter fun l =>
          !(l.lent && l.partner == f.sender && l.pledge == pledge) } })) u)
    ((∀ l ∈ s.pwb.loans, out l → l.pledge ≠ pledge) → voided) ∧
    (∀ before l after, s.pwb.loans = before ++ l :: after →
      (∀ x ∈ before, ¬ (out x ∧ x.pledge = pledge)) → out l → l.pledge = pledge →
      (l.state = .pledged → 4 ≤ taken → taken ≤ l.amount →
        exec (.loanTakeFrame src) s = .next (State.settleSince { u with
          pwb := { s.pwb with loans := s.pwb.loans.map fun x =>
            if x.lent = true ∧ x.partner = f.sender then { x with
              state := .active
              amount := taken
              deadline := none
              offerFrame := none } else x } } u)) ∧
      (l.state = .active → 4 ≤ taken → (∃ a, l.addition = some a ∧ taken ≤ a) →
        exec (.loanTakeFrame src) s = .next (State.settleSince { u with
          pwb := { s.pwb with loans := s.pwb.loans.map fun x =>
            if x.lent = true ∧ x.partner = f.sender then { x with
              amount := x.amount + taken
              addition := none
              deadline := none
              offerFrame := none } else x } } u)) ∧
      (taken < 4 ∨ (l.state = .pledged ∧ l.amount < taken) ∨ l.state = .recalled ∨
        (l.state = .active ∧ ∀ a, l.addition = some a → a < taken) → voided))) ∧
  (let ended (s : State) (l : Loan) : State :=
    if l.state = .pledged then State.settle { s with
      pwb := { s.pwb with loans := s.pwb.loans.filter fun x => !(x.lent && x.partner == l.partner) } }
    else if l.addition.isSome = true then State.settle { s with
      pwb := { s.pwb with loans := s.pwb.loans.map fun x =>
        if x.lent = true ∧ x.partner = l.partner then { x with
          addition := none
          deadline := none
          offerFrame := none } else x } }
    else s
   (∀ (src : RxSource) (f : Frame) (note : Option Nat) (s u : State), s.powered = true →
    s.takeRx 7 src = some (f, note, u) →
    (s.loan? true f.sender (f.keyField 5 8) = none → exec (.loanDeclineFrame src) s = .next u) ∧
    (∀ l, s.loan? true f.sender (f.keyField 5 8) = some l →
      exec (.loanDeclineFrame src) s = .next (ended u l))) ∧
   (∀ (rep : Report) (rest : List Report) (s : State), s.powered = true →
    takeFirst (fun x => x.frame.kind == 5) s.lif.reports = some (rep, rest) →
    let v : State := { s with lif := { s.lif with reports := rest } }
    (rep.sent = true → exec .loanOfferReport s = .next v) ∧
    (rep.sent = false → ∀ l, s.pwb.loans.find? (fun l => l.lent && l.offerFrame == some rep.serial) =
      some l → exec .loanOfferReport s = .next (ended v l))) ∧
   (∀ (partner d : Nat) (l : Loan) (s : State), s.powered = true →
    s.pwb.loans.find? (fun l => l.lent && l.partner == partner && l.state != .recalled) = some l →
    l.deadline = some d → exec (.pledgeDeadline partner) s = .next (ended (s.advanceTo d) l)))

/-- A LOAN VOID ends the IN record (R67); a RECALL ends it, sheds what no longer fits and is answered with
a RETURN of the amount, or of 0 with no such record (R68); a RETURN ends the OUT record unless it is
PLEDGED, and the recall deadline ends it with a LOAN VOID and RECALL LAPSED (R69).
The model's choices in it: log 2, 14. -/
def Obligations.VoidsRecallsAndReturns : Prop :=
  (∀ (src : RxSource) (f : Frame) (note : Option Nat) (s u : State), s.powered = true →
    let pledge : Nat := f.keyField 5 8
    let without (s : State) (lent : Bool) : State := { s with
      pwb := { s.pwb with loans := s.pwb.loans.filter fun l =>
        !(l.lent == lent && l.partner == f.sender && l.pledge == pledge) } }
    (s.takeRx 8 src = some (f, note, u) →
      (s.loan? false f.sender pledge = none → exec (.loanVoidFrame src) s = .next u) ∧
      (∀ l, s.loan? false f.sender pledge = some l → exec (.loanVoidFrame src) s =
        .next (State.setFlag .loanVoid (if (without u false).ceiling < s.load
          then (without u false).shedPass.settleSince (without u false) else without u false)))) ∧
    (s.takeRx 2 src = some (f, note, u) →
      (s.loan? false f.sender pledge = none → exec (.loanRecallFrame src) s =
        .next (u.queueFrame (loanReturnFrame s.me f.sender pledge 0))) ∧
      (∀ l, s.loan? false f.sender pledge = some l → exec (.loanRecallFrame src) s =
        .next (State.settleSince (State.queueFrame (loanReturnFrame s.me f.sender pledge l.amount)
          (if (without u false).ceiling < s.load then (without u false).shedPass
            else without u false)) u))) ∧
    (s.takeRx 3 src = some (f, note, u) →
      (s.loan? true f.sender pledge = none → exec (.loanReturnFrame src) s = .next u) ∧
      (∀ l, s.loan? true f.sender pledge = some l →
        (l.state = .pledged → exec (.loanReturnFrame src) s = .next u) ∧
        (l.state ≠ .pledged → exec (.loanReturnFrame src) s = .next (without u true).settle)))) ∧
  (∀ (partner d : Nat) (l : Loan) (s : State), s.powered = true →
    s.pwb.loans.find? (fun l => l.lent && l.partner == partner && l.state == .recalled) = some l →
    l.deadline = some d →
    exec (.recallDeadline partner) s = .next (State.settle (State.setFlag .recallLapsed
      (State.queueFrame (loanVoidFrame s.me partner l.pledge) { s.advanceTo d with
        pwb := { s.pwb with loans := s.pwb.loans.filter fun x =>
          !(x.lent && x.partner == partner) } }))))

/-- The ask's report starts the 300 ms of its collection, or fails the head that asked with ASK SHORT
(R61); an offer of the ask is collected once, any other declined (R61); at the close the stale IN
records end, and the head takes of the usable offers in arrival order exactly what it asked, the others
declined, or all are declined (R62); a failed TAKE is undone (R63).
The model's choices in it: log 2, 6, 14, 41, 61. -/
def Obligations.AskingCollectsAndTakes : Prop :=
  (∀ (rep : Report) (rest : List Report) (c : Collection) (s : State), s.powered = true →
    takeFirst (fun x => x.frame.kind == 4) s.lif.reports = some (rep, rest) →
    s.pwb.collection = some c → c.frame = rep.serial →
    let v : State := { s with lif := { s.lif with reports := rest } }
    (rep.sent = true → exec .loanAskReport s = .next { v with pwb := { s.pwb with
      collection := some { c with closeAt := some (s.elapsed + 300000) } } }) ∧
    (rep.sent = false → ∀ d more, s.pwb.demands = d :: more → d.id = c.demand →
      exec .loanAskReport s = .next (State.settle (State.failHead d .budget true
        { v with pwb := { s.pwb with collection := none } })))) ∧
  (∀ (src : RxSource) (f : Frame) (note : Option Nat) (s u : State), s.powered = true →
    s.takeRx 5 src = some (f, note, u) →
    let o : Offer := ⟨f.sender, f.num 0 2, f.num 2 1⟩
    (∀ c, s.pwb.collection = some c → c.seq = f.keyField 5 8 →
      ((∃ x ∈ c.offers, x.lender = f.sender) → exec (.loanOfferFrame src) s = .next u) ∧
      ((∀ x ∈ c.offers, x.lender ≠ f.sender) → exec (.loanOfferFrame src) s = .next { u with
        pwb := { s.pwb with collection := some { c with offers := c.offers ++ [o] } } })) ∧
    ((∀ c, s.pwb.collection = some c → c.seq ≠ f.keyField 5 8) → exec (.loanOfferFrame src) s =
      .next (u.queueFrame (loanDeclineFrame s.me f.sender o.pledge)))) ∧
  (∀ (ask : Nat) (offers : List Offer), ask ≤ (offers.map Offer.amount).sum →
    ((takenOffers ask offers).map (·.2)).sum = ask ∧
    (takenOffers ask offers).map (·.1) <+: offers ∧ ∀ x ∈ takenOffers ask offers, x.2 ≤ x.1.amount) ∧
  (∀ (c : Collection) (d : Demand) (more : List Demand) (o : Offer) (k : Nat) (s : State),
    s.powered = true → s.pwb.collection = some c → c.closeAt = some k → s.pwb.demands = d :: more →
    d.id = c.demand → c.offers = [o] → (s.load : Int) ≤ s.ceiling → s.pwb.loans.length < 16 →
    (∀ l ∈ s.pwb.loans, l.lent = false → l.partner ≠ o.lender) → 0 < c.amount →
    let v : State := { s.advanceTo k with pwb := { s.pwb with collection := none } }
    (c.amount ≤ o.amount →
      let w : State := State.queueFrame (loanTakeFrame s.me o.lender o.pledge c.amount) { v with
        pwb := { s.pwb with
          collection := none
          loans := s.pwb.loans ++ [⟨o.lender, false, c.amount, .active, o.pledge, none, none, none⟩] } }
      exec .collectionClose s = .next
        (if w.fits d = true then w.settle else (w.failHead d .budget false).settle)) ∧
    (o.amount < c.amount → exec .collectionClose s = .next
      (State.settle (State.failHead d .budget true
        (v.queueFrame (loanDeclineFrame s.me o.lender o.pledge)))))) ∧
  (∀ (c : Collection) (k : Nat) (s : State), s.powered = true → s.pwb.collection = some c →
    c.closeAt = some k → (c.offers.map Offer.lender).Nodup →
    s.pwb.loans.Pairwise (fun a b => a.lent = b.lent → a.partner ≠ b.partner) →
    let stale (l : Loan) : Bool := !l.lent &&
      c.offers.any fun o => o.lender == l.partner && o.pledge != l.pledge
    let v : State := { s.advanceTo k with pwb := { s.pwb with
      collection := none
      loans := s.pwb.loans.filter fun l => !stale l } }
    let short : Bool := decide (v.ceiling < v.load)
    let w : State := if short = true then v.shedPass else v
    let known (o : Offer) : Bool := w.pwb.loans.any fun l =>
      !l.lent && l.partner == o.lender && l.pledge == o.pledge
    let placed : List Offer := (c.offers.filter fun o => !known o).take (16 - w.pwb.loans.length)
    let usable : List Offer := c.offers.filter fun o => known o || placed.contains o
    let asks (d : Demand) : Prop := d.id = c.demand
    ((∀ d more, w.pwb.demands = d :: more → ¬ asks d) → ∃ x, Declined c.offers w x ∧
      exec .collectionClose s =
        .next (if short = true ∨ w.pwb.demands ≠ [] then x.settle else x)) ∧
    (∀ d more, w.pwb.demands = d :: more → asks d →
      ((usable.map Offer.amount).sum < c.amount → ∃ x, Declined c.offers w x ∧
        exec .collectionClose s = .next (x.failHead d .budget true).settle) ∧
      (c.amount ≤ (usable.map Offer.amount).sum → ∃ (taken : List (Offer × Nat)) (x : State),
        taken.map Prod.fst <+: usable ∧ (taken.map Prod.snd).sum = c.amount ∧
        (∀ before y after, taken = before ++ y :: after → 0 < y.1.amount → 0 < y.2 ∧
          y.2 ≤ y.1.amount ∧ (after ≠ [] → y.2 = y.1.amount)) ∧
        x.pwb = { w.pwb with
          loans :=
            (w.pwb.loans.map fun l =>
              match taken.find? fun y => !l.lent && l.partner == y.1.lender && l.pledge == y.1.pledge with
              | some y => { l with amount := l.amount + y.2 }
              | none => l) ++
            (taken.filter fun y => !known y.1).map fun y =>
              Loan.mk y.1.lender false y.2 .active y.1.pledge none none none } ∧
        x.ceiling = w.ceiling + c.amount ∧
        (s.lif.state = .onLine → s.lif.tx.length + c.offers.length ≤ 12 → ∀ o ∈ c.offers,
          (∀ y ∈ taken, y.1 = o → ∃ f ∈ x.lif.tx,
            f.frame = loanTakeFrame s.me o.lender o.pledge y.2) ∧
          ((∀ y ∈ taken, y.1 ≠ o) → ∃ f ∈ x.lif.tx,
            f.frame = loanDeclineFrame s.me o.lender o.pledge)) ∧
        OnlyChanges [.pnp, .lif, .pwb] w x ∧
        exec .collectionClose s = .next
          (if x.fits d = true then x.settle else (x.failHead d .budget false).settle)))) ∧
  (∀ (rep : Report) (rest : List Report) (l : Loan) (s : State), s.powered = true →
    takeFirst (fun x => x.frame.kind == 6) s.lif.reports = some (rep, rest) →
    let lender : Nat := rep.frame.keyField 0 5
    let pledge : Nat := rep.frame.keyField 5 8
    let taken : Nat := rep.frame.num 0 2
    let v : State := { s with lif := { s.lif with reports := rest } }
    (rep.sent = true → exec .loanTakeReport s = .next v) ∧
    (rep.sent = false → s.loan? false lender pledge = some l →
      (l.amount ≤ taken → exec .loanTakeReport s = .next (State.ceilingFell { v with
        pwb := { s.pwb with loans := s.pwb.loans.filter fun x =>
          !(!x.lent && x.partner == lender && x.pledge == pledge) } })) ∧
      (taken < l.amount → exec .loanTakeReport s = .next (State.ceilingFell { v with
        pwb := { s.pwb with loans := s.pwb.loans.map fun x =>
          if x.lent = false ∧ x.partner = lender then { x with amount := x.amount - taken }
          else x } }))))

/-! ### Service points (04) -/

/-- SPC takes OCC's notices: an arrival is charged at its point and draws by its account and post, or waits
(R78); a departure switches the outlet off, shuts the tap and takes the moment of entry for the final-reading
mark, or ends the wait (R79); barring holds the outlet off and leaving BARRED brings it back, for an ALONGSIDE
occupancy charged there alone (R37, R80). An outlet that goes off leaves PWB's lists, its demand is withdrawn
and a raise of it ends BUDGET (R56, R75, R98), and PWB goes on as the fall of G or the demand's leaving calls
for (R55, R57: PassesAndTheHeadDemand). Whether PWB serves, queues or refuses a demand is R56 and R57.
The model's choices in it: log 5, 13, 16, 43, 64, 65, 69. -/
def Obligations.NoticesActOnOutletAndTap : Prop :=
  ∀ (k : NoticeKind) (n q : Nat) (m : FinalMark) (rest : List Notice) (r : Occupancy) (p : Point) (s : State),
    s.powered = true → s.lif.state ≠ .unconfigured →
    takeFirst (fun x => x.occ == n) s.occ.notices = some (Notice.mk k n m, rest) →
    s.occ? n = some r → s.berthPoint r.berth = some q → s.point? q = some p →
    let u : State := { s with occ := { s.occ with notices := rest } }
    let tapped (x : Point) : Point :=
      x.setTap (p.tapFitted && (match r.profile with | some y => y.tapOpen | none => false))
    let offered (x : Point) (t : State) : Prop := ∀ y : Profile, r.profile = some y →
      (∀ d ∈ s.pwb.demands, d.kind = .pump ∨ d.source ≠ q) → Offered q x y s t
    let leaves (o : OutletState) (shut : Point → Point) (t : State) : Prop :=
      (∃ w, OutletsOut [q] o u w ∧ t = (w.settleSince u).modPoint q shut) ∧
      t.point? q = some (shut { p with
        outlet := o
        raisePending := none
        raiseLast := if p.raisePending.isSome = true then .budget else p.raiseLast })
    (k = .alongside →
      (∀ o, p.charging = some o → o ≠ n → ∃ t, exec (.alongsideNotice n) s = .next t ∧
        t.point? q = some { p with
          arrivals := if n ∈ p.arrivals then p.arrivals else p.arrivals ++ [n] } ∧
        t.occ = u.occ ∧ t.spc.links = s.spc.links ∧ OnlyChanges [.occ, .spc] s t) ∧
      (p.charging = none ∨ p.charging = some n → r.state = .alongside →
        ∃ t, exec (.alongsideNotice n) s = .next t ∧ t.occ = u.occ ∧
          t.link? n = some ((s.link? n).getD (Link.mk n q 0 0 0 0)) ∧
          (r.account.state = .barred → t.point? q = some { p with
            charging := some n
            outlet := .heldOff } ∧ OnlyChanges [.occ, .spc] s t) ∧
          (r.account.state ≠ .barred → s.postDown q = true → t.point? q = some (tapped { p with
            charging := some n
            outlet := .faultOff }) ∧ OnlyChanges [.occ, .spc] s t) ∧
          (r.account.state ≠ .barred → s.postDown q = false →
            offered { p with charging := some n } t))) ∧
    (k = .departing →
      (p.charging = some n → ∃ t, exec (.departingNotice n) s = .next t ∧
        leaves .off (fun x => { x with
          tapOpen := false
          finalMark := some (x.finalMark.getD m) }) t) ∧
      (p.charging ≠ some n → n ∈ p.arrivals → r.closureDue = none →
        ∃ t, exec (.departingNotice n) s = .next t ∧
          t.point? q = some { p with
            arrivals := p.arrivals.filter (fun o => o != n)
            retained := p.retained.filter (fun x => x.occ != n) } ∧
          (r.holds ≠ [] → t.occ? n = some { r with awaiting := false }) ∧
          (r.state = .departing → r.holds = [] → s.occ.closures.length < 8 → t.occ? n = none ∧
            t.occ.closures.length = s.occ.closures.length + 1 ∧ t.hasFlag .closureAdded = true) ∧
          OnlyChanges [.pnp, .occ, .spc] s t) ∧
      (p.charging ≠ some n → n ∉ p.arrivals → exec (.departingNotice n) s = .next u)) ∧
    (k = .barred →
      let draws : Prop := p.charging = some n ∧ r.state = .alongside
      let queued : Prop := p.outlet = .off ∧ s.demandQueued q = true
      (draws → p.outlet = .on ∨ p.outlet = .shed ∨ queued →
        ∃ t, exec (.barredNotice n) s = .next t ∧ leaves .heldOff (fun x => { x with tapOpen := false }) t) ∧
      (draws → p.outlet ≠ .on → p.outlet ≠ .shed → ¬ queued →
        ∃ t, exec (.barredNotice n) s = .next t ∧ t.occ = u.occ ∧
          t.point? q = some { p with
            outlet := if p.outlet = .off then .heldOff else p.outlet
            tapOpen := false } ∧ OnlyChanges [.occ, .spc] s t) ∧
      (¬ draws → exec (.barredNotice n) s = .next u)) ∧
    (k = .unbarred →
      let draws : Prop := p.charging = some n ∧ r.state = .alongside ∧ r.account.state ≠ .barred
      (draws → ∃ t, exec (.unbarredNotice n) s = .next t ∧ t.occ = u.occ ∧
        (p.outlet ≠ .heldOff → t.point? q = some (tapped p) ∧ OnlyChanges [.occ, .spc] s t) ∧
        (p.outlet = .heldOff → s.postDown q = true →
          t.point? q = some (tapped { p with outlet := .faultOff }) ∧ OnlyChanges [.occ, .spc] s t) ∧
        (p.outlet = .heldOff → s.postDown q = false → offered p t)) ∧
      (¬ draws → exec (.unbarredNotice n) s = .next u))

/-- A poll cycle polls each configured post once, in post-number order, with the commands as they stand,
and in UNCONFIGURED all sixteen with every side off (R82). A poll ends at its report or 50 ms on; a bad
one raises the bad count, the fifth makes a GOOD post FAULT, and at the end of the fault grace the post
is DOWN with its outlets that were ON, SHED or had a demand queued FAULT-OFF, PWB going on once both are out
(R83, R84, R85, R75); the next poll then goes to the next post of the cycle
(R82). A report out of time changes nothing (R83). The bytes received within the 50 ms are discarded up to
a report mark and spell the report that ends the poll, or leave it to time out (R212).
The model's choices in it: log 2, 13, 18, 19, 59. -/
def Obligations.PollsAndPostFaults : Prop :=
  (∀ s : State, s.powered = true → s.spc.poll = none → s.spc.toPoll = [] →
    let v : State := s.advanceTo s.spc.nextCycle
    let polled (n : Nat) (r : List Nat) (a b : Byte) (off : Bool) : Prop :=
      exec .pollCycleStart s = .next { v with
        moments := s.moments + 1
        spc := { s.spc with
          nextCycle := s.spc.nextCycle + 2000000
          toPoll := r
          poll := some (OpenPoll.mk n v.elapsed (s.moments + 1) a b
            (s.sideTripped (2 * n - 1)) (s.sideTripped (2 * n)) off) } }
    (s.lif.state ≠ .unconfigured → s.configuredPosts = [] →
      exec .pollCycleStart s = .next { v with
        spc := { s.spc with nextCycle := s.spc.nextCycle + 2000000 } }) ∧
    (s.lif.state ≠ .unconfigured → ∀ n r, s.configuredPosts = n :: r →
      polled n r (s.sideCommand (2 * n - 1)) (s.sideCommand (2 * n)) false) ∧
    (s.lif.state = .unconfigured → polled 1 [2, 3, 4, 5, 6, 7, 8, 9, 10, 11, 12, 13, 14, 15, 16] 0 0 true)) ∧
  (∀ s : State, (s.spc.toPoll = [] → s.nextPoll = { s with spc := { s.spc with poll := none } }) ∧
    (∀ n r, s.spc.toPoll = n :: r →
      let off : Bool := decide (s.lif.state = .unconfigured)
      s.nextPoll = { s with
        moments := s.moments + 1
        spc := { s.spc with
          toPoll := r
          poll := some (OpenPoll.mk n s.elapsed (s.moments + 1)
            (if off = true then 0 else s.sideCommand (2 * n - 1))
            (if off = true then 0 else s.sideCommand (2 * n))
            (s.sideTripped (2 * n - 1)) (s.sideTripped (2 * n)) off) } })) ∧
  ((∀ (noise more : List Byte) (rep : PostReport), 0x5A#8 ∉ noise →
      decodePoll (noise ++ reportBytes rep ++ more) = .postReport rep) ∧
    (∀ bytes : List Byte, (∀ before after, bytes = before ++ 0x5A#8 :: after → 0x5A#8 ∉ before →
      after.length < 19) → decodePoll bytes = .pollTimeout)) ∧
  (∀ s : State, s.configuredPosts.Pairwise (· < ·) ∧
    ∀ n, n ∈ s.configuredPosts ↔ 1 ≤ n ∧ n ≤ 16 ∧ ∃ p ∈ s.spc.points, (p.number + 1) / 2 = n) ∧
  (∀ (n : Nat) (s : State), (s.point? n = none → s.sideCommand n = 0) ∧
    (∀ (p : Point) (r : Occupancy) (y : Profile), s.point? n = some p → s.charged n = some r →
      r.profile = some y → y.rating ≤ 3 →
      (s.sideCommand n).toNat = (if p.outlet = .on then 1 else 0) + y.rating * 2 +
        (if y.three = true then 8 else 0) + (if p.tapOpen = true then 16 else 0))) ∧
  (let bad (n : Nat) (q : Post) (s : State) : State :=
    if q.state = .good ∧ 4 ≤ q.bad then State.alarm .postFault n 0 (State.setFlag .postFault
      (s.modPost n fun x => { x with
        state := .fault
        bad := 5
        faultStart := some s.elapsed }))
    else s.modPost n fun x => { x with bad := min 5 (q.bad + 1) }
   (∀ (rep : PostReport) (o : OpenPoll) (q : Post) (s : State), s.powered = true →
    s.spc.poll = some o → s.post? o.post = some q →
    (s.elapsed ≤ o.sentAt + 50000 → o.allOff = true → exec (.postReport rep) s = .next s.nextPoll) ∧
    (s.elapsed ≤ o.sentAt + 50000 → o.allOff = false →
      (rep.post.toNat ≠ o.post ∨ reportCheckOk rep = false) →
      exec (.postReport rep) s = .next (bad o.post q s).nextPoll) ∧
    (o.sentAt + 50000 < s.elapsed → exec (.postReport rep) s = .next s) ∧
    (let v : State := s.advanceTo (o.sentAt + 50000)
     exec .pollTimeout s = .next (if o.allOff then v.nextPoll else (bad o.post q v).nextPoll)))) ∧
  (∀ (rep : PostReport) (s : State), s.powered = true → s.spc.poll = none →
    exec (.postReport rep) s = .next s ∧ exec .pollTimeout s = .next s) ∧
  (∀ (n k : Nat) (q : Post) (s : State), s.powered = true → s.post? n = some q →
    (q.state ≠ .fault → exec (.faultGraceEnd n) s = .next s) ∧
    (q.state = .fault → q.faultStart = some k →
      let v : State := s.advanceTo (k + s.settings.faultGrace * 1000000)
      let u : State := v.modPost n fun x => { x with state := .down }
      let gone : List Nat := [2 * n - 1, 2 * n].filter fun m => match s.point? m with
        | some p => p.outlet == .on || p.outlet == .shed || (p.outlet == .off && s.demandQueued m)
        | none => false
      ∃ w t, OutletsOut gone .faultOff u w ∧ exec (.faultGraceEnd n) s = .next t ∧
        t = (w.settleSince v).setFlag .outletFaultOff ∧ (∀ m ∈ gone, t.point? m = w.point? m) ∧
        t.post? n = some { q with state := .down }))

/-- A good report is taken side by side in the order of R83: the trip, which takes the outlet from PWB with its
raise and has PWB go on (R92, R75), the energy delta and its
plausibility limit (R87), the water delta (R89), the bases (R86), the final readings (R91, R100) with the
next arrival, the outlet of one retained over a start staying OFF in JOINING (R202); the post is GOOD again, from FAULT or DOWN with each FAULT-OFF outlet at the state its occupancy calls for (R85).
Each delta is charged at the tariff in force, the residue kept (R88), a link's totals wrapping (R77).
The model's choices in it: log 13, 17, 44, 50, 51, 54, 55. -/
def Obligations.GoodReportsMeter : Prop :=
  (∀ (rep : PostReport) (o : OpenPoll) (s : State), s.powered = true → s.spc.poll = some o →
    s.elapsed ≤ o.sentAt + 50000 → o.allOff = false → rep.post.toNat = o.post →
    reportCheckOk rep = true →
    (exec (.postReport rep) s = .next (State.nextPoll (State.postGood o.post
      (State.acceptSide (2 * o.post) rep.energyB.toNat rep.waterB.toNat (rep.trips.getLsbD 1) o.trippedB
        o.moment (State.acceptSide (2 * o.post - 1) rep.energyA.toNat rep.waterA.toNat
          (rep.trips.getLsbD 0) o.trippedA o.moment s))))) ∧
    (∀ (q : Post) (p : Point), s.post? o.post = some q → q.state = .good → 1 ≤ o.post →
      s.point? (2 * o.post - 1) = some p → s.point? (2 * o.post) = none → p.outlet = .off →
      p.energyBase = none → p.waterBase = none → p.finalMark = none → p.retained = [] →
      p.charging.isSome = true ∨ p.arrivals = [] → s.spc.toPoll = [] →
      ∃ t, exec (.postReport rep) s = .next t ∧ t.spc.poll = none ∧
        t.post? o.post = some { q with
          bad := 0
          faultStart := none } ∧
        t.point? (2 * o.post - 1) = some { p with
          energyBase := some rep.energyA.toNat
          waterBase := some rep.waterA.toNat
          lastAccept := some s.elapsed
          lastTime := some s.now
          interval := 0
          tapMark := p.tapOpen } ∧ OnlyChanges [.spc] s t)) ∧
  (∀ (n : Nat) (q : Post) (s : State), s.post? n = some q →
    let v : State := s.modPost n fun x => { x with
      state := .good
      bad := 0
      faultStart := none }
    (q.state = .good → s.postGood n = v) ∧
    (q.state ≠ .good → s.postGood n = State.returnOutlet (State.returnOutlet v (2 * n - 1)) (2 * n))) ∧
  (∀ (n : Nat) (p : Point) (s : State), s.point? n = some p →
    let becomes (o : OutletState) : Prop :=
      s.returnOutlet n = s.modPoint n fun x => { x with outlet := o }
    (p.outlet ≠ .faultOff → s.returnOutlet n = s) ∧
    (p.outlet = .faultOff → (∀ r : Occupancy, s.charged n = some r → r.state ≠ .alongside) →
      becomes .off) ∧
    (∀ r : Occupancy, p.outlet = .faultOff → s.charged n = some r → r.state = .alongside →
      (r.account.state = .barred → becomes .heldOff) ∧
      (∀ y : Profile, r.account.state ≠ .barred → r.profile = some y → s.postDown n = false →
        (∀ d ∈ s.pwb.demands, d.kind = .pump ∨ d.source ≠ n) →
        (s.pwb.demands = [] → s.pwb.shed = [] → (y.figure : Int) ≤ s.ceiling - s.load →
          (s.returnOutlet n).point? n = some { p with
            outlet := .on
            interval := max p.interval y.figure } ∧
          (s.returnOutlet n).pwb = { s.pwb with
            energised := s.pwb.energised ++ [⟨n, y.figure, s.moments + 2⟩] } ∧
          OnlyChanges [.moments, .pwb, .spc] s (s.returnOutlet n)) ∧
        (s.pwb.demands = [] → s.returnOutlet n = (s.withEnergise n y.figure).settle) ∧
        (s.pwb.demands ≠ [] → s.pwb.demands.length < 8 →
          (s.returnOutlet n).point? n = some { p with outlet := .off } ∧
          (s.returnOutlet n).pwb = { s.pwb with demands := s.pwb.demands ++
            [Demand.mk (s.moments + 1) .energise n y.figure false []] } ∧
          OnlyChanges [.moments, .pwb, .spc] s (s.returnOutlet n)) ∧
        (8 ≤ s.pwb.demands.length →
          (s.returnOutlet n).point? n = some { p with outlet := .shed } ∧
          (s.returnOutlet n).pwb = { s.pwb with
            shed := insertMoment ⟨n, y.figure, s.moments + 1⟩ s.pwb.shed } ∧
          (s.returnOutlet n).pnp = s.pnp.flagged Flag.outletShed.bit ∧
          OnlyChanges [.moments, .pnp, .pwb, .spc] s (s.returnOutlet n))))) ∧
  (∀ (n energy water m : Nat) (trip was : Bool) (s : State),
    (s.point? n = none → State.acceptSide n energy water trip was m s = s) ∧
    ((s.point? n).isSome = true → State.acceptSide n energy water trip was m s =
      State.takeFinal n m (State.takeRetained n m (State.recordBases n energy water
        (State.meterWater n water (State.meterEnergy n energy (State.takeTrip n trip was s))))))) ∧
  (∀ (n counter base : Nat) (p : Point) (s : State), s.point? n = some p → p.energyBase = some base →
    base < 4294967296 → counter < 4294967296 →
    let d : Nat := if base ≤ counter then counter - base else counter + 4294967296 - base
    ∀ a, p.lastAccept = some a →
      let e : Nat := (s.elapsed - a) / 1000
      let within : Prop := ∃ c : Nat, d ≤ c + 10 ∧ (c - 1) * 3600000 < p.interval * 250 * e * 2
      (d = 0 → s.meterEnergy n counter = s) ∧
      (0 < d → p.interval = 0 → s.meterEnergy n counter = s.setFlag .implausible) ∧
      (10 < d → ¬ within → s.meterEnergy n counter = s.setFlag .implausible) ∧
      (∀ (occ : Nat) (l : Link), 0 < d → 0 < p.interval → d ≤ 10 ∨ within →
        p.charging = some occ → s.link? occ = some l →
        let rate : Nat := if s.sch.tariffSet = 1 then s.spc.tariff1.energy else s.spc.tariff2.energy
        let u : Nat := l.energyRes + d * rate
        ∃ v : State, s.meterEnergy n counter = v.debit occ (u / 1000) ∧
          v.link? occ = some { l with
            energy := (l.energy + d) % 4294967296
            energyRes := u % 1000 } ∧
          (∀ m, m ≠ occ → v.link? m = s.link? m) ∧ v.spc.points = s.spc.points ∧
          OnlyChanges [.spc] s v)) ∧
  (∀ (n counter base : Nat) (p : Point) (s : State), s.point? n = some p → p.waterBase = some base →
    base < 4294967296 → counter < 4294967296 →
    let w : Nat := if base ≤ counter then counter - base else counter + 4294967296 - base
    (w = 0 → s.meterWater n counter = s.modPoint n fun x => { x with leakMark := false }) ∧
    (0 < w → p.tapMark = false → s.meterWater n counter =
      if p.leakMark = true then s.setFlag .leak
      else State.alarm .leak n w ((s.setFlag .leak).modPoint n fun x => { x with leakMark := true })) ∧
    (200 < w → p.tapMark = true → s.meterWater n counter = s.setFlag .implausible) ∧
    (∀ (occ : Nat) (l : Link), 0 < w → w ≤ 200 → p.tapMark = true → p.charging = some occ →
      s.link? occ = some l →
      let rate : Nat := if s.sch.tariffSet = 1 then s.spc.tariff1.water else s.spc.tariff2.water
      let u : Nat := l.waterRes + w * rate
      ∃ v : State, s.meterWater n counter = v.debit occ (u / 1000) ∧
        v.link? occ = some { l with
          water := (l.water + w) % 4294967296
          waterRes := u % 1000 } ∧
        (∀ m, m ≠ occ → v.link? m = s.link? m) ∧ v.spc.points = s.spc.points ∧ OnlyChanges [.spc] s v)) ∧
  (∀ (n : Nat) (was : Bool) (p : Point) (s : State), s.point? n = some p →
    (p.outlet = .on →
      let u : State := s.modPoint n fun x => { x with tripAck := false }
      ∃ w, OutletsOut [n] .tripped u w ∧ s.takeTrip n true was = (w.settleSince u).setFlag .trip ∧
        (s.takeTrip n true was).point? n = some { p with
          outlet := .tripped
          tripAck := false
          raisePending := none
          raiseLast := if p.raisePending.isSome = true then .budget else p.raiseLast }) ∧
    (∀ trip, ¬ (p.outlet = .on ∧ trip = true) →
      s.takeTrip n trip true = (s.modPoint n fun x => { x with tripAck := true }) ∧
      s.takeTrip n trip false = s)) ∧
  (∀ (n at_ : Nat) (m : FinalMark) (p : Point) (r : Occupancy) (s : State), s.point? n = some p →
    s.charged n = some r → r.state = .departing → p.finalMark = some m →
    (at_ ≤ m.moment → s.takeFinal n at_ = s) ∧
    (m.moment < at_ → p.arrivals = [] → r.closureDue = none →
      ∃ t, s.takeFinal n at_ = t ∧ t.point? n = some { p with
        finalMark := none
        charging := none
        retained := if r.holds = [] ∧ s.occ.closures.length < 8
          then p.retained.filter (fun x => x.occ != r.number) else p.retained } ∧
        (r.holds ≠ [] → t.occ? r.number = some { r with awaiting := false } ∧
          t.link? r.number = s.link? r.number) ∧
        (r.holds = [] → s.occ.closures.length < 8 → t.occ? r.number = none ∧
          t.link? r.number = none ∧ ∃ c, t.occ.closures = s.occ.closures ++ [c] ∧
            IsClosureOf s r .departed c) ∧
        (r.holds = [] → 8 ≤ s.occ.closures.length → t.hasFlag .closureWaiting = true ∧
          t.occ? r.number = some { r with awaiting := false } ∧
          t.link? r.number = s.link? r.number) ∧
        OnlyChanges [.pnp, .occ, .spc] s t) ∧
    (∀ (o : Nat) (rest : List Nat) (a : Occupancy), m.moment < at_ → p.arrivals = o :: rest →
      r.holds ≠ [] → r.closureDue = none → s.occ? o = some a → o ≠ r.number →
      a.state = .departing ∨ (a.state = .alongside ∧ a.account.state = .barred) →
      ∃ t x, s.takeFinal n at_ = t ∧ t.point? n = some x ∧ x.charging = some o ∧ x.arrivals = rest ∧
        t.occ? r.number = some { r with awaiting := false } ∧ t.occ? o = some a ∧
        t.link? o = some ((s.link? o).getD (Link.mk o n 0 0 0 0)) ∧
        (a.state = .departing → x.outlet = p.outlet ∧
          x.finalMark = some ⟨s.moments + 1, s.now⟩) ∧
        (a.state = .alongside → x.outlet = .heldOff ∧ x.finalMark = none) ∧
        OnlyChanges [.pnp, .moments, .occ, .spc] s t)) ∧
  (∀ (n at_ : Nat) (p : Point) (s : State), s.point? n = some p →
    (p.charging = none → s.takeFinal n at_ = s.nextArrival n) ∧ (p.arrivals = [] → s.nextArrival n = s) ∧
    (∀ (o : Nat) (rest : List Nat) (a : Occupancy) (y : Profile), p.arrivals = o :: rest →
      s.occ? o = some a → a.state = .alongside → a.account.state ≠ .barred → a.profile = some y →
      let x : Point := { p with
        arrivals := rest
        charging := some o }
      (o ∈ s.spc.heldBack → s.lif.state = .joining →
        (s.nextArrival n).point? n = some (x.setTap (p.tapFitted && y.tapOpen)) ∧
        (s.nextArrival n).link? o = some ((s.link? o).getD (Link.mk o n 0 0 0 0)) ∧
        OnlyChanges [.spc] s (s.nextArrival n)) ∧
      (o ∉ s.spc.heldBack ∨ s.lif.state ≠ .joining → s.postDown n = false →
        (∀ d ∈ s.pwb.demands, d.kind = .pump ∨ d.source ≠ n) → Offered n x y s (s.nextArrival n)))) ∧
  (∀ (n : Nat) (s : State), (s.removeOcc n).occ? n = none ∧ (s.removeOcc n).link? n = none ∧
    ∀ p ∈ s.spc.points, ∃ x ∈ (s.removeOcc n).spc.points, x.number = p.number ∧ x.charging ≠ some n ∧
      n ∉ x.arrivals ∧ (p.charging = some n → x.finalMark = none) ∧
      (p.charging ≠ some n → x.charging = p.charging ∧ x.finalMark = p.finalMark)) ∧
  (∀ (n at_ : Nat) (p : Point) (s : State), s.point? n = some p →
    let due : List Nat := (p.retained.filter fun x => decide (x.mark.moment < at_)).map RetainedFinal.occ
    (due = [] → s.takeRetained n at_ = s) ∧
    (∀ (o : Nat) (r : Occupancy), due = [o] → s.occ? o = some r → r.state = .departing →
      r.closureDue = none →
      ∃ t, s.takeRetained n at_ = t ∧ (∃ x, t.point? n = some x ∧
          x.arrivals = p.arrivals.filter (fun y => y != o) ∧
          x.retained = p.retained.filter (fun y => y.occ != o) ∧ x.outlet = p.outlet ∧
          (p.charging ≠ some o → x.charging = p.charging)) ∧
        (r.holds ≠ [] → t.occ? o = some { r with awaiting := false }) ∧
        (r.holds = [] → s.occ.closures.length < 8 → t.occ? o = none ∧
          ∃ c, t.occ.closures = s.occ.closures ++ [c] ∧ IsClosureOf s r .departed c) ∧
        OnlyChanges [.pnp, .occ, .spc] s t))

/-- PROFILE SET is refused at the first cause in order; a raise of an ON outlet is ACCEPTED and its RAISE
queued or served, any other setting is written at once, the outlet's load and tap following (R96, R97,
R98), and no other occupancy changes but one whose own RAISE waits in PWB's queue and now fits (R57). A figure
of an ON outlet that falls lowers G, so PWB examines its head or runs its restore pass (R97, R55, R57:
PassesAndTheHeadDemand). OUTLET RESET takes a TRIPPED outlet whose trip is acknowledged to the state its
occupancy calls for (R93).
The model's choices in it: log 13, 45. -/
def Obligations.ProfileSetAndOutletReset : Prop :=
  (∀ (n g1 g2 g3 : Nat) (s : State), Takes 43 s →
    let refused (c : Cause) : Prop :=
      exec (.profileSet n g1 g2 g3) s = .next { s with pnp := s.pnp.answered 43 (.refused c) }
    (n = 0 ∨ 64 < n → refused .range) ∧
    (1 ≤ n → n ≤ 64 → s.occ? n = none → refused .unknown) ∧
    (∀ r : Occupancy, 1 ≤ n → n ≤ 64 → s.occ? n = some r → s.berthPoint r.berth = none →
      refused .state) ∧
    (∀ (r : Occupancy) (q : Nat) (p : Point) (old : Profile), 1 ≤ n → n ≤ 64 → s.occ? n = some r →
      s.berthPoint r.berth = some q → s.point? q = some p → r.profile = some old → p.maxRating ≤ 3 →
      let v1 : Nat := if g1 = 15 then old.rating else if g1 ≤ p.maxRating then g1 else 15
      let v2 : Nat := if g2 = 15 then (if old.three = true then 1 else 0)
        else if g2 = 0 ∨ (g2 = 1 ∧ p.three = true) then g2 else 15
      let v3 : Nat := if g3 = 15 then (if old.tapOpen = true then 0 else 1)
        else if g3 = 1 ∨ (g3 = 0 ∧ p.tapFitted = true) then g3 else 15
      let valid : Prop := v1 ≠ 15 ∧ v2 ≠ 15 ∧ v3 ≠ 15
      let new : Profile := Profile.mk v1 (v2 == 1) (v3 == 0)
      let own : Prop := ∃ d ∈ s.pwb.demands, d.kind = .energise ∧ d.source = q
      let away : Prop := r.state ≠ .alongside ∨ n ∈ p.arrivals
      let noFunds : Prop := r.account.state = .barred ∨
        (r.account.state = .overdue ∧ old.figure < new.figure)
      let busy : Prop := p.raisePending.isSome = true ∨
        (own ∧ (new.rating ≠ old.rating ∨ new.three ≠ old.three))
      let raise_ : Prop := p.outlet = .on ∧ p.charging = some n ∧ old.figure < new.figure
      (¬ valid → exec (.profileSet n g1 g2 g3) s = .next { s with
        pnp := s.pnp.answered 43 (.refusedWith .range [⟨1, v1⟩, ⟨1, v2⟩, ⟨1, v3⟩]) }) ∧
      (valid → away → refused .state) ∧
      (valid → ¬ away → noFunds → refused .funds) ∧
      (valid → ¬ away → ¬ noFunds → busy → refused .busy) ∧
      (valid → ¬ away → ¬ noFunds → ¬ busy → raise_ →
        (8 ≤ s.pwb.demands.length → refused .busy) ∧
        (s.pwb.demands ≠ [] → s.pwb.demands.length < 8 → ∃ t, exec (.profileSet n g1 g2 g3) s = .next t ∧
          t.pnp = s.pnp.answered 43 (.accepted false []) ∧
          t.point? q = some { p with
            raisePending := some new
            raiseLast := .none } ∧ t.occ = s.occ ∧
          t.pwb = { s.pwb with demands := s.pwb.demands ++
            [Demand.mk (s.moments + 1) .raise q (new.figure - old.figure) false []] } ∧
          OnlyChanges [.moments, .pnp, .pwb, .spc] s t) ∧
        (s.pwb.demands = [] → s.pwb.shed = [] → ((new.figure - old.figure : Nat) : Int) ≤ s.ceiling - s.load →
          ∃ t, exec (.profileSet n g1 g2 g3) s = .next t ∧
            t.pnp.answer.result = .accepted ∧ t.hasFlag .profileDone = true ∧
            t.occ? n = some { r with profile := some new } ∧
            t.point? q = some (Point.setTap { p with
              raisePending := none
              raiseLast := .applied
              interval := max p.interval new.figure } (p.tapFitted && new.tapOpen)) ∧
            t.pwb = { s.pwb with energised := s.pwb.energised.map fun e =>
              if e.point = q then { e with figure := e.figure + (new.figure - old.figure) } else e } ∧
            OnlyChanges [.moments, .pnp, .occ, .pwb, .spc] s t) ∧
        (s.pwb.demands = [] →
          let u : State := (s.takeFrame 43).modPoint q fun x => { x with
            raisePending := some new
            raiseLast := .none }
          let w : State := { u with
            moments := s.moments + 1
            pwb := { s.pwb with demands :=
              [Demand.mk (s.moments + 1) .raise q (new.figure - old.figure) false []] } }
          exec (.profileSet n g1 g2 g3) s = .next { w.settle with
            pnp := w.settle.pnp.answered 43 (.accepted false []) })) ∧
      (valid → ¬ away → ¬ noFunds → ¬ busy → ¬ raise_ → ∃ t, exec (.profileSet n g1 g2 g3) s = .next t ∧
        (∀ m, (∀ d ∈ s.pwb.demands, d.kind = .raise → ∀ x, s.point? d.source = some x →
            x.charging = some m → x.raisePending = none) →
          t.occ? m = if m = n then some { r with profile := some new } else s.occ? m) ∧
        (∀ (m : Nat) (z : Occupancy), m ≠ n → s.occ? m = some z →
          ∃ y, t.occ? m = some { z with profile := y }) ∧
        t.pnp.answer.result = .done ∧
        t.pnp.answer.data = [⟨1, v1⟩, ⟨1, v2⟩, ⟨1, v3⟩, ⟨1, new.figure⟩] ∧
        (p.charging ≠ some n → t.spc = s.spc ∧ t.pwb = s.pwb) ∧
        (p.charging = some n → s.pwb.demands = [] → (p.outlet = .shed ∨ s.pwb.shed = []) →
          t.point? q = some (p.setTap (p.tapFitted && new.tapOpen)) ∧
          t.pwb = { s.pwb with
            energised := if p.outlet = .on then s.pwb.energised.map fun e =>
              if e.point = q then { e with figure := new.figure } else e else s.pwb.energised
            shed := if p.outlet = .shed then s.pwb.shed.map fun e =>
              if e.point = q then { e with figure := new.figure } else e else s.pwb.shed } ∧
          OnlyChanges [.pnp, .occ, .pwb, .spc] s t) ∧
        (p.charging = some n →
          let lower : Prop := p.outlet = .on ∧
            ∃ e, s.pwb.energised.find? (fun e => e.point == q) = some e ∧ new.figure < e.figure
          let w : State := { s.takeFrame 43 with
            occ := { s.occ with records := s.occ.records.map fun z =>
              if z.number = n then { z with profile := some new } else z }
            pwb := { s.pwb with
              energised := if p.outlet = .on then s.pwb.energised.map fun e =>
                if e.point = q then { e with figure := new.figure } else e else s.pwb.energised
              shed := if p.outlet = .shed then s.pwb.shed.map fun e =>
                if e.point = q then { e with figure := new.figure } else e else s.pwb.shed } }
          ∃ v : State, (lower → v = w.settle.followTap q) ∧ (¬ lower → v = w.followTap q) ∧
            t = { v with
              pnp := v.pnp.answered 43 (.done [⟨1, v1⟩, ⟨1, v2⟩, ⟨1, v3⟩, ⟨1, new.figure⟩]) } ∧
            ((∀ d ∈ s.pwb.demands, d.kind = .pump ∨ d.source ≠ q) →
              (p.outlet = .on → ∀ e ∈ s.pwb.shed, e.point ≠ q) →
              (∀ d ∈ s.pwb.demands, d.kind = .raise → ∀ x, s.point? d.source = some x →
                x.charging = some n → x.raisePending = none) →
              t.point? q = some (p.setTap (p.tapFitted && new.tapOpen))))))) ∧
  (∀ (q : Nat) (s : State), Takes 44 s →
    (q = 0 ∨ 32 < q →
      exec (.outletReset q) s = .next { s with pnp := s.pnp.answered 44 (.refused .range) }) ∧
    (1 ≤ q → q ≤ 32 → s.point? q = none →
      exec (.outletReset q) s = .next { s with pnp := s.pnp.answered 44 (.refused .unknown) }) ∧
    (∀ p : Point, 1 ≤ q → q ≤ 32 → s.point? q = some p →
      (¬ (p.outlet = .tripped ∧ p.tripAck = true) →
        exec (.outletReset q) s = .next { s with pnp := s.pnp.answered 44 (.refused .state) }) ∧
      (p.outlet = .tripped → p.tripAck = true → ∃ t, exec (.outletReset q) s = .next t ∧
        t.pnp.answer.result = .done ∧
        (((∀ r, s.charged q = some r → r.state ≠ .alongside) → t.point? q = some { p with outlet := .off } ∧
          OnlyChanges [.pnp, .spc] s t)) ∧
        (∀ r, s.charged q = some r → r.state = .alongside → r.account.state = .barred →
          t.point? q = some { p with outlet := .heldOff } ∧ OnlyChanges [.pnp, .spc] s t) ∧
        (∀ r, s.charged q = some r → r.state = .alongside → r.account.state ≠ .barred →
          s.postDown q = true →
          t.point? q = some { p with outlet := .faultOff } ∧ OnlyChanges [.pnp, .spc] s t) ∧
        (∀ (r : Occupancy) (y : Profile), s.charged q = some r → r.state = .alongside →
          r.account.state ≠ .barred → r.profile = some y → s.postDown q = false →
          s.pwb.demands = [] → s.pwb.shed = [] → (y.figure : Int) ≤ s.ceiling - s.load →
          t.point? q = some { p with
            outlet := .on
            interval := max p.interval y.figure } ∧
          t.pwb = { s.pwb with energised := s.pwb.energised ++ [⟨q, y.figure, s.moments + 2⟩] } ∧
          OnlyChanges [.moments, .pnp, .pwb, .spc] s t) ∧
        (∀ (r : Occupancy) (y : Profile), s.charged q = some r → r.state = .alongside →
          r.account.state ≠ .barred → r.profile = some y → s.postDown q = false →
          (∀ d ∈ s.pwb.demands, d.kind = .pump ∨ d.source ≠ q) →
          let w : State := (s.takeFrame 44).withEnergise q y.figure
          (s.pwb.demands = [] →
            t = { w.settle with pnp := w.settle.pnp.answered 44 (.done []) }) ∧
          (s.pwb.demands ≠ [] → s.pwb.demands.length < 8 →
            t = { w with pnp := s.pnp.answered 44 (.done []) }) ∧
          (8 ≤ s.pwb.demands.length → t.point? q = some { p with outlet := .shed } ∧
            t.pwb = { s.pwb with shed := insertMoment ⟨q, y.figure, s.moments + 1⟩ s.pwb.shed } ∧
            t.hasFlag .outletShed = true ∧ OnlyChanges [.moments, .pnp, .pwb, .spc] s t)))))

/-! ### The fuel dock and the sale journal (05) -/

/-- PUMP AUTHORISE is refused at the first cause in order; else the sale takes the next free sale number
and a journal record, its PUMP demand is served or queued, an ACCOUNT sale asks for its hold, and a PANEL
sale whose load is held is AUTHORISED (R105, R106, R107, R109, R124).
The model's choices in it: log 6, 13, 15. -/
def Obligations.PumpAuthoriseBeginsTheSale : Prop :=
  ∀ (n preset payment card : Nat) (s : State), Takes 48 s →
    let c : Instr := .pumpAuthorise n preset payment card
    let refused (x : Cause) : Prop :=
      exec c s = .next { s with pnp := s.pnp.answered 48 (.refused x) }
    let inRange : Prop := (n = 1 ∨ n = 2) ∧ 100 ≤ preset ∧
      (payment = 2 ∨ (payment = 1 ∧ 1 ≤ card ∧ card ≤ 1099511627775))
    (¬ inRange → refused .range) ∧
    (∀ p : Pump, inRange → s.pump? n = some p →
      (p.config = none → refused .unknown) ∧
      (∀ f : PumpConfig, p.config = some f →
        (s.fdc.emergency = true → refused .state) ∧
        (s.fdc.emergency = false → p.sale.isSome = true → refused .busy) ∧
        (s.fdc.emergency = false → p.sale = none → payment = 1 → s.lif.state ≠ .onLine →
          refused .noLine) ∧
        (s.fdc.emergency = false → p.sale = none → payment = 2 ∨ s.lif.state = .onLine →
          (64 ≤ s.fdc.journal.length → refused .journalFull) ∧
          (s.fdc.journal.length < 64 → 8 ≤ s.pwb.demands.length → refused .busy) ∧
          (s.fdc.journal.length < 64 → s.pwb.demands.length < 8 →
            ∃ (t : State) (k : Nat), exec c s = .next t ∧ k ≤ 65535 ∧
              (∀ r ∈ s.fdc.journal, r.number ≠ k) ∧
              (s.fdc.saleNo ≤ 65535 → (∀ r ∈ s.fdc.journal, r.number ≠ (s.fdc.saleNo + 1) % 65536) →
                k = (s.fdc.saleNo + 1) % 65536) ∧
              t.pnp.answer.result = .accepted ∧ t.pnp.answer.clamped = decide (500000 < preset) ∧
              t.pnp.answer.data = [⟨2, k⟩] ∧ (59 ≤ s.fdc.journal.length → t.hasFlag .journalLow = true) ∧
              (let sale : Sale := Sale.mk .authorising k (if payment = 1 then some card else none)
                (min preset 500000) none .queued 0 0 0 false none none
               let asked : Pump := if payment = 1 then { p with
                  askSeq := (p.askSeq + 1) % 256
                  ask := some ⟨(p.askSeq + 1) % 256, ⟨1, none, s.lif.serial⟩⟩
                  closedAsk := none } else p
               let rec_ : JournalRecord := JournalRecord.mk k false n f.grade (min preset 500000)
                (if payment = 1 then some card else none) none none none 0 f.price none none
                SaleFlags.clear
               let fits : Prop := s.pwb.shed = [] ∧ (f.load : Int) ≤ s.ceiling - s.load ∧
                (f.load : Int) ≤ s.ownCeiling - s.pumpLoads
               (payment = 1 → s.pwb.demands ≠ [] ∨ fits → s.lif.tx.length < 12 → ∃ x ∈ t.lif.tx, x.serial = s.lif.serial ∧
                x.frame = holdAskFrame s.me n ((p.askSeq + 1) % 256) card (min preset 500000)) ∧
               (payment = 2 → s.pwb.demands ≠ [] ∨ fits → t.lif = s.lif) ∧
               (s.pwb.demands ≠ [] →
                t.pump? n = some { asked with
                  sale := some sale
                  last := .pending } ∧
                t.fdc.journal = s.fdc.journal ++ [rec_] ∧ t.fdc.saleNo = k ∧
                t.pwb = { s.pwb with demands := s.pwb.demands ++
                  [Demand.mk (s.moments + 1) .pump n f.load false []] } ∧
                OnlyChanges [.moments, .pnp, .lif, .pwb, .fdc] s t) ∧
               (s.pwb.demands = [] →
                ∃ w, w.pump? n = some { asked with
                  sale := some sale
                  last := .pending } ∧ (∀ m, m ≠ n → w.pump? m = s.pump? m) ∧
                w.fdc.journal = s.fdc.journal ++ [rec_] ∧ w.fdc.saleNo = k ∧
                w.pwb = { s.pwb with demands := [Demand.mk (s.moments + 1) .pump n f.load false []] } ∧
                OnlyChanges [.moments, .pnp, .lif, .pwb, .fdc] s w ∧
                t = { w.settle with
                  pnp := w.settle.pnp.answered 48 (.accepted (decide (500000 < preset)) [⟨2, k⟩]) }) ∧
               (s.pwb.demands = [] → fits →
                t.load = s.load + f.load ∧ t.pumpLoads = s.pumpLoads + f.load ∧
                t.pwb = s.pwb ∧ t.fdc.journal = s.fdc.journal ++ [rec_] ∧
                (payment = 1 → t.pump? n = some { asked with
                  sale := some { sale with load := .held }
                  last := .pending }) ∧
                (payment = 2 → t.hasFlag .authDone = true ∧ t.pump? n = some { asked with
                  sale := some { sale with
                    state := .authorised
                    load := .held
                    timer := some (s.elapsed + f.authTimeout * 1000000) }
                  last := .authorised }) ∧
                OnlyChanges [.moments, .pnp, .lif, .fdc] s t))))))

/-- SUSPEND shuts the valves of a DELIVERING sale and starts its limit (R117), RESUME opens them again
unless the emergency is active (R118), STOP ends an authorisation unused, after which PWB examines its head
or runs its restore pass (R110), or takes a delivery to FINISHING (R115); each is refused RANGE or UNKNOWN for its pump, and IGNORED in any other state.
The model's choices in it: log 6, 14. -/
def Obligations.PumpRequestsActOnTheSale : Prop :=
  (∀ (n code : Nat) (c : Instr) (s : State),
    (c, code) ∈ [(Instr.pumpSuspend n, 49), (.pumpResume n, 50), (.pumpStop n, 51)] → Takes code s →
    (n ≠ 1 ∧ n ≠ 2 → exec c s = .next { s with pnp := s.pnp.answered code (.refused .range) }) ∧
    (∀ p : Pump, s.pump? n = some p →
      (p.config = none → exec c s = .next { s with pnp := s.pnp.answered code (.refused .unknown) }) ∧
      (p.config.isSome = true → p.sale = none →
        exec c s = .next { s with pnp := s.pnp.answered code .ignored }))) ∧
  (∀ (n : Nat) (p : Pump) (f : PumpConfig) (x : Sale) (s : State), s.pump? n = some p →
    p.config = some f → p.sale = some x →
    let only (code : Nat) (r : Reply) (q : Pump) (t : State) : Prop := t.pump? n = some q ∧
      (∀ m, m ≠ n → t.pump? m = s.pump? m) ∧ t.fdc.journal = s.fdc.journal ∧
      t.pnp = s.pnp.answered code r ∧ OnlyChanges [.pnp, .fdc] s t
    (Takes 49 s →
      (x.state = .delivering → ∃ t, exec (.pumpSuspend n) s = .next t ∧ only 49 (.done []) { p with
        main := false
        slow := false
        sale := some { x with
          state := .suspended
          timer := some (s.elapsed + f.suspendLimit * 1000000) } } t) ∧
      (x.state ≠ .delivering → exec (.pumpSuspend n) s =
        .next { s with pnp := s.pnp.answered 49 .ignored })) ∧
    (Takes 50 s →
      (x.state = .suspended → s.fdc.emergency = false → ∃ t, exec (.pumpResume n) s = .next t ∧
        only 50 (.done []) { p with
          slow := true
          main := !x.barred && decide (50 < x.cutoff)
          sale := some { x with
            state := .delivering
            timer := none } } t) ∧
      (x.state ≠ .suspended ∨ s.fdc.emergency = true → exec (.pumpResume n) s =
        .next { s with pnp := s.pnp.answered 50 .ignored })) ∧
    (Takes 51 s →
      (x.state = .authorising ∨ x.state = .authorised →
        ∃ t, EndsUnused n p x (if x.state = .authorising then .refused .cancelled
            else .lapsed .cancelled) (s.takeFrame 51) t ∧
          exec (.pumpStop n) s = .next { t with pnp := t.pnp.answered 51 (.done []) }) ∧
      (x.state = .delivering ∨ x.state = .suspended → ∃ t, exec (.pumpStop n) s = .next t ∧
        only 51 (.done []) { p with
          main := false
          slow := false
          sale := some { x with
            state := .finishing
            timer := some (s.elapsed + 2000000) } } t) ∧
      (x.state = .finishing ∨ x.state = .settling → exec (.pumpStop n) s =
        .next { s with pnp := s.pnp.answered 51 .ignored })))

/-- A pulse counts in DELIVERING, SUSPENDED and FINISHING: 50 cl before the cut-off it bars the main
valve, at the cut-off it ends the delivery; in any other state it is stray (R102, R113, R119, R120); its
count wraps to 0 (R104). A lift starts an AUTHORISED delivery and is else an UNAUTH LIFT, a hang ends
one; each edge moves the nozzle and is captured (R102, R111, R112, R114).
The model's choices in it: log 62. -/
def Obligations.PulsesAndNozzleEdges : Prop :=
  ∀ (n : Nat) (p : Pump) (s : State), s.powered = true → s.pump? n = some p →
    let at_ (q : Pump) (journal : List JournalRecord) (t : State) : Prop := t.pump? n = some q ∧
      (∀ m, m ≠ n → t.pump? m = s.pump? m) ∧ t.fdc.journal = journal ∧
      t.fdc.saleNo = s.fdc.saleNo ∧ t.fdc.emergency = s.fdc.emergency ∧
      OnlyChanges [.pnp, .fdc, .cap] s t
    let record (x : Sale) (g : JournalRecord → JournalRecord) : List JournalRecord :=
      s.fdc.journal.map fun r => if r.number = x.number then g r else r
    let stray : Prop := ∃ t, exec (.pumpPulse n) s = .next t ∧
      t.pnp = s.pnp.flagged Flag.pulseStray.bit ∧
      at_ { p with stray := min 65535 (p.stray + 1) } s.fdc.journal t
    let liftOnly (unauth : Bool) : Prop := ∃ t, exec (.nozzleLift n) s = .next t ∧
      at_ { p with nozzleUp := true } s.fdc.journal t ∧
      (unauth = true → t.hasFlag .unauthLift = true) ∧
      (unauth = false → t.pnp = (s.capture (if n = 1 then .lift1 else .lift2)).pnp)
    let hangOnly : Prop := ∃ t, exec (.nozzleHang n) s = .next t ∧
      at_ { p with nozzleUp := false } s.fdc.journal t
    (∀ t, exec (.nozzleLift n) s = .next t →
      t.cap = (s.capture (if n = 1 then .lift1 else .lift2)).cap) ∧
    (∀ t, exec (.nozzleHang n) s = .next t →
      t.cap = (s.capture (if n = 1 then .hang1 else .hang2)).cap) ∧
    (p.sale = none → stray ∧ liftOnly true ∧ hangOnly) ∧
    (∀ (x : Sale) (f : PumpConfig), p.sale = some x → p.config = some f →
      let k : Nat := (x.pulses + 1) % 4294967296
      let v : Nat := k * 100 / f.pulses
      let counted (q : Pump) (bar : Bool) (y : Sale) (preset : Bool) : Prop :=
        ∃ t, exec (.pumpPulse n) s = .next t ∧ t.pnp = s.pnp ∧
          at_ { q with sale := some { y with
              pulses := k
              volume := v
              barred := bar } } (record x fun r => { r with
              volume := v
              flags := { r.flags with presetReached := r.flags.presetReached || preset } }) t
      (x.state = .authorising ∨ x.state = .authorised ∨ x.state = .settling → stray ∧ hangOnly) ∧
      (x.state ≠ .authorised → x.state ≠ .delivering → liftOnly true) ∧
      (x.state = .delivering → liftOnly false) ∧
      (x.state = .finishing → counted p x.barred x false ∧ hangOnly) ∧
      (x.state = .delivering ∨ x.state = .suspended →
        (v + 50 < x.cutoff → counted p x.barred x false) ∧
        (v < x.cutoff → x.cutoff ≤ v + 50 → counted { p with main := false } true x false) ∧
        (x.cutoff ≤ v → counted { p with
          main := false
          slow := false } true { x with
          state := .finishing
          timer := some (s.elapsed + 2000000) } true) ∧
        (∃ t, exec (.nozzleHang n) s = .next t ∧ at_ { p with
          nozzleUp := false
          main := false
          slow := false
          sale := some { x with
            state := .finishing
            timer := some (s.elapsed + 2000000) } } s.fdc.journal t)) ∧
      (x.state = .authorised → ∃ t, exec (.nozzleLift n) s = .next t ∧
        at_ { p with
          nozzleUp := true
          slow := true
          main := decide (50 < x.preset * 100 / f.price)
          sale := some { x with
            state := .delivering
            pulses := 0
            volume := 0
            barred := false
            timer := none
            cutoff := x.preset * 100 / f.price } }
          (record x fun r => { r with startTime := some s.now }) t))

/-- The authorisation timeout ends the sale unused (R111), the suspend limit takes it to FINISHING (R119),
and at the end of the run-on it is priced, charged no more than its preset, its load released, upon which PWB
examines its head or runs its restore pass, and closed or settled (R120). An emergency press marks the station,
flags and alarms, ends authorisations and stops deliveries, at pump 1 and then at pump 2 (R103, R116); the
release clears the mark (R103).
The model's choices in it: log 2, 6, 14, 46. -/
def Obligations.SaleTimersAndEmergency : Prop :=
  (∀ (n k : Nat) (p : Pump) (x : Sale) (s : State), s.powered = true → s.pump? n = some p →
    p.sale = some x →
    let v : State := s.advanceTo k
    let others (t : State) : Prop := (∀ m, m ≠ n → t.pump? m = s.pump? m) ∧
      t.elapsed = v.elapsed ∧ t.sch = v.sch
    let record (g : JournalRecord → JournalRecord) : List JournalRecord :=
      s.fdc.journal.map fun r => if r.number = x.number then g r else r
    (x.state = .authorised → x.timer = some k →
      ∃ t, exec (.authorisationTimeout n) s = .next t ∧ EndsUnused n p x (.lapsed .timeout) v t ∧
        t.elapsed = v.elapsed ∧ t.sch = v.sch) ∧
    (x.state ≠ .authorised → exec (.authorisationTimeout n) s = .next s) ∧
    (x.state = .suspended → x.timer = some k → ∃ t, exec (.suspendLimitEnd n) s = .next t ∧
      t.pump? n = some { p with
        main := false
        slow := false
        sale := some { x with
          state := .finishing
          timer := some (v.elapsed + 2000000) } } ∧
      t.fdc.journal = (record fun r => { r with flags := { r.flags with suspendTimeout := true } }) ∧
      others t ∧ OnlyChanges [.elapsed, .sch, .fdc] s t) ∧
    (x.state ≠ .suspended → exec (.suspendLimitEnd n) s = .next s) ∧
    (x.state ≠ .finishing → exec (.runOnEnd n) s = .next s) ∧
    (x.state = .finishing → x.timer = some k →
      ∃ (w t : State) (l : LoadState), exec (.runOnEnd n) s = .next t ∧
        w.pump? n = some { p with sale := some { x with load := .released } } ∧ others w ∧
        w.fdc.journal = (record fun r =>
          let amount : Nat := (r.volume * r.price + 50) / 100
          { r with
            endTime := some v.now
            charged := some (min amount r.preset)
            flags := { r.flags with
              overrunClamped := r.flags.overrunClamped || decide (r.preset < amount) } }) ∧
        (x.load = .held → w.pumpLoads + p.heldLoad = s.pumpLoads) ∧ OnlyChanges [.fdc] v w ∧
        (let y : State := w.settle
         let closed (g : SaleFlags → SaleFlags) : Prop :=
          t.pump? n = some { p with
            sale := none
            main := false
            slow := false } ∧
          t.fdc.journal = (y.fdc.journal.map fun r =>
            if r.number = x.number then { r with
              closed := true
              flags := g r.flags } else r) ∧
          t.hasFlag .saleClosed = true ∧ OnlyChanges [.pnp, .fdc] y t
         (s.pwb.demands = [] → s.pwb.shed = [] → y = w) ∧
         ((∀ d ∈ s.pwb.demands, d.kind ≠ .pump ∨ d.source ≠ n) → l = .released) ∧
         ((∀ m z, m ≠ n → s.sale? m = some z → z.number ≠ x.number) →
          lookupKey JournalRecord.number x.number y.fdc.journal =
            lookupKey JournalRecord.number x.number w.fdc.journal) ∧
         (∀ m, m ≠ n → t.pump? m = y.pump? m) ∧ t.elapsed = v.elapsed ∧ t.sch = v.sch ∧
         (x.card = none → closed id) ∧
         (x.card.isSome = true → s.lif.state ≠ .onLine →
          closed (fun g => { g with unsettled := true }) ∧
          (x.number ∈ y.fdc.journal.map JournalRecord.number → t.hasFlag .saleUnsettled = true)) ∧
         (∀ h : HoldRef, x.card.isSome = true → s.lif.state = .onLine → x.hold = some h →
          t.pump? n = some { p with sale := some { x with
            state := .settling
            load := l
            timer := none
            settle := some ⟨1, none, y.lif.serial⟩ } } ∧
          t.fdc.journal = y.fdc.journal ∧ OnlyChanges [.pnp, .lif, .fdc] y t ∧
          (∀ r, lookupKey JournalRecord.number x.number y.fdc.journal = some r → y.lif.tx.length < 12 →
            ∃ f ∈ t.lif.tx, f.serial = y.lif.serial ∧
              f.frame = settleFrame s.me h.home h.hold (r.charged.getD 0) h.occ x.number))))) ∧
  (∀ s : State, s.powered = true →
    let v : State := State.alarm .emergencyStop 0 s.sch.sec (State.setFlag .emergencyStop
      { s.capture .press with fdc := { s.fdc with emergency := true } })
    let acts (n : Nat) (a b : State) : Prop :=
      ((∀ x, a.sale? n = some x → x.state = .finishing ∨ x.state = .settling) → b = a) ∧
      (∀ (p : Pump) (x : Sale), a.pump? n = some p → p.sale = some x →
        (x.state = .authorising ∨ x.state = .authorised → EndsUnused n p x
          (if x.state = .authorising then .refused .stopped else .lapsed .emergency) a b) ∧
        (x.state = .delivering ∨ x.state = .suspended → b.pump? n = some { p with
            main := false
            slow := false
            sale := some { x with
              state := .finishing
              timer := some (a.elapsed + 2000000) } } ∧ (∀ m, m ≠ n → b.pump? m = a.pump? m) ∧
          b.fdc.journal = (a.fdc.journal.map fun r => if r.number = x.number then { r with
            flags := { r.flags with emergency := true } } else r) ∧
          b.fdc.saleNo = a.fdc.saleNo ∧ b.fdc.emergency = a.fdc.emergency ∧ OnlyChanges [.fdc] a b))
    v.pump? 1 = s.pump? 1 ∧ v.pump? 2 = s.pump? 2 ∧
    (∃ t1 t2, acts 1 v t1 ∧ acts 2 t1 t2 ∧ exec .emergencyPress s = .next t2 ∧
      t2.fdc.emergency = true) ∧
    exec .emergencyRelease s =
      .next { s.capture .released with fdc := { s.fdc with emergency := false } })

/-- An ask or a settlement waits 400 ms from the report that it was sent; unanswered or failed it is sent
once more, and then the sale ends NO ANSWER or closes UNSETTLED (R107, R121). The answer to an open ask
decides it, and every later OK but the one taken is given back (R108); the answer to a settlement is
written and closes the sale (R122). A sale that ends unused withdraws its demand or releases its load, and PWB
goes on (R110, R55, R57: PassesAndTheHeadDemand).
The model's choices in it: log 2, 6, 14, 26, 58. -/
def Obligations.HoldAsksAndSettlements : Prop :=
  (∀ (n : Nat) (p : Pump) (x : Sale) (a : OpenAsk) (s : State), s.powered = true →
    s.pump? n = some p → p.sale = some x → p.ask = some a →
    let again (v : State) : State := State.queueFrame
      (holdAskFrame s.me n p.askSeq (x.card.getD 0) x.preset) (v.modPump n fun q => { q with
        ask := some ⟨p.askSeq, ⟨2, none, s.lif.serial⟩⟩ })
    (∀ (rep : Report) (rest : List Report),
      takeFirst (fun y => y.frame.kind == 9) s.lif.reports = some (rep, rest) →
      rep.serial = a.attempt.frame →
      (n = 1 ∨ ∀ b, s.fdc.pump1.ask = some b → b.attempt.frame ≠ rep.serial) →
      let v : State := { s with lif := { s.lif with reports := rest } }
      (rep.sent = true → exec .holdAskReport s = .next (v.modPump n fun q => { q with
        ask := some { a with attempt := { a.attempt with waitEnd := some (s.elapsed + 400000) } } })) ∧
      (rep.sent = false → a.attempt.attempt = 1 → exec .holdAskReport s = .next (again v)) ∧
      (rep.sent = false → a.attempt.attempt ≠ 1 → x.state = .authorising →
        ∃ t, exec .holdAskReport s = .next t ∧ EndsUnused n p x (.refused .noAnswer) v t)) ∧
    (∀ k, a.attempt.waitEnd = some k →
      let v : State := s.advanceTo k
      (a.attempt.attempt = 1 → exec (.holdAskWaitEnd n) s = .next (again v)) ∧
      (a.attempt.attempt ≠ 1 → x.state = .authorising →
        ∃ t, exec (.holdAskWaitEnd n) s = .next t ∧ EndsUnused n p x (.refused .noAnswer) v t))) ∧
  (∀ (src : RxSource) (f : Frame) (note : Option Nat) (n : Nat) (p : Pump) (s u : State),
    s.powered = true → s.takeRx 10 src = some (f, note, u) → n = f.keyField 5 2 → s.pump? n = some p →
    let h : HoldRef := ⟨f.sender, f.num 2 1, f.num 3 1⟩
    let mine (q : Nat) : Prop := q = f.keyField 7 8
    (∀ (x : Sale) (a : OpenAsk), p.sale = some x → x.state = .authorising → p.ask = some a →
      mine a.seq →
      (f.num 0 1 = 1 → f.num 1 1 ≤ 4 → ∃ t, exec (.holdAnswerFrame src) s = .next t ∧
        (x.load ≠ .held → t.pump? n = some { p with
          ask := none
          closedAsk := some ⟨a.seq, x.number, some h⟩
          sale := some { x with hold := some h } } ∧ t.pnp = s.pnp) ∧
        (∀ g, x.load = .held → p.config = some g → t.hasFlag .authDone = true ∧
          t.pump? n = some { p with
            ask := none
            closedAsk := some ⟨a.seq, x.number, some h⟩
            last := .authorised
            sale := some { x with
              hold := some h
              state := .authorised
              timer := some (s.elapsed + g.authTimeout * 1000000) } }) ∧
        t.fdc.journal = (s.fdc.journal.map fun r =>
          if r.number = x.number then { r with hold := some h } else r) ∧
        OnlyChanges [.pnp, .lif, .fdc] s t) ∧
      (∀ z, (f.num 1 1, z) ∈ [(1, AuthCause.state), (2, .locked), (3, .funds), (4, .holds)] →
        f.num 0 1 = 2 →
        ∃ t, exec (.holdAnswerFrame src) s = .next t ∧ EndsUnused n p x (.refused z) u t)) ∧
    (∀ a : ClosedAsk, p.ask = none → p.closedAsk = some a → mine a.seq → f.num 1 1 ≤ 4 →
      (f.num 0 1 = 1 → (∀ y, a.hold = some y → y.home ≠ h.home ∨ y.hold ≠ h.hold) →
        s.lif.state = .onLine → exec (.holdAnswerFrame src) s =
          .next (u.queueFrame (settleFrame s.me h.home h.hold 0 h.occ a.sale))) ∧
      ((∃ y, a.hold = some y ∧ y.home = h.home ∧ y.hold = h.hold) ∨ f.num 0 1 ≠ 1 →
        exec (.holdAnswerFrame src) s = .next u)) ∧
    ((∀ a, p.ask = some a → ¬ mine a.seq) → (∀ a, p.closedAsk = some a → ¬ mine a.seq) →
      exec (.holdAnswerFrame src) s = .next u)) ∧
  (∀ (n : Nat) (p : Pump) (x : Sale) (a : Attempt) (h : HoldRef) (s : State), s.powered = true →
    s.pump? n = some p → p.sale = some x → x.settle = some a → x.hold = some h →
    let again (v : State) : State := State.queueFrame
      (settleFrame s.me h.home h.hold (match lookupKey JournalRecord.number x.number s.fdc.journal with
        | some r => r.charged.getD 0
        | none => 0) h.occ x.number) (v.modPump n fun q => { q with
          sale := some { x with settle := some ⟨2, none, s.lif.serial⟩ } })
    let closes (unsettled : Bool) (g : JournalRecord → JournalRecord) (v t : State) : Prop :=
      t.pump? n = some { p with
        sale := none
        main := false
        slow := false } ∧ (∀ m, m ≠ n → t.pump? m = s.pump? m) ∧
      t.fdc.journal = (s.fdc.journal.map fun r =>
        if r.number = x.number then { g r with closed := true } else r) ∧
      t.hasFlag .saleClosed = true ∧
      (unsettled = true → x.number ∈ s.fdc.journal.map JournalRecord.number →
        t.hasFlag .saleUnsettled = true) ∧
      OnlyChanges [.pnp, .fdc] v t
    let unsettle (r : JournalRecord) : JournalRecord := { r with flags := { r.flags with unsettled := true } }
    (∀ (rep : Report) (rest : List Report),
      takeFirst (fun y => y.frame.kind == 11) s.lif.reports = some (rep, rest) →
      rep.serial = a.frame →
      (n = 1 ∨ ∀ y b, s.fdc.pump1.sale = some y → y.settle = some b → b.frame ≠ rep.serial) →
      let v : State := { s with lif := { s.lif with reports := rest } }
      (rep.sent = true → exec .settleReport s = .next (v.modPump n fun q => { q with
        sale := some { x with settle := some { a with waitEnd := some (s.elapsed + 400000) } } })) ∧
      (rep.sent = false → a.attempt = 1 → exec .settleReport s = .next (again v)) ∧
      (rep.sent = false → a.attempt ≠ 1 → ∃ t, exec .settleReport s = .next t ∧
        closes true unsettle v t)) ∧
    (∀ k, a.waitEnd = some k →
      let v : State := s.advanceTo k
      (a.attempt = 1 → exec (.settleWaitEnd n) s = .next (again v)) ∧
      (a.attempt ≠ 1 → ∃ t, exec (.settleWaitEnd n) s = .next t ∧ closes true unsettle v t)) ∧
    (∀ (src : RxSource) (f : Frame) (note : Option Nat) (u : State),
      s.takeRx 12 src = some (f, note, u) → x.state = .settling → h.home = f.sender →
      h.hold = f.keyField 5 8 →
      (n = 1 ∨ ∀ y g, s.fdc.pump1.sale = some y → y.hold = some g → y.state ≠ .settling ∨
        g.home ≠ h.home ∨ g.hold ≠ h.hold) →
      (f.num 0 1 = 1 → ∃ t, exec (.settleAnswerFrame src) s = .next t ∧
        closes false (fun r => { r with settle := some .applied }) u t) ∧
      (f.num 0 1 = 2 → ∃ t, exec (.settleAnswerFrame src) s = .next t ∧
        closes false (fun r => { r with
          settle := some .lateApplied
          flags := { r.flags with late := true } }) u t) ∧
      (f.num 0 1 = 3 → ∃ t, exec (.settleAnswerFrame src) s = .next t ∧
        closes true (fun r => { r with
          settle := some .unknown
          flags := { r.flags with unsettled := true } }) u t)))

/-! ### The pier line (08) -/

/-- A frame heard is tested for its form, a clash, its addressee and the station state, then joins the
receive queue or is dropped with RX OVERFLOW (R162, R172, R173). The head of the transmit queue is the
frame of an attempt; sent, it leaves the queue, is reported and looped back, and its JOIN starts the
listen; a lost contention and an error leave it in its place (R167, R168, R170, R171). The 128th error takes
the station off the line (R175): the rounds, the marks and a running await end (R20, R23), the loans end and
the demand of an open collection fails NO LINE (R71), a sale that asks ends unused with cause NO LINE and
one in SETTLING closes UNSETTLED (R123), and each queued frame is reported FAILED. LIF acknowledges the
frames of other stations in JOINING and ON LINE, and in LINE OFF and UNCONFIGURED none (R175, R179).
The model's choices in it: log 6, 13, 24, 30, 35, 37, 63. -/
def Obligations.FramesHeardAndSent : Prop :=
  (∀ s : State, (s.acknowledges = true ↔ s.powered = true ∧
      (s.lif.state = .joining ∨ s.lif.state = .onLine)) ∧
    ∀ t, exec .txError s = .next t → t.lif.state = .lineOff → t.acknowledges = false) ∧
  (∀ (f : CanFrame) (s : State), s.powered = true →
    let g : Frame := ⟨f.ident, f.data⟩
    let formed : Prop := f.extended = true ∧ f.remote = false ∧ kindLength g.kind = some f.data.length
    let passed : Prop := g.sender ≠ s.me ∧ (∀ a, g.addressee = some a → a = s.me) ∧
      ((s.lif.state = .joining ∧ g.kind ∈ [13, 14, 15, 17, 18]) ∨
        (s.lif.state = .onLine ∧ 2 ≤ g.kind ∧ g.kind ≤ 18))
    (¬ formed → exec (.frameHeard f) s = .next s) ∧
    (formed → g.sender = s.me → exec (.frameHeard f) s =
      .next { s with pnp := s.pnp.flagged Flag.stationClash.bit }) ∧
    (formed → g.sender ≠ s.me → ¬ passed → exec (.frameHeard f) s = .next s) ∧
    (formed → passed → s.lif.rx.length < 16 → exec (.frameHeard f) s =
      .next { s with lif := { s.lif with rx := s.lif.rx ++ [g] } }) ∧
    (formed → passed → 16 ≤ s.lif.rx.length → exec (.frameHeard f) s = .next { s with
      lif := { s.lif with dropped := min 65535 (s.lif.dropped + 1) }
      pnp := s.pnp.flagged Flag.rxOverflow.bit })) ∧
  (∀ s : State, s.powered = true →
    (∀ f more, s.lif.tx = f :: more → s.lif.attempt = none →
      s.lif.state = .joining ∨ s.lif.state = .onLine →
      exec .txAttemptStart s = .next { s with lif := { s.lif with attempt := some f.serial } }) ∧
    (s.lif.tx = [] ∨ s.lif.attempt.isSome = true ∨ s.lif.state = .unconfigured ∨
      s.lif.state = .lineOff → exec .txAttemptStart s = .next s) ∧
    exec .txContentionLost s = .next { s with lif := { s.lif with attempt := none } } ∧
    (s.lif.attempt = none → exec .txSent s = .next s) ∧
    (∀ (before more : List TxFrame) (f : TxFrame), s.lif.tx = before ++ f :: more →
      s.lif.attempt = some f.serial → (∀ g ∈ before ++ more, g.serial ≠ f.serial) →
      let looped : Prop := (∀ a, f.frame.addressee = some a → a = s.me) ∧
        ((s.lif.state = .joining ∧ f.frame.kind ∈ [13, 14, 15, 17, 18]) ∨
          (s.lif.state = .onLine ∧ 2 ≤ f.frame.kind ∧ f.frame.kind ≤ 18))
      ∃ t, exec .txSent s = .next t ∧ t.lif.tx = before ++ more ∧ t.lif.attempt = none ∧
        t.lif.failed = 0 ∧ t.lif.state = s.lif.state ∧ t.lif.rx = s.lif.rx ∧
        t.lif.listenEnd = (if f.frame.kind = 17 then some (s.elapsed + 200000) else s.lif.listenEnd) ∧
        (looped → t.lif.loop = s.lif.loop ++ [f]) ∧ (¬ looped → t.lif.loop = s.lif.loop) ∧
        (f.frame.kind ∈ [4, 5, 6, 9, 11, 13, 14, 15] →
          t.lif.reports = s.lif.reports ++ [⟨f.serial, f.frame, true⟩]) ∧ OnlyChanges [.lif] s t) ∧
    (s.lif.failed < 127 → s.lif.attempt.isSome = true ∨ s.lif.state = .joining →
      exec .txError s = .next { s with lif := { s.lif with
        attempt := none
        failed := s.lif.failed + 1 } }) ∧
    (127 ≤ s.lif.failed → s.lif.attempt.isSome = true ∨ s.lif.state = .joining →
      ∃ t, exec .txError s = .next t ∧ t.lif.state = .lineOff ∧ t.lif.tx = [] ∧ t.lif.rx = [] ∧
        t.lif.attempt = none ∧ t.lif.listenEnd = none ∧ t.lif.silenceEnd = some (s.elapsed + 1000000) ∧
        t.hasFlag .lineLost = true ∧
        t.bal = { s.bal with
          rounds := []
          berths := s.bal.berths.map fun b => { b with mark := none }
          await := none
          result := if s.bal.await.isSome = true then .noLine else s.bal.result } ∧
        (s.bal.await.isSome = true → t.hasFlag .roundDone = true) ∧
        t.pwb.loans = [] ∧ t.pwb.collection = none ∧
        (∀ (col : Collection) (d : Demand) (rest : List Demand), s.pwb.collection = some col →
          s.pwb.demands = d :: rest → d.id = col.demand → (∀ e ∈ rest, e.id ≠ d.id) →
          (∀ e ∈ t.pwb.demands, e.id ≠ d.id) ∧
          (∀ x, d.kind = .pump → s.sale? d.source = some x → x.state = .authorising →
            t.sale? d.source = none ∧ t.hasFlag .authDone = true ∧
            ∃ p, t.pump? d.source = some p ∧ p.last = .refused .noLine)) ∧
        (∀ n x, t.sale? n = some x → x.state ≠ .settling) ∧
        (∀ (n : Nat) (p : Pump) (x : Sale), s.pump? n = some p → p.sale = some x →
          (∀ d ∈ s.pwb.demands, d.kind = .pump → d.source ≠ n) →
          (x.state = .authorising → p.ask.isSome = true → t.hasFlag .authDone = true ∧
            t.pump? n = some { p.closeAsk x.number x.hold with
              sale := none
              main := false
              slow := false
              last := .refused .noLine } ∧ ∀ r ∈ t.fdc.journal, r.number ≠ x.number) ∧
          (x.state = .settling → t.hasFlag .saleClosed = true ∧
            t.pump? n = some { p with
              sale := none
              main := false
              slow := false } ∧
            ∀ r ∈ s.fdc.journal, r.number = x.number →
              (∀ m y, m ≠ n → s.sale? m = some y → y.number ≠ x.number) →
              t.hasFlag .saleUnsettled = true ∧ { r with
                closed := true
                flags := { r.flags with unsettled := true } } ∈ t.fdc.journal)) ∧
        (∃ others : List Report, t.lif.reports = s.lif.reports ++ others ++
          (s.lif.tx.filter fun f => decide (f.frame.kind ∈ [4, 5, 6, 9, 11, 13, 14, 15])).map fun f =>
            Report.mk f.serial f.frame false) ∧
        OnlyChanges (mayChange .txError) s t)) ∧
  (∀ (col : Collection) (d : Demand) (rest : List Demand) (s : State), s.pwb.collection = some col →
    s.pwb.demands = d :: rest → d.id = col.demand →
    HeadFailed d .noLine false rest { s with pwb := { s.pwb with collection := none } } s.abandonAsk) ∧
  (∀ s : State, s.loansLineOff =
    let v : State := { s with pwb := { s.pwb with loans := [] } }
    let t : State := (if v.ceiling < v.load then v.shedPass else v).abandonAsk
    if s.pwb.loans = [] then t.settleSince s else t.settle) ∧
  (∀ (fr : Frame) (s : State), s.lif.state = .onLine → 1 ≤ fr.kind → fr.kind ≤ 16 →
    let f : TxFrame := ⟨s.lif.serial, fr⟩
    (s.lif.tx.length < 12 → ∃ before more, s.lif.tx = before ++ more ∧
      (s.queueFrame fr).lif.tx = before ++ f :: more ∧
      (s.lif.tx.Pairwise (fun a b => a.frame.ident.toNat ≤ b.frame.ident.toNat) →
        (∀ g ∈ before, g.frame.ident.toNat ≤ fr.ident.toNat) ∧
        (∀ g ∈ more, fr.ident.toNat < g.frame.ident.toNat))) ∧
    (12 ≤ s.lif.tx.length → (s.queueFrame fr).hasFlag .txDropped = true ∧
      ∀ h, s.lif.highest = some h →
        (h.frame.ident.toNat ≤ fr.ident.toNat → (s.queueFrame fr).lif.tx = s.lif.tx) ∧
        (fr.ident.toNat < h.frame.ident.toNat → f ∈ (s.queueFrame fr).lif.tx ∧
          ∀ g ∈ (s.queueFrame fr).lif.tx, g = f ∨ (g ∈ s.lif.tx ∧ g.serial ≠ h.serial))) ∧
    OnlyChanges [.pnp, .lif] s (s.queueFrame fr))

/-- The listen ends ON LINE with LINE UP (R170), the first one after a start energising the retained
ALONGSIDE records in number order (R100); the silence watch ends in JOINING with a JOIN of kind LINE
queued (R176), activity in LINE OFF starts the watch again (R176), and a peer's JOIN ends its loans,
rounds with their marks and queued BIDs, offers and receipts and unties its holds (R174, R70, R22).
The model's choices in it: log 2, 6, 13, 37, 51, 60, 63. -/
def Obligations.ListenSilenceAndJoins : Prop :=
  (∀ (k : Nat) (s : State), s.powered = true →
    let v : State := s.advanceTo k
    (s.lif.state = .joining → s.lif.listenEnd = some k → ∃ t, exec .listenEnd s = .next t ∧
      t.lif.state = .onLine ∧ t.lif.listenEnd = none ∧ t.hasFlag .lineUp = true ∧
      t.acknowledges = true ∧ t.elapsed = v.elapsed ∧ t.sch = v.sch ∧ t.spc.energiseDue = false ∧
      (s.spc.energiseDue = true → t = (s.occ.records.map Occupancy.number).foldl State.retainEnergise
        { v with
          lif := { s.lif with
            state := .onLine
            listenEnd := none }
          pnp := s.pnp.flagged Flag.lineUp.bit
          spc := { s.spc with
            energiseDue := false
            heldBack := [] } }) ∧
      (s.spc.energiseDue = false → t = { v with
        lif := { s.lif with
          state := .onLine
          listenEnd := none }
        pnp := s.pnp.flagged Flag.lineUp.bit }) ∧
      (s.occ.records = [] → OnlyChanges [.pnp, .elapsed, .sch, .lif, .spc] s t)) ∧
    (s.lif.state ≠ .joining → exec .listenEnd s = .next s) ∧
    (s.lif.state = .lineOff → s.lif.silenceEnd = some k → s.lif.tx = [] →
      exec .silenceWatchEnd s = .next { v with lif := { s.lif with
        state := .joining
        failed := 0
        listenEnd := none
        silenceEnd := none
        serial := s.lif.serial + 1
        tx := [⟨s.lif.serial, joinFrame s.me s.settings.baseShare .line⟩] } }) ∧
    (s.lif.state ≠ .lineOff → exec .silenceWatchEnd s = .next s ∧ exec .lineActivity s = .next s) ∧
    (s.lif.state = .lineOff → exec .lineActivity s =
      .next { s with lif := { s.lif with silenceEnd := some (s.elapsed + 1000000) } })) ∧
  (∀ (n : Nat) (s : State),
    let draws (r : Occupancy) (q : Nat) (p : Point) : Prop := r.state = .alongside ∧
      s.berthPoint r.berth = some q ∧ s.point? q = some p ∧ p.charging = some n ∧
      r.account.state ≠ .barred ∧ p.outlet = .off ∧
      ∀ d ∈ s.pwb.demands, d.kind = .energise → d.source ≠ q
    ((∀ r q p, s.occ? n = some r → ¬ draws r q p) → s.retainEnergise n = s) ∧
    (∀ (r : Occupancy) (q : Nat) (p : Point) (y : Profile), s.occ? n = some r → draws r q p →
      r.profile = some y →
      (s.postDown q = true → (s.retainEnergise n).point? q = some (Point.setTap { p with
          outlet := .faultOff } (p.tapFitted && y.tapOpen)) ∧
        OnlyChanges [.spc] s (s.retainEnergise n)) ∧
      (s.postDown q = false → (∀ d ∈ s.pwb.demands, d.kind = .raise → d.source ≠ q) →
        Offered q p y s (s.retainEnergise n)))) ∧
  (∀ (src : RxSource) (f : Frame) (note : Option Nat) (s u : State), s.powered = true →
    s.takeRx 17 src = some (f, note, u) →
    (f.sender = s.me ∨ f.num 2 1 = 0 ∨ 3 < f.num 2 1 → exec (.joinFrame src) s = .next u) ∧
    (f.sender ≠ s.me → 1 ≤ f.num 2 1 → f.num 2 1 ≤ 3 → ∃ t, exec (.joinFrame src) s = .next t ∧
      (∀ l ∈ t.pwb.loans, l.partner ≠ f.sender) ∧
      (∀ l ∈ s.pwb.loans, l.partner ≠ f.sender → ∃ x ∈ t.pwb.loans, x.partner = l.partner ∧
        x.lent = l.lent ∧ x.amount = l.amount ∧ x.pledge = l.pledge) ∧
      (∀ c, t.pwb.collection = some c → ∀ o ∈ c.offers, o.lender ≠ f.sender) ∧
      ((∀ l ∈ s.pwb.loans, l.partner ≠ f.sender) → t.pwb = { s.pwb with
        collection := s.pwb.collection.map fun c => { c with
          offers := c.offers.filter fun o => o.lender != f.sender } }) ∧
      t.bal = { s.bal with
        rounds := s.bal.rounds.filter fun r => r.tag.station != f.sender
        berths := s.bal.berths.map fun b =>
          if (s.bal.rounds.any fun r => r.tag.station == f.sender && b.mark == some r.tag) = true
          then { b with mark := none } else b } ∧
      (∀ r ∈ s.bal.rounds, r.tag.station = f.sender → r.state = .bidQueued →
        ∀ k, r.bidFrame = some k → k < s.lif.serial → s.lif.attempt ≠ some k →
          ∀ g ∈ t.lif.tx, g.serial ≠ k) ∧
      t.occ.records.map Occupancy.number = s.occ.records.map Occupancy.number ∧
      (∀ n r, s.occ? n = some r → ∃ r', t.occ? n = some r' ∧
        r'.receipts = r.receipts.filter (fun x => x.station != f.sender) ∧
        r'.holds = r.holds.map (fun h =>
          if h.station = f.sender then { h with
            pump := none
            ask := none } else h) ∧ r'.account = r.account ∧ r'.state = r.state) ∧
      OnlyChanges (mayChange (.joinFrame src)) s t))

/-! ### What every step keeps -/

/-- The attention line is driven exactly while a flag is pending, whatever command is taken (R188, R192). -/
def Obligations.AttentionFollowsThePendingFlags : Prop :=
  ∀ s t : State, AttentionSound s → step s = .next t → AttentionSound t

/-- LIF's queues stay within their sizes, ordered, and empty off the line (R165, R173, R175, R179), and the
station state moves by JOIN, the end of the listen, the 128th error, the end of the silence watch and a
start alone (R170, R175, R176, R203). -/
def Obligations.LineStaysSoundAndMovesByItsEvents : Prop :=
  (∀ s t : State, LineSound s → step s = .next t → LineSound t) ∧
  (∀ (c : Instr) (s t : State), LineSound s → exec c s = .next t → t.lif.state ≠ s.lif.state →
    (c = .join ∧ s.lif.state = .unconfigured ∧ t.lif.state = .joining) ∨
    (c = .listenEnd ∧ s.lif.state = .joining ∧ t.lif.state = .onLine) ∨
    (c = .txError ∧ (s.lif.state = .joining ∨ s.lif.state = .onLine) ∧ t.lif.state = .lineOff ∧
      127 ≤ s.lif.failed) ∨
    (c = .silenceWatchEnd ∧ s.lif.state = .lineOff ∧ t.lif.state = .joining) ∨
    (isStart c = true ∧ t.lif.state = .unconfigured))

/-- The occupancy table keeps its numbers, its berths' nights and its hold ids apart, and each list its
size, whatever command is taken (R25, R26, R34, R40, R42). -/
def Obligations.OccupancyStaysSound : Prop :=
  ∀ s t : State, OccupancySound s → step s = .next t → OccupancySound t

/-- The tables of BAL, PWB and FDC keep their sizes and the journal its numbers apart (R10, R53, R56,
R124); the valves are open only in DELIVERING, and no sale waits or delivers while the emergency is active
(R112, R116), and the clock's milliseconds stay below 1000 (R147), whatever command is taken. No two rounds
carry one tag (R10), while no REQUEST BERTH is taken with its next tag still in the table: that takes a
round held past 255 later requests by a window end not taken (log 2).
The model's choices in it: log 2. -/
def Obligations.TablesAndPumpsStaySound : Prop :=
  (∀ s t : State, TablesSound s → step s = .next t → TablesSound t) ∧
  (∀ s t : State, FuelSound s → step s = .next t → FuelSound t) ∧
  (∀ s t : State, ClockSound s → step s = .next t → ClockSound t) ∧
  (∀ s t : State, RoundsApart s →
    (∀ q rest, s.pending = .requestBerth q :: rest → s.round? ⟨s.me, (s.bal.seq + 1) % 256⟩ = none) →
    step s = .next t → RoundsApart t)

/-- After a cold start every invariant of this section holds (R50, R72, R104, R179, R193).
The model's choices in it: log 10. -/
def Obligations.ResetIsSound : Prop :=
  AttentionSound State.reset ∧ LineSound State.reset ∧ OccupancySound State.reset ∧
  TablesSound State.reset ∧ FuelSound State.reset ∧ ClockSound State.reset ∧ RoundsApart State.reset
end

