-- ==== Sys2Proof/Laws/Frames.lean ====
section
/-! SUPPORT. What each shared operation can change: one frame law for each, which says the parts it
can touch, and that it touches PNP only by setting flags. -/

namespace Sys2Proof.Machine

set_option Elab.async false

/-- From `s` to `t` only the parts listed change, and PNP at most by flags set. -/
structure Within (ps : List Part) (s t : State) : Prop where
  frame : OnlyChanges (.pnp :: ps) s t
  port  : t.pnp = s.pnp ∨ ∃ m, t.pnp = s.pnp.flagged m

/-! ### How frames compose -/

theorem OnlyChanges.refl (ps : List Part) (s : State) : OnlyChanges ps s s := by
  intro p _; cases p <;> rfl

theorem OnlyChanges.trans {ps : List Part} {s t u : State} (h : OnlyChanges ps s t)
    (g : OnlyChanges ps t u) : OnlyChanges ps s u := by
  intro p hp
  have a := h p hp
  have b := g p hp
  cases p <;> exact b.trans a

theorem OnlyChanges.mono {ps qs : List Part} {s t : State} (h : OnlyChanges ps s t)
    (hs : ps ⊆ qs) : OnlyChanges qs s t := fun p hp => h p fun hp' => hp (hs hp')

theorem Pnp.flagged_flagged (p : Pnp) (a b : BitVec 64) :
    (p.flagged a).flagged b = p.flagged (a ||| b) := by
  simp [Pnp.flagged, Pnp.pendingMask, Pnp.reachMask, BitVec.or_assoc]

theorem Within.refl (ps : List Part) (s : State) : Within ps s s :=
  ⟨OnlyChanges.refl _ s, .inl rfl⟩

theorem Within.trans {ps : List Part} {s t u : State} (h : Within ps s t) (g : Within ps t u) :
    Within ps s u := by
  refine ⟨h.frame.trans g.frame, ?_⟩
  rcases h.port with h' | ⟨a, h'⟩ <;> rcases g.port with g' | ⟨b, g'⟩
  · exact .inl (g'.trans h')
  · exact .inr ⟨b, by rw [g', h']⟩
  · exact .inr ⟨a, by rw [g', h']⟩
  · exact .inr ⟨a ||| b, by rw [g', h', Pnp.flagged_flagged]⟩

theorem Within.mono {ps qs : List Part} {s t : State} (h : Within ps s t) (hs : ps ⊆ qs) :
    Within qs s t := ⟨h.frame.mono (List.cons_subset_cons _ hs), h.port⟩

/-- One operation after another. -/
theorem Within.andThen {ps qs rs : List Part} {s t u : State} (h : Within ps s t)
    (g : Within qs t u) (hp : ps ⊆ rs := by decide) (hq : qs ⊆ rs := by decide) :
    Within rs s u := (h.mono hp).trans (g.mono hq)

/-- A fold of operations that each stay within the parts. -/
theorem Within.foldl {α : Type} {ps : List Part} (f : State → α → State)
    (h : ∀ s x, Within ps s (f s x)) (l : List α) (s : State) : Within ps s (l.foldl f s) := by
  induction l generalizing s with
  | nil => exact .refl _ s
  | cons x r ih => exact (h s x).trans (ih _)

theorem Within.ite {ps : List Part} {s t u : State} {c : Prop} [Decidable c]
    (h : Within ps s t) (g : Within ps s u) : Within ps s (if c then t else u) := by
  split
  · exact h
  · exact g

/-- A step that leaves PNP as it is. -/
theorem Within.of {ps : List Part} {s t : State} (h : OnlyChanges ps s t) (hp : t.pnp = s.pnp) :
    Within ps s t := ⟨h.mono (List.subset_cons_self _ _), .inl hp⟩

section Updates
variable (s : State)

theorem within_elapsed_sch (e : Nat) (c : Sch) :
    Within [.elapsed, .sch] s { s with elapsed := e, sch := c } :=
  .of (by intro p hp; cases p <;> simp_all [State.agree]) rfl

theorem within_moments (n : Nat) : Within [.moments] s { s with moments := n } :=
  .of (by intro p hp; cases p <;> simp_all [State.agree]) rfl

theorem within_lif (l : Lif) : Within [.lif] s { s with lif := l } :=
  .of (by intro p hp; cases p <;> simp_all [State.agree]) rfl

theorem within_bal (b : Bal) : Within [.bal] s { s with bal := b } :=
  .of (by intro p hp; cases p <;> simp_all [State.agree]) rfl

theorem within_occ (o : Occ) : Within [.occ] s { s with occ := o } :=
  .of (by intro p hp; cases p <;> simp_all [State.agree]) rfl

theorem within_occ_spc (o : Occ) (c : Spc) : Within [.occ, .spc] s { s with occ := o, spc := c } :=
  .of (by intro p hp; cases p <;> simp_all [State.agree]) rfl

theorem within_pwb (w : Pwb) : Within [.pwb] s { s with pwb := w } :=
  .of (by intro p hp; cases p <;> simp_all [State.agree]) rfl

theorem within_spc (c : Spc) : Within [.spc] s { s with spc := c } :=
  .of (by intro p hp; cases p <;> simp_all [State.agree]) rfl

theorem within_fdc (f : Fdc) : Within [.fdc] s { s with fdc := f } :=
  .of (by intro p hp; cases p <;> simp_all [State.agree]) rfl

theorem within_gtc (g : Gtc) : Within [.gtc] s { s with gtc := g } :=
  .of (by intro p hp; cases p <;> simp_all [State.agree]) rfl

theorem within_sch (c : Sch) : Within [.sch] s { s with sch := c } :=
  .of (by intro p hp; cases p <;> simp_all [State.agree]) rfl

theorem within_cap (c : Cap) : Within [.cap] s { s with cap := c } :=
  .of (by intro p hp; cases p <;> simp_all [State.agree]) rfl

/-! ### Flags, time, the queue -/

theorem within_setFlag (f : Flag) : Within [] s (s.setFlag f) :=
  ⟨by intro p hp; cases p <;> simp_all [State.agree, State.setFlag], .inr ⟨f.bit, rfl⟩⟩

theorem within_setFlagIf (c : Bool) (f : Flag) : Within [] s (s.setFlagIf c f) := by
  unfold State.setFlagIf; split
  · exact within_setFlag s f
  · exact .refl _ s

theorem within_advance (n : Nat) : Within [.elapsed, .sch] s (s.advance n) := by
  unfold State.advance; split
  · exact .refl _ s
  · exact within_elapsed_sch s _ _

theorem within_advanceTo (d : Nat) : Within [.elapsed, .sch] s (s.advanceTo d) := within_advance s _

theorem within_advanceToTime (t : Time) : Within [.elapsed, .sch] s (s.advanceToTime t) :=
  within_advance s _

theorem within_stamp : Within [.moments] s s.stamp := within_moments s _

theorem within_giveReport (f : TxFrame) (b : Bool) : Within [.lif] s (s.giveReport f b) := by
  unfold State.giveReport; split
  · exact within_lif s _
  · exact .refl _ s

theorem within_queueFrame (f : Frame) : Within [.lif] s (s.queueFrame f) := by
  unfold State.queueFrame
  dsimp only
  split
  · exact (within_lif s _).trans (within_giveReport _ _ _)
  · split
    · exact (within_lif s _).trans (within_lif _ _)
    · split
      · split
        · exact (((within_lif s _).trans (within_lif _ _)).trans (within_giveReport _ _ _)).andThen
            (within_setFlag _ _)
        · exact ((within_lif s _).trans (within_giveReport _ _ _)).andThen (within_setFlag _ _)
      · exact ((within_lif s _).trans (within_giveReport _ _ _)).andThen (within_setFlag _ _)

theorem within_withdrawFrame (n : Nat) : Within [.lif] s (s.withdrawFrame n) := by
  unfold State.withdrawFrame; split
  · exact within_lif s _
  · exact .refl _ s

theorem within_alarm (k : AlarmKind) (n v : Nat) : Within [.lif] s (s.alarm k n v) := by
  unfold State.alarm; split
  · exact within_queueFrame s _
  · exact .refl _ s

/-! ### OCC -/

theorem within_modOcc (n : Nat) (f : Occupancy → Occupancy) : Within [.occ] s (s.modOcc n f) :=
  within_occ s _

theorem within_notify (k : NoticeKind) (n : Nat) : Within [.occ] s (s.notify k n) := within_occ s _

theorem within_enterBarred (n : Nat) : Within [.occ] s (s.enterBarred n) :=
  (within_modOcc s _ _).trans (within_notify _ _ _)

theorem within_leaveBarred (n : Nat) : Within [.occ] s (s.leaveBarred n) := by
  unfold State.leaveBarred; split
  · exact .refl _ s
  · exact (((within_modOcc s _ _).andThen (within_setFlagIf _ _ _) : Within [.occ] s _).andThen
      (within_setFlagIf _ _ _) : Within [.occ] s _).trans (within_notify _ _ _)

theorem within_overdueCheck (n : Nat) : Within [.occ] s (s.overdueCheck n) := by
  unfold State.overdueCheck
  split
  · exact .refl _ s
  · split
    · split
      · exact (within_enterBarred s n).andThen (within_setFlag _ _)
      · exact .refl _ s
    · exact .refl _ s

theorem within_computeStanding (n : Nat) : Within [.occ] s (s.computeStanding n) := by
  unfold State.computeStanding
  split
  · exact .refl _ s
  · exact (((within_modOcc s _ _).andThen (within_setFlagIf _ _ _) : Within [.occ] s _).andThen
      (within_setFlagIf _ _ _) : Within [.occ] s _).trans (within_overdueCheck _ _)

theorem within_debit (n c : Nat) : Within [.occ] s (s.debit n c) := by
  unfold State.debit
  split
  · exact .refl _ s
  · split
    · exact .refl _ s
    · exact (within_modOcc s _ _).trans (within_computeStanding _ _)

theorem within_createOcc {v : NewStay} {n : Nat} {t : State} (h : s.createOcc v = some (n, t)) :
    Within [.occ] s t := by
  unfold State.createOcc at h
  split at h
  · cases h
  · split at h
    · cases h
    · split at h
      · cases h
      · cases h
        exact (within_occ s _).trans (within_computeStanding _ _)

theorem within_removeOcc (n : Nat) : Within [.occ, .spc] s (s.removeOcc n) := within_occ_spc s _ _

theorem within_closeOcc (n : Nat) (r : CloseReason) : Within [.occ, .spc] s (s.closeOcc n r) := by
  unfold State.closeOcc; split
  · exact .refl _ s
  · exact ((within_occ s _).andThen (within_setFlag _ _) : Within [.occ] s _).andThen
      (within_removeOcc _ _)

theorem within_testRemoval (n : Nat) : Within [.occ, .spc] s (s.testRemoval n) := by
  unfold State.testRemoval
  split
  · exact .refl _ s
  · split
    · exact .ite (within_closeOcc s _ _) (.refl _ s)
    · split
      · exact .ite (within_closeOcc s _ _) ((within_setFlag s _).mono (by decide))
      · exact .refl _ s

theorem within_retryClosures : Within [.occ, .spc] s s.retryClosures :=
  .foldl _ (fun s n => .ite (within_testRemoval s n) (.refl _ s)) _ s

theorem within_toAlongside (n : Nat) : Within [.occ] s (s.toAlongside n) :=
  (within_modOcc s _ _).trans (within_notify _ _ _)

theorem within_toDeparting (n : Nat) : Within [.occ, .spc] s (s.toDeparting n) :=
  ((within_modOcc s _ _).trans (within_notify _ _ _)).andThen (within_testRemoval _ _)

theorem within_dayRollRecord (n : Nat) : Within [.occ, .spc] s (s.dayRollRecord n) := by
  unfold State.dayRollRecord
  split
  · exact .refl _ s
  · split
    · exact .ite (within_toDeparting s _) (.refl _ s)
    · split
      · refine .ite (within_closeOcc s _ _) ?_
        exact (within_modOcc s _ _).andThen (within_setFlag _ _)
      · exact .refl _ s
    · exact .refl _ s

theorem within_dayRoll : Within [.occ, .spc] s s.dayRoll :=
  ((Within.foldl _ within_dayRollRecord _ s).trans
    (.foldl _ (fun s n => (within_overdueCheck s n).mono (by decide)) _ _)).trans
    (within_retryClosures _)

theorem within_placeHold (n id st pump ask amount : Nat) :
    Within [.occ] s (s.placeHold n id st pump ask amount) :=
  (within_occ s _).trans (within_modOcc _ _ _)

theorem within_dropHold (n id : Nat) : Within [.occ] s (s.dropHold n id) := within_modOcc s _ _

theorem within_lapseHold (n id : Nat) : Within [.occ, .spc] s (s.lapseHold n id) :=
  ((within_dropHold s n id).andThen (within_setFlag _ _) : Within [.occ] s _).andThen
    (within_testRemoval _ _)

theorem within_lapseRecord (n : Nat) : Within [.occ, .spc] s (s.lapseRecord n) := by
  unfold State.lapseRecord
  split
  · exact .refl _ s
  · exact .foldl (fun s (h : Hold) => s.lapseHold n h.id) (fun s h => within_lapseHold s n h.id) _ s

theorem within_lapseDue : Within [.occ, .spc] s s.lapseDue :=
  .foldl (fun s (x : Nat × Nat) => s.lapseHold x.1 x.2) (fun s x => within_lapseHold s x.1 x.2) _ s

theorem within_wrongPin (n : Nat) : Within [.occ] s (s.wrongPin n) := by
  unfold State.wrongPin; split
  · exact .refl _ s
  · exact (within_modOcc s _ _).andThen (within_setFlagIf _ _ _)

theorem within_correctPin (n : Nat) : Within [.occ] s (s.correctPin n) := within_modOcc s _ _

theorem within_bindCard (n c : Nat) : Within [.occ] s (s.bindCard n c) := within_modOcc s _ _

/-! ### What PWB tells SPC and FDC -/

theorem within_modPoint (n : Nat) (f : Point → Point) : Within [.spc] s (s.modPoint n f) :=
  within_spc s _

theorem within_followTap (n : Nat) : Within [.spc] s (s.followTap n) := within_spc s _
theorem within_closeTap (n : Nat) : Within [.spc] s (s.closeTap n) := within_spc s _
theorem within_commandOn (n f : Nat) : Within [.spc] s (s.commandOn n f) := within_spc s _
theorem within_setOutlet (n : Nat) (o : OutletState) : Within [.spc] s (s.setOutlet n o) :=
  within_spc s _

theorem within_raiseOutcome (n : Nat) (o : RaiseOutcome) : Within [.spc] s (s.raiseOutcome n o) := by
  unfold State.raiseOutcome; split
  · exact (within_modPoint s _ _).andThen (within_setFlag _ _)
  · exact .refl _ s

theorem within_raiseServed (n : Nat) : Within [.occ, .spc] s (s.raiseServed n) := by
  unfold State.raiseServed
  split
  · exact .refl _ s
  · split
    · exact (((within_modOcc s _ _).andThen (within_modPoint _ _ _) : Within [.occ, .spc] s _).andThen
        (within_followTap _ _) : Within [.occ, .spc] s _).andThen (within_raiseOutcome _ _ _)
    · exact .refl _ s

theorem within_modPump (n : Nat) (f : Pump → Pump) : Within [.fdc] s (s.modPump n f) := by
  unfold State.modPump; split
  · exact within_fdc s _
  · split
    · exact within_fdc s _
    · exact .refl _ s

theorem within_modSale (n : Nat) (f : Sale → Sale) : Within [.fdc] s (s.modSale n f) :=
  within_modPump s _ _

theorem within_modRecord (n : Nat) (f : JournalRecord → JournalRecord) :
    Within [.fdc] s (s.modRecord n f) := within_fdc s _

theorem within_tryAuthorise (n : Nat) : Within [.fdc] s (s.tryAuthorise n) := by
  unfold State.tryAuthorise
  split
  · exact .refl _ s
  · split
    · split
      · exact (within_modPump s _ _).andThen (within_setFlag _ _)
      · exact .refl _ s
    · exact .refl _ s

theorem within_zeroSettle (h : HoldRef) (n : Nat) : Within [.lif] s (s.zeroSettle h n) := by
  unfold State.zeroSettle; split
  · exact within_queueFrame s _
  · exact .refl _ s

theorem within_endUnusedCore (n : Nat) (c : AuthCause) (r : LapseReason) :
    Within [.fdc, .lif] s (s.endUnusedCore n c r) := by
  unfold State.endUnusedCore
  split
  · exact .refl _ s
  · rename_i sale _
    have h : Within [.fdc, .lif] s
        (match sale.hold with | some h => s.zeroSettle h sale.number | none => s) := by
      split
      · exact (within_zeroSettle s _ _).mono (by decide)
      · exact .refl _ s
    have g := (h.andThen (within_modPump _ n fun p => p.closeAsk sale.number sale.hold) :
      Within [.fdc, .lif] s _)
    dsimp only
    split
    · exact ((g.andThen (within_fdc _ _) : Within [.fdc, .lif] s _).andThen
        (within_modPump _ _ _) : Within [.fdc, .lif] s _).andThen (within_setFlag _ _)
    · exact ((g.andThen (within_fdc _ _) : Within [.fdc, .lif] s _).andThen
        (within_modPump _ _ _) : Within [.fdc, .lif] s _).andThen (within_setFlag _ _)

theorem within_pumpFailed (n : Nat) (c : AuthCause) : Within [.fdc, .lif] s (s.pumpFailed n c) := by
  unfold State.pumpFailed; split
  · exact .ite (within_endUnusedCore s _ _ _) (.refl _ s)
  · exact .refl _ s

end Updates

end Sys2Proof.Machine
end

