-- ==== Sys2Proof/Laws/Power.lean ====
section
/-! SUPPORT. The frame laws of PWB's and SPC's shared operations. PWB's work can reach the submitter of
a demand, so its operations stay within `pwbParts`. -/

namespace Sys2Proof.Machine

set_option Elab.async false

section Pwb
variable (s : State)

theorem within_dropOutlet (n : Nat) : Within [.pwb] s (s.dropOutlet n) := within_pwb s _
theorem within_dropDemands (n : Nat) : Within [.pwb] s (s.dropDemands n) := within_pwb s _
theorem within_popDemand : Within [.pwb] s s.popDemand := within_pwb s _
theorem within_modHead (f : Demand → Demand) : Within [.pwb] s (s.modHead f) := within_pwb s _
theorem within_dropLoans (p : Loan → Bool) : Within [.pwb] s (s.dropLoans p) := within_pwb s _
theorem within_modLoan (b : Bool) (n : Nat) (f : Loan → Loan) : Within [.pwb] s (s.modLoan b n f) :=
  within_pwb s _

theorem within_energise (n f : Nat) : Within [.moments, .pwb, .spc] s (s.energise n f) :=
  ((within_stamp s).andThen (within_pwb _ _) : Within [.moments, .pwb] s _).andThen
    (within_commandOn _ _ _)

theorem within_shedFailed (n f : Nat) : Within [.moments, .pwb, .spc] s (s.shedFailed n f) :=
  (((within_stamp s).andThen (within_pwb _ _) : Within [.moments, .pwb] s _).andThen
    (within_setOutlet _ _ _) : Within [.moments, .pwb, .spc] s _).andThen (within_setFlag _ _)

theorem within_shedOutlet (e : OutletLoad) : Within [.pwb, .spc] s (s.shedOutlet e) :=
  (((((within_dropOutlet s _).trans (within_dropDemands _ _)).trans (within_pwb _ _)).andThen
    (within_setOutlet _ _ _) : Within [.pwb, .spc] s _).andThen (within_raiseOutcome _ _ _) :
    Within [.pwb, .spc] s _).andThen (within_setFlag _ _)

theorem within_shedPass : Within [.pwb, .spc] s s.shedPass :=
  .foldl _ (fun s _ => .ite (within_shedOutlet s _) (.refl _ s)) _ s

theorem within_restoreLoop (n : Nat) (s : State) :
    Within [.moments, .pwb, .spc] s (State.restoreLoop n s) := by
  induction n generalizing s with
  | zero => exact .refl _ s
  | succ n ih =>
    unfold State.restoreLoop
    split
    · exact .refl _ s
    · split
      · exact ((within_pwb s _).andThen (within_energise _ _ _) :
          Within [.moments, .pwb, .spc] s _).trans (ih _)
      · exact .refl _ s

theorem within_restorePass : Within [.moments, .pwb, .spc] s s.restorePass := within_restoreLoop _ s

theorem within_serveHead (d : Demand) : Within pwbParts s (s.serveHead d) := by
  unfold State.serveHead
  dsimp only
  split
  · exact (within_popDemand s).andThen (within_energise _ _ _)
  · exact ((within_popDemand s).trans (within_pwb _ _)).andThen (within_raiseServed _ _)
  · exact ((within_popDemand s).andThen (within_modSale _ _ _) : Within [.pwb, .fdc] s _).andThen
      (within_tryAuthorise _ _)

theorem within_failHead (d : Demand) (c : FailCause) (b : Bool) :
    Within pwbParts s (s.failHead d c b) := by
  have h : Within [.pwb] s (s.popDemand.setFlagIf b .askShort) :=
    (within_popDemand s).andThen (within_setFlagIf _ _ _)
  unfold State.failHead
  dsimp only
  split
  · exact h.andThen (within_shedFailed _ _ _)
  · exact h.andThen (within_raiseOutcome _ _ _)
  · exact h.andThen (within_pumpFailed _ _ _)

theorem within_recallOne (n : Nat) : Within [.pwb, .lif] s (s.recallOne n) := by
  unfold State.recallOne; split
  · exact .refl _ s
  · exact (within_pwb s _).andThen (within_queueFrame _ _)

theorem within_recallFor (l : List Nat) : Within [.pwb, .lif] s (s.recallFor l) :=
  (Within.foldl _ within_recallOne l s).andThen (within_modHead _ _)

theorem within_askFor (d : Demand) (a : Nat) : Within [.pwb, .lif] s (s.askFor d a) :=
  ((within_pwb s _).trans (within_modHead _ _)).andThen (within_queueFrame _ _)

theorem within_examineLoop (n : Nat) (s : State) : Within pwbParts s (State.examineLoop n s) := by
  induction n generalizing s with
  | zero => exact .refl _ s
  | succ n ih =>
    unfold State.examineLoop
    split
    · exact .refl _ s
    · split
      · exact (within_serveHead s _).trans (ih _)
      · split
        · exact .refl _ s
        · exact (within_recallFor s _).mono (by decide)
        · exact (within_askFor s _ _).mono (by decide)
        · exact (within_failHead s _ _ _).trans (ih _)

theorem within_settle : Within pwbParts s s.settle := by
  unfold State.settle
  dsimp only
  split
  · exact (within_examineLoop _ s).andThen (within_restorePass _)
  · exact within_examineLoop _ s

theorem within_settleSince (b : State) : Within pwbParts s (s.settleSince b) := by
  unfold State.settleSince
  dsimp only
  split
  · exact (within_examineLoop _ s).andThen (within_restorePass _)
  · exact within_examineLoop _ s

/-- What `settle` can answer: the head's examination, with the restore pass after it where it leaves the
queue empty (R55, R57). -/
theorem settle_cases :
    let t := s.examineLoop (s.pwb.demands.length + 1)
    (t.pwb.demands = [] ∧ s.settle = t.restorePass) ∨ (t.pwb.demands ≠ [] ∧ s.settle = t) := by
  unfold State.settle
  dsimp only
  split
  · exact .inl ⟨List.isEmpty_iff.1 ‹_›, rfl⟩
  · exact .inr ⟨fun h => ‹¬ _› (List.isEmpty_iff.2 h), rfl⟩

/-- C has risen or G has fallen since a state (R55). -/
theorem freedSince_iff (b : State) :
    s.freedSince b = true ↔ b.ceiling < s.ceiling ∨ s.load < b.load := by
  simp [State.freedSince]

/-- What `settleSince` can answer: the head's examination, with the restore pass after it where it leaves
the queue empty and C rose, G fell or the queue was not empty before (R55). -/
theorem settleSince_cases (b : State) :
    let t := s.examineLoop (s.pwb.demands.length + 1)
    (t.pwb.demands = [] ∧ (s.freedSince b = true ∨ b.pwb.demands ≠ []) ∧
      s.settleSince b = t.restorePass) ∨
    ((t.pwb.demands ≠ [] ∨ (s.freedSince b = false ∧ b.pwb.demands = [])) ∧ s.settleSince b = t) := by
  unfold State.settleSince
  dsimp only
  split
  next h =>
    simp only [Bool.and_eq_true, Bool.or_eq_true, List.isEmpty_iff, Bool.not_eq_true',
      List.isEmpty_eq_false_iff] at h
    exact .inl ⟨h.1, h.2, rfl⟩
  next h =>
    refine .inr ⟨?_, rfl⟩
    simp only [Bool.and_eq_true, Bool.or_eq_true, List.isEmpty_iff, Bool.not_eq_true',
      List.isEmpty_eq_false_iff, not_and, not_or, ne_eq, not_not, Bool.not_eq_true] at h
    by_cases hd : (s.examineLoop (s.pwb.demands.length + 1)).pwb.demands = []
    · exact .inr (h hd)
    · exact .inl hd

theorem within_appendDemand (k : DemandKind) (a b : Nat) :
    Within [.moments, .pwb] s (s.appendDemand k a b) :=
  (within_stamp s).andThen (within_pwb _ _)

theorem within_submitEnergise (n need : Nat) : Within pwbParts s (s.submitEnergise n need) := by
  unfold State.submitEnergise
  split
  · exact .refl _ s
  · split
    · exact (within_shedFailed s _ _).mono (by decide)
    · dsimp only
      split
      · exact (within_appendDemand s _ _ _).andThen (within_settle _)
      · exact (within_appendDemand s _ _ _).mono (by decide)

theorem within_outletOut (n : Nat) (o : OutletState) : Within [.pwb, .spc] s (s.outletOut n o) :=
  (((within_dropOutlet s n).trans (within_dropDemands _ n)).andThen (within_setOutlet _ _ _) :
    Within [.pwb, .spc] s _).andThen (within_raiseOutcome _ _ _)

theorem within_outletOff (n : Nat) (o : OutletState) : Within pwbParts s (s.outletOff n o) :=
  (within_outletOut s n o).andThen (within_settleSince _ _)

theorem within_releaseLoad (n : Nat) : Within pwbParts s (s.releaseLoad n) :=
  (within_modSale s _ _).andThen (within_settle _)

theorem within_withdrawPump (n : Nat) : Within pwbParts s (s.withdrawPump n) :=
  (within_pwb s _).andThen (within_settleSince _ _)

theorem within_endUnused (n : Nat) (c : AuthCause) (r : LapseReason) :
    Within pwbParts s (s.endUnused n c r) := by
  unfold State.endUnused
  split
  · exact .refl _ s
  · split
    · exact (within_endUnusedCore s _ _ _).andThen (within_withdrawPump _ _)
    · exact (within_endUnusedCore s _ _ _).andThen (within_settle _)

theorem within_ceilingFell : Within pwbParts s s.ceilingFell := by
  unfold State.ceilingFell
  exact .ite ((within_shedPass s).andThen (within_settleSince _ _)) (.refl _ s)

theorem within_declineOffers (l : List Offer) : Within [.lif] s (s.declineOffers l) :=
  .foldl (fun s (o : Offer) => s.queueFrame (loanDeclineFrame s.me o.lender o.pledge))
    (fun s _ => within_queueFrame s _) _ s

theorem within_takeOffer (x : Offer × Nat) : Within [.pwb, .lif] s (s.takeOffer x) := by
  unfold State.takeOffer
  dsimp only
  split
  · exact (within_modLoan s _ _ _).andThen (within_queueFrame _ _)
  · exact (within_pwb s _).andThen (within_queueFrame _ _)

theorem within_shedIfShort : Within [.pwb, .spc] s s.shedIfShort :=
  .ite (within_shedPass s) (.refl _ s)

theorem within_endStale (c : Collection) : Within [.pwb] s (s.endStale c) :=
  (within_pwb s _).trans (within_dropLoans _ _)

theorem within_takeAsked (c : Collection) (d : Demand) : Within pwbParts s (s.takeAsked c d) := by
  unfold State.takeAsked
  dsimp only
  split
  · refine .ite ?_ ?_
    · exact ((Within.foldl _ within_takeOffer _ s).andThen (within_declineOffers _ _) :
        Within [.pwb, .lif] s _).andThen (within_settle _)
    · exact (((Within.foldl _ within_takeOffer _ s).andThen (within_declineOffers _ _) :
        Within [.pwb, .lif] s _).andThen (within_failHead _ _ _ _) : Within pwbParts s _).trans
        (within_settle _)
  · exact ((within_declineOffers s _).andThen (within_failHead _ _ _ _) : Within pwbParts s _).trans
      (within_settle _)

theorem within_closeOffers (c : Collection) (b : Bool) : Within pwbParts s (s.closeOffers c b) := by
  unfold State.closeOffers
  split
  · exact .ite ((within_declineOffers s _).andThen (within_settle _))
      ((within_declineOffers s _).mono (by decide))
  · exact within_takeAsked s _ _

theorem within_closeCollection (c : Collection) : Within pwbParts s (s.closeCollection c) := by
  unfold State.closeCollection
  refine .ite ?_ ?_
  · exact ((within_endStale s c).andThen (within_shedPass _) : Within [.pwb, .spc] s _).andThen
      (within_closeOffers _ _ _)
  · exact (within_endStale s c).andThen (within_closeOffers _ _ _)

theorem within_askFailed (c : Collection) : Within pwbParts s (s.askFailed c) := by
  unfold State.askFailed
  dsimp only
  split
  · exact ((within_pwb s _).andThen (within_failHead _ _ _ _) : Within pwbParts s _).trans
      (within_settle _)
  · exact .ite ((within_pwb s _).mono (by decide)) ((within_pwb s _).andThen (within_settle _))

theorem within_abandonAsk : Within pwbParts s s.abandonAsk := by
  unfold State.abandonAsk
  dsimp only
  split
  · exact (within_pwb s _).andThen (within_failHead _ _ _ _)
  · exact (within_pwb s _).mono (by decide)

theorem within_loansLineOff : Within pwbParts s s.loansLineOff := by
  have h : Within pwbParts s ((s.dropLoans fun _ => true).shedIfShort.abandonAsk) :=
    ((within_dropLoans s _).andThen (within_shedIfShort _) : Within [.pwb, .spc] s _).andThen
      (within_abandonAsk _)
  unfold State.loansLineOff
  exact .ite (h.trans (within_settleSince _ _)) (h.trans (within_settle _))

theorem within_dropOffer (n : Nat) : Within [.pwb] s (s.dropOffer n) := within_pwb s _

theorem within_loansOnJoin (n : Nat) : Within pwbParts s (s.loansOnJoin n) := by
  unfold State.loansOnJoin
  refine .ite ?_ ((within_dropOffer s n).mono (by decide))
  exact (((within_dropOffer s n).trans (within_dropLoans _ _)).andThen (within_shedIfShort _) :
    Within [.pwb, .spc] s _).andThen (within_settle _)

/-! ### SPC -/

theorem within_modPost (n : Nat) (f : Post → Post) : Within [.spc] s (s.modPost n f) := within_spc s _

theorem within_chargeLink (n o : Nat) : Within [.spc] s (s.chargeLink n o) := by
  unfold State.chargeLink
  refine Within.trans ?_ (within_modPoint _ _ _)
  exact .ite (.refl _ s) (within_spc s _)

theorem within_callEnergise (n : Nat) (r : Occupancy) : Within pwbParts s (s.callEnergise n r) := by
  unfold State.callEnergise
  split
  · exact (within_setOutlet s _ _).mono (by decide)
  · split
    · exact (within_setOutlet s _ _).andThen (within_submitEnergise _ _ _)
    · exact .refl _ s

theorem within_commandArrival (n : Nat) (r : Occupancy) : Within pwbParts s (s.commandArrival n r) := by
  unfold State.commandArrival
  refine .ite (.ite ((within_setOutlet s _ _).mono (by decide)) ?_) (.refl _ s)
  exact (within_callEnergise s _ _).andThen (within_followTap _ _)

theorem within_spcArrive (n : Nat) (r : Occupancy) : Within pwbParts s (s.spcArrive n r) := by
  unfold State.spcArrive
  split
  · exact .refl _ s
  · refine .ite ((within_chargeLink s _ _).andThen (within_commandArrival _ _ _))
      (.ite (.refl _ s) ((within_modPoint s _ _).mono (by decide)))

theorem within_clearAwaiting (n : Nat) : Within [.occ, .spc] s (s.clearAwaiting n) :=
  (within_modOcc s _ _).andThen (within_testRemoval _ _)

theorem within_markFinal (n : Nat) : Within [.moments, .spc] s (s.markFinal n) :=
  (within_stamp s).andThen (within_modPoint _ _ _)

theorem within_spcDepart (n o : Nat) (m : FinalMark) : Within pwbParts s (s.spcDepart n o m) := by
  unfold State.spcDepart
  split
  · exact .refl _ s
  · refine .ite ?_ (.ite ((within_modPoint s _ _).andThen (within_clearAwaiting _ _)) (.refl _ s))
    exact ((within_outletOff s _ _).andThen (within_closeTap _ _) : Within pwbParts s _).andThen
      (within_modPoint _ _ _)

theorem within_spcBar (n : Nat) (r : Occupancy) : Within pwbParts s (s.spcBar n r) := by
  unfold State.spcBar
  split
  · exact .refl _ s
  · refine .ite ?_ (.refl _ s)
    exact (Within.ite (within_outletOff s _ _)
      (.ite ((within_setOutlet s _ _).mono (by decide)) (.refl _ s))).andThen (within_closeTap _ _)

theorem within_spcUnbar (n : Nat) (r : Occupancy) : Within pwbParts s (s.spcUnbar n r) := by
  unfold State.spcUnbar
  split
  · exact .refl _ s
  · refine .ite ?_ (.refl _ s)
    exact (Within.ite (within_callEnergise s _ _) (.refl _ s)).andThen (within_followTap _ _)

theorem within_noticeEvent (k : NoticeKind) (o : Nat)
    (body : FinalMark → Nat → Occupancy → State → State) (h : ∀ m n r s, Within pwbParts s (body m n r s)) : Within pwbParts s (s.noticeEvent k o body) := by
  simp only [State.noticeEvent, State.event]
  split
  · split
    · split
      · split
        · split
          · exact ((within_occ s _).mono (by decide)).trans (h _ _ _ _)
          · exact (within_occ s _).mono (by decide)
        · exact (within_occ s _).mono (by decide)
      · exact .refl _ s
    · exact .refl _ s
  · exact .refl _ s

theorem within_nextPoll : Within [.moments, .spc] s s.nextPoll := by
  unfold State.nextPoll
  split
  · exact (within_spc s _).mono (by decide)
  · exact (within_stamp s).andThen (within_spc _ _)

theorem within_startCycle : Within [.moments, .spc] s s.startCycle :=
  (within_spc s _).andThen (within_nextPoll _)

theorem within_modLink (n : Nat) (f : Link → Link) : Within [.spc] s (s.modLink n f) := within_spc s _

theorem within_chargeEnergy (n d : Nat) : Within [.occ, .spc] s (s.chargeEnergy n d) := by
  unfold State.chargeEnergy; split
  · exact .refl _ s
  · exact (within_modLink s _ _).andThen (within_debit _ _ _)

theorem within_chargeWater (n d : Nat) : Within [.occ, .spc] s (s.chargeWater n d) := by
  unfold State.chargeWater; split
  · exact .refl _ s
  · exact (within_modLink s _ _).andThen (within_debit _ _ _)

theorem within_meterEnergy (n c : Nat) : Within [.occ, .spc] s (s.meterEnergy n c) := by
  unfold State.meterEnergy
  split
  · exact .refl _ s
  · split
    · exact .refl _ s
    · exact .ite (.refl _ s) (.ite ((within_setFlag s _).mono (by decide))
        (.ite ((within_setFlag s _).mono (by decide)) (within_chargeEnergy s _ _)))

theorem within_leak (n l : Nat) : Within [.lif, .spc] s (s.leak n l) := by
  unfold State.leak
  split
  · exact .refl _ s
  · refine .ite ((within_setFlag s _).mono (by decide)) ?_
    exact ((within_setFlag s _).andThen (within_modPoint _ _ _) : Within [.spc] s _).andThen
      (within_alarm _ _ _ _)

theorem within_meterWater (n c : Nat) : Within [.lif, .occ, .spc] s (s.meterWater n c) := by
  unfold State.meterWater
  split
  · exact .refl _ s
  · split
    · exact .refl _ s
    · exact .ite ((within_modPoint s _ _).mono (by decide)) (.ite ((within_leak s _ _).mono (by decide))
        (.ite ((within_setFlag s _).mono (by decide)) ((within_chargeWater s _ _).mono (by decide))))

theorem within_recordBases (n e w : Nat) : Within [.spc] s (s.recordBases n e w) := within_spc s _

theorem within_takeTrip (n : Nat) (a b : Bool) : Within pwbParts s (s.takeTrip n a b) := by
  unfold State.takeTrip
  split
  · exact .refl _ s
  · refine .ite ?_ (.ite ((within_modPoint s _ _).mono (by decide)) (.refl _ s))
    exact ((within_modPoint s _ _).andThen (within_outletOff _ _ _) : Within pwbParts s _).andThen
      (within_setFlag _ _)

theorem within_takeTurn (n : Nat) (r : Occupancy) : Within pwbParts s (s.takeTurn n r) := by
  unfold State.takeTurn
  exact .ite (.ite (.ite ((within_setOutlet s _ _).mono (by decide)) ((within_followTap s _).mono (by decide)))
    (.refl _ s)) (within_commandArrival s _ _)

theorem within_nextArrival (n : Nat) : Within pwbParts s (s.nextArrival n) := by
  unfold State.nextArrival
  split
  · dsimp only
    split
    · exact (within_modPoint s _ _).mono (by decide)
    · refine .ite ?_ ?_
      · exact (((within_modPoint s _ _).trans (within_chargeLink _ _ _)).andThen
          (within_takeTurn _ _ _) : Within pwbParts s _).andThen (within_markFinal _ _)
      · exact ((within_modPoint s _ _).trans (within_chargeLink _ _ _)).andThen
          (within_takeTurn _ _ _)
  · exact .refl _ s

theorem within_takeRetained (n m : Nat) : Within [.occ, .spc] s (s.takeRetained n m) := by
  unfold State.takeRetained
  split
  · exact .refl _ s
  · exact (within_modPoint s _ _).andThen
      (Within.foldl (fun s (o : Nat) => s.clearAwaiting o) (fun s o => within_clearAwaiting s o) _ _)

theorem within_takeMarked (n m : Nat) (f : FinalMark) (r : Occupancy) :
    Within pwbParts s (s.takeMarked n m f r) :=
  .ite (((within_modPoint s _ _).andThen (within_clearAwaiting _ _) :
    Within [.occ, .spc] s _).andThen (within_nextArrival _ _)) (.refl _ s)

theorem within_takeFinal (n m : Nat) : Within pwbParts s (s.takeFinal n m) := by
  unfold State.takeFinal
  split
  · exact .refl _ s
  · refine .ite (within_nextArrival s _) ?_
    split
    · exact within_takeMarked s _ _ _ _
    · exact .refl _ s

theorem within_acceptSide (n e w : Nat) (a b : Bool) (m : Nat) :
    Within pwbParts s (s.acceptSide n e w a b m) := by
  unfold State.acceptSide
  refine .ite ?_ (.refl _ s)
  exact (((((within_takeTrip s _ _ _).andThen (within_meterEnergy _ _ _) : Within pwbParts s _).andThen
    (within_meterWater _ _ _) : Within pwbParts s _).andThen (within_recordBases _ _ _ _) :
    Within pwbParts s _).andThen (within_takeRetained _ _ _) : Within pwbParts s _).trans
    (within_takeFinal _ _ _)

theorem within_returnOutlet (n : Nat) : Within pwbParts s (s.returnOutlet n) := by
  unfold State.returnOutlet
  split
  · exact .refl _ s
  · refine .ite ?_ (.refl _ s)
    split
    · exact .ite (.ite ((within_setOutlet s _ _).mono (by decide)) (within_callEnergise s _ _))
        ((within_setOutlet s _ _).mono (by decide))
    · exact (within_setOutlet s _ _).mono (by decide)

theorem within_postGood (n : Nat) : Within pwbParts s (s.postGood n) := by
  unfold State.postGood
  split
  · exact .refl _ s
  · refine .ite ((within_modPost s _ _).mono (by decide)) ?_
    exact ((within_modPost s _ _).andThen (within_returnOutlet _ _) : Within pwbParts s _).trans
      (within_returnOutlet _ _)

theorem within_badPoll (n : Nat) : Within [.lif, .spc] s (s.badPoll n) := by
  unfold State.badPoll
  split
  · exact .refl _ s
  · refine .ite ?_ ((within_modPost s _ _).mono (by decide))
    exact ((within_modPost s _ _).andThen (within_setFlag _ _) : Within [.spc] s _).andThen
      (within_alarm _ _ _ _)

theorem within_acceptReport (p : OpenPoll) (r : PostReport) :
    Within pwbParts s (s.acceptReport p r) :=
  ((within_acceptSide s _ _ _ _ _ _).trans (within_acceptSide _ _ _ _ _ _ _)).trans
    (within_postGood _ _)

theorem within_faultOutlet (n : Nat) : Within [.pwb, .spc] s (s.faultOutlet n) := by
  unfold State.faultOutlet
  split
  · exact .refl _ s
  · exact .ite (within_outletOut s _ _) (.refl _ s)

theorem within_markRetained (n o : Nat) : Within [.moments, .spc] s (s.markRetained n o) :=
  (within_stamp s).andThen (within_modPoint _ _ _)

theorem within_retainLink (n : Nat) : Within [.moments, .spc] s (s.retainLink n) := by
  unfold State.retainLink
  split
  · exact .refl _ s
  · refine .ite (.refl _ s) ?_
    split
    · exact .refl _ s
    · split
      · exact .refl _ s
      · refine .ite ?_ (.ite ((within_modPoint s _ _).andThen (within_markRetained _ _ _))
          ((within_modPoint s _ _).andThen (within_spc _ _)))
        exact .ite ((within_chargeLink s _ _).andThen (within_markFinal _ _))
          (.ite ((within_chargeLink s _ _).andThen (within_setOutlet _ _ _))
            ((within_chargeLink s _ _).mono (by decide)))

theorem within_retainEnergise (n : Nat) : Within pwbParts s (s.retainEnergise n) := by
  unfold State.retainEnergise
  split
  · exact .refl _ s
  · split
    · exact .refl _ s
    · split
      · exact .refl _ s
      · exact .ite (within_commandArrival s _ _) (.refl _ s)

theorem within_firstOnLine : Within pwbParts s s.firstOnLine := by
  unfold State.firstOnLine
  refine .ite ?_ (.refl _ s)
  exact ((within_spc s _).mono (by decide)).trans (.foldl _ within_retainEnergise _ _)

end Pwb

end Sys2Proof.Machine
end

