-- ==== Sys2Proof/Laws/Blocks.lean ====
section
/-! SUPPORT. The frame laws of the shared operations of FDC, BAL, GTC, CAP and SCH, and of LIF's
changes of station state. -/

namespace Sys2Proof.Machine

set_option Elab.async false

section Blocks
variable (s : State)

/-! ### FDC -/

theorem within_reserve (n p q : Nat) (c : Option Nat) (k : PumpConfig) :
    Within [.fdc] s (s.reserve n p q c k) :=
  (within_fdc s _).andThen (within_setFlagIf _ _ _)

theorem within_sendHoldAsk (n a : Nat) : Within [.fdc, .lif] s (s.sendHoldAsk n a) := by
  unfold State.sendHoldAsk
  split
  · exact .refl _ s
  · split
    · exact .refl _ s
    · exact (within_modPump s _ _).andThen (within_queueFrame _ _)

theorem within_beginAsk (n : Nat) : Within [.fdc, .lif] s (s.beginAsk n) :=
  (within_modPump s _ _).andThen (within_sendHoldAsk _ _ _)

theorem within_askUnanswered (n : Nat) : Within pwbParts s (s.askUnanswered n) := by
  unfold State.askUnanswered
  split
  · exact .refl _ s
  · exact .ite ((within_sendHoldAsk s _ _).mono (by decide)) (within_endUnused s _ _ _)

theorem within_shutValves (n : Nat) : Within [.fdc] s (s.shutValves n) := within_modPump s _ _
theorem within_openValves (n : Nat) : Within [.fdc] s (s.openValves n) := within_modPump s _ _

theorem within_toFinishing (n : Nat) : Within [.fdc] s (s.toFinishing n) :=
  (within_shutValves s _).trans (within_modSale _ _ _)

theorem within_flagRecord (n : Nat) (f : SaleFlags → SaleFlags) :
    Within [.fdc] s (s.flagRecord n f) := by
  unfold State.flagRecord; split
  · exact within_modRecord s _ _
  · exact .refl _ s

theorem within_countPulse (n k : Nat) : Within [.fdc] s (s.countPulse n k) := by
  unfold State.countPulse; split
  · exact .refl _ s
  · exact (within_modSale s _ _).trans (within_modRecord _ _ _)

theorem within_checkVolume (n : Nat) : Within [.fdc] s (s.checkVolume n) := by
  unfold State.checkVolume
  split
  · exact .refl _ s
  · refine .ite ?_ (.ite ?_ (.refl _ s))
    · exact ((within_modSale s _ _).trans (within_flagRecord _ _ _)).trans (within_toFinishing _ _)
    · exact (within_modSale s _ _).trans (within_modPump _ _ _)

theorem within_startDelivery (n : Nat) (c : PumpConfig) : Within [.fdc] s (s.startDelivery n c) := by
  unfold State.startDelivery; split
  · exact .refl _ s
  · exact ((within_modSale s _ _).trans (within_openValves _ _)).trans (within_modRecord _ _ _)

theorem within_closeSale (n : Nat) : Within [.fdc] s (s.closeSale n) := by
  unfold State.closeSale; split
  · exact .refl _ s
  · exact (((within_modRecord s _ _).trans (within_modPump _ _ _)).andThen (within_setFlag _ _) :
      Within [.fdc] s _).andThen (within_setFlagIf _ _ _)

theorem within_closeUnsettled (n : Nat) : Within [.fdc] s (s.closeUnsettled n) :=
  (within_flagRecord s _ _).trans (within_closeSale _ _)

theorem within_sendSettle (n a : Nat) : Within [.fdc, .lif] s (s.sendSettle n a) := by
  unfold State.sendSettle
  split
  · exact .refl _ s
  · split
    · exact .refl _ s
    · exact (within_modSale s _ _).andThen (within_queueFrame _ _)

theorem within_settleUnanswered (n : Nat) : Within [.fdc, .lif] s (s.settleUnanswered n) := by
  unfold State.settleUnanswered
  split
  · exact .refl _ s
  · exact .ite (within_sendSettle s _ _) ((within_closeUnsettled s _).mono (by decide))

theorem within_finishSale (n : Nat) : Within pwbParts s (s.finishSale n) := by
  unfold State.finishSale
  split
  · exact .refl _ s
  · rename_i x _
    have h := ((within_modRecord s x.number _).andThen (within_releaseLoad _ n) :
      Within pwbParts s (State.releaseLoad n (s.modRecord x.number fun r => r.priced s.now)))
    dsimp only
    split
    · exact h.andThen (within_closeSale _ _)
    · refine .ite ?_ (h.andThen (within_closeUnsettled _ _))
      exact (h.andThen (within_modSale _ _ _) : Within pwbParts s _).andThen (within_sendSettle _ _ _)

theorem within_pumpLineOff (n : Nat) : Within pwbParts s (s.pumpLineOff n) := by
  unfold State.pumpLineOff
  split
  · exact .refl _ s
  · split
    · exact .refl _ s
    · exact .ite (within_endUnused s _ _ _) (.ite ((within_closeUnsettled s _).mono (by decide))
        (.refl _ s))

theorem within_pumpEmergency (n : Nat) : Within pwbParts s (s.pumpEmergency n) := by
  unfold State.pumpEmergency
  split
  · exact .refl _ s
  · split
    · exact within_endUnused s _ _ _
    · exact within_endUnused s _ _ _
    · exact ((within_flagRecord s _ _).trans (within_toFinishing _ _)).mono (by decide)
    · exact ((within_flagRecord s _ _).trans (within_toFinishing _ _)).mono (by decide)
    · exact .refl _ s
    · exact .refl _ s

/-! ### BAL -/

theorem within_modRound (t : Sys2Proof.Tag) (f : Round → Round) : Within [.bal] s (s.modRound t f) :=
  within_bal s _
theorem within_setMark (b : Nat) (t : Sys2Proof.Tag) : Within [.bal] s (s.setMark b t) := within_bal s _
theorem within_clearMark (t : Sys2Proof.Tag) : Within [.bal] s (s.clearMark t) := within_bal s _
theorem within_dropRound (t : Sys2Proof.Tag) : Within [.bal] s (s.dropRound t) := within_bal s _

theorem within_withdrawBid (r : Round) : Within [.lif] s (s.withdrawBid r) := by
  unfold State.withdrawBid; split
  · exact within_withdrawFrame s _
  · exact .refl _ s

theorem within_discardRound (r : Round) : Within [.bal, .lif] s (s.discardRound r) :=
  ((within_withdrawBid s _).andThen (within_clearMark _ _) : Within [.bal, .lif] s _).andThen
    (within_dropRound _ _)

theorem within_endDelay (r : Round) : Within [.bal, .lif] s (s.endDelay r) := by
  unfold State.endDelay; split
  · exact .refl _ s
  · exact (within_modRound s _ _).andThen (within_queueFrame _ _)

theorem within_hearKey (r : Round) (k : BidKey) : Within [.bal, .lif] s (s.hearKey r k) := by
  unfold State.hearKey
  refine .ite (.refl _ s) ?_
  dsimp only
  refine .ite ((within_modRound s _ _).mono (by decide)) ?_
  split
  · exact (((within_modRound s _ _).trans (within_modRound _ _ _)).trans (within_clearMark _ _)).mono
      (by decide)
  · exact (((within_modRound s _ _).andThen (within_withdrawBid _ _) : Within [.bal, .lif] s _).andThen
      (within_modRound _ _ _) : Within [.bal, .lif] s _).andThen (within_clearMark _ _)
  · exact (((within_modRound s _ _).trans (within_modRound _ _ _)).trans (within_clearMark _ _)).mono
      (by decide)
  · exact (within_modRound s _ _).mono (by decide)

theorem within_openRound (t : Sys2Proof.Tag) (q : BerthRequest) (b : Bool) :
    Within [.bal, .lif] s (s.openRound t q b) := by
  unfold State.openRound
  dsimp only
  split
  · exact (within_bal s _).mono (by decide)
  · refine .ite ?_ (((within_bal s _).trans (within_setMark _ _ _)).mono (by decide))
    exact ((within_bal s _).trans (within_setMark _ _ _)).andThen (within_endDelay _ _)

theorem within_winRound (r : Round) : Within [.lif, .bal, .occ] s (s.winRound r) := by
  unfold State.winRound
  split
  · split
    · rename_i n u h
      exact ((within_createOcc s h).andThen ((within_clearMark u _).trans (within_modRound _ _ _)) :
        Within [.lif, .bal, .occ] s _).andThen (within_queueFrame _ _)
    · exact (within_discardRound s _).andThen (within_setFlag _ _)
  · exact (within_discardRound s _).mono (by decide)

theorem within_loseDouble (r : Round) : Within [.lif, .bal, .occ, .spc] s (s.loseDouble r) := by
  have h : Within [.occ, .spc] s (match r.occupancy.bind s.occ? with
      | some o => if o.state == OccState.booked && o.origin = some r.tag then s.removeOcc o.number else s
      | none => s) := by
    split
    · exact .ite (within_removeOcc s _) (.refl _ s)
    · exact .refl _ s
  exact (h.andThen (within_setFlag _ _) : Within [.occ, .spc] s _).andThen (within_discardRound _ _)

theorem within_awaitHear (t : Sys2Proof.Tag) (a : AssignHeard) : Within [.bal] s (s.awaitHear t a) :=
  within_bal s _

theorem within_endAwait (o : Origination) : Within [.bal] s (s.endAwait o) :=
  (within_bal s _).andThen (within_setFlag _ _)

theorem within_roundsLineOff : Within [.bal] s s.roundsLineOff := by
  unfold State.roundsLineOff
  exact .ite ((within_bal s _).trans (within_endAwait _ _)) (within_bal s _)

theorem within_roundsOnJoin (n : Nat) : Within [.bal, .lif] s (s.roundsOnJoin n) :=
  .foldl (fun s r => s.discardRound r) (fun s r => within_discardRound s r) _ s

/-! ### GTC and CAP -/

theorem within_releaseLatch : Within [.gtc] s s.releaseLatch := within_gtc s _
theorem within_setNight (b : Bool) : Within [.gtc] s (s.setNight b) := within_gtc s _
theorem within_setLockdown (b : Bool) : Within [.gtc] s (s.setLockdown b) := within_gtc s _
theorem within_modStaff (n : Nat) (f : Staff → Staff) : Within [.gtc] s (s.modStaff n f) :=
  within_gtc s _

theorem within_decide (d : Decision) : Within [.gtc] s (s.decide_ d) :=
  ((within_gtc s _).andThen (within_setFlag _ _) : Within [.gtc] s _).andThen (within_setFlagIf _ _ _)

theorem within_refuseRead (c : Nat) (b : Bool) (f : Option Found) (p : Bool) (g : GateCause) :
    Within [.gtc] s (s.refuseRead c b f p g) := within_decide s _

theorem within_arriveOnGrant (f : Found) : Within [.occ] s (s.arriveOnGrant f) := by
  unfold State.arriveOnGrant
  split
  · split
    · exact .ite (within_toAlongside s _) (.refl _ s)
    · exact .refl _ s
  · exact .refl _ s

theorem within_grantRead (c : Nat) (b : Bool) (f : Found) (p : Bool) :
    Within [.occ, .gtc] s (s.grantRead c b f p) :=
  ((within_arriveOnGrant s f).andThen (within_releaseLatch _) : Within [.occ, .gtc] s _).andThen
    (within_decide _ _)

theorem within_tellReader (b : Bool) : Within [.gtc] s (s.tellReader b) := within_gtc s _
theorem within_openEntry (c : Nat) (b : Bool) (f : Found) : Within [.gtc] s (s.openEntry c b f) :=
  (within_gtc s _).trans (within_tellReader _ _)
theorem within_closeEntry : Within [.gtc] s s.closeEntry := (within_gtc s _).trans (within_tellReader _ _)

theorem within_decideRead (c : Nat) (b : Bool) : Within [.occ, .gtc] s (s.decideRead c b) := by
  unfold State.decideRead
  split
  · exact (within_refuseRead s _ _ _ _ _).mono (by decide)
  · split
    · exact (within_refuseRead s _ _ _ _ _).mono (by decide)
    · split
      · exact within_grantRead s _ _ _ _
      · exact (within_refuseRead s _ _ _ _ _).mono (by decide)
      · exact (within_openEntry s _ _ _).mono (by decide)

theorem within_pinOutcome (f : Found) (b : Bool) : Within [.occ, .gtc] s (s.pinOutcome f b) := by
  unfold State.pinOutcome
  split
  · refine .ite ((within_modStaff s _ _).mono (by decide)) ?_
    exact (within_modStaff s _ _).andThen (within_setFlagIf _ _ _)
  · exact .ite ((within_correctPin s _).mono (by decide)) ((within_wrongPin s _).mono (by decide))

theorem within_judgeEntry (e : PinEntry) : Within [.occ, .gtc] s (s.judgeEntry e) := by
  unfold State.judgeEntry
  dsimp only
  split
  · exact (within_closeEntry s).andThen (within_refuseRead _ _ _ _ _ _)
  · refine .ite ?_ ?_
    · exact ((within_closeEntry s).andThen (within_pinOutcome _ _ _) : Within [.occ, .gtc] s _).trans
        (within_grantRead _ _ _ _ _)
    · exact ((within_closeEntry s).andThen (within_pinOutcome _ _ _) : Within [.occ, .gtc] s _).andThen
        (within_refuseRead _ _ _ _ _ _)

theorem within_editEntry (e : PinEntry) (l : List Nat) : Within [.gtc] s (s.editEntry e l) :=
  within_gtc s _

theorem within_capture (e : Edge) : Within [.cap] s (s.capture e) :=
  (within_cap s _).andThen (within_setFlagIf _ _ _)

/-! ### SCH -/

theorem within_modEntry (n : Nat) (f : ScheduleEntry → ScheduleEntry) :
    Within [.sch] s (s.modEntry n f) := within_sch s _
theorem within_fire (k : ScheduleKind) : Within [.sch] s (s.fire k) := within_sch s _
theorem within_expire (n : Nat) : Within [.sch] s (s.expire n) := within_sch s _

theorem within_takeFiring (k : ScheduleKind) : Within [.sch] s (s.takeFiring k) := by
  unfold State.takeFiring; split
  · exact within_sch s _
  · exact .refl _ s

theorem within_setDue (n d : Nat) : Within [.sch] s (s.setDue n d) := by
  unfold State.setDue
  refine .ite (within_modEntry s _ _) ?_
  exact (within_modEntry s _ _).andThen (within_setFlag _ _)

theorem within_armEntry (e : ScheduleEntry) : Within [.sch] s (s.armEntry e) := by
  unfold State.armEntry
  refine .ite (.refl _ s) ?_
  dsimp only
  refine .ite (.ite (within_setDue s _ _) ?_) (.ite (within_setDue s _ _) (.ite ?_ (within_setDue s _ _)))
  · exact .ite ((within_fire s _).trans (within_expire _ _)) ((within_fire s _).trans (within_setDue _ _ _))
  · exact (within_expire s _).andThen (within_setFlag _ _)

theorem within_armAll : Within [.sch] s s.armAll := .foldl _ within_armEntry _ s

theorem within_passEntry (n : Nat) (e : ScheduleEntry) : Within [.sch] s (State.passEntry n s e) := by
  unfold State.passEntry
  split
  · refine .ite ?_ (.refl _ s)
    exact .ite ((within_fire s _).trans (within_expire _ _)) ((within_fire s _).trans (within_setDue _ _ _))
  · exact .refl _ s

theorem within_stepClock (a b : Nat) : Within [.sch, .occ, .spc] s (s.stepClock a b) := by
  unfold State.stepClock
  dsimp only
  refine .ite ?_ ((within_sch s _).mono (by decide))
  have h : Within [.sch] s (({ s with sch := { s.sch with sec := a, ms := b, us := 0 } } : State).sch.places.foldl
      (State.passEntry s.now.toMs) { s with sch := { s.sch with sec := a, ms := b, us := 0 } }) :=
    (within_sch s _).trans (.foldl _ (within_passEntry · _) _ _)
  exact .ite (h.mono (by decide)) (h.andThen (within_lapseDue _))

theorem within_setClock (a b : Nat) : Within [.sch, .occ, .spc] s (s.setClock a b) :=
  (within_stepClock s a b).andThen (within_setFlag _ _)

theorem within_wrapClock : Within [.elapsed, .sch] s s.wrapClock := within_advance s _

/-! ### LIF's changes of station state, and the acceptance of JOIN -/

theorem within_enterJoining (k : JoinKind) : Within [.lif] s (s.enterJoining k) :=
  (within_lif s _).trans (within_queueFrame _ _)

theorem within_noticeLineOff : Within lineParts s s.noticeLineOff :=
  (((within_roundsLineOff s).andThen (within_loansLineOff _) : Within lineParts s _).andThen
    (within_pumpLineOff _ _) : Within lineParts s _).andThen (within_pumpLineOff _ _)

theorem within_failQueued : Within [.lif] s s.failQueued :=
  (within_lif s _).trans
    (.foldl (fun s f => s.giveReport f false) (fun s f => within_giveReport s f false) _ _)

theorem within_enterLineOff : Within lineParts s s.enterLineOff :=
  ((((within_lif s _).andThen (within_setFlag _ _) : Within [.lif] s _).andThen
    (within_noticeLineOff _) : Within lineParts s _).andThen (within_failQueued _) :
    Within lineParts s _).andThen (within_lif _ _)

theorem within_enterOnLine : Within pwbParts s s.enterOnLine :=
  ((within_lif s _).andThen (within_setFlag _ _) : Within [.lif] s _).andThen (within_firstOnLine _)

theorem within_meetRecord (n : Nat) : Within [.occ, .spc] s (s.meetRecord n) := by
  unfold State.meetRecord
  split
  · exact .refl _ s
  · refine .ite ?_ ((within_modOcc s _ _).mono (by decide))
    exact (((within_modOcc s _ _).andThen (within_setFlagIf _ _ _) : Within [.occ] s _).andThen
      (within_setFlag _ _) : Within [.occ] s _).andThen (within_testRemoval _ _)

theorem within_meetRecords : Within [.occ, .spc] s s.meetRecords :=
  Within.foldl _ (fun s n => (within_meetRecord s n).trans (within_lapseRecord _ n)) _ s

theorem within_beginPolling : Within [.moments, .spc] s s.beginPolling :=
  (within_spc s _).andThen (within_startCycle _)

theorem within_acceptJoin : Within [.lif, .sch, .occ, .spc, .moments] s s.acceptJoin := by
  have h := (((within_enterJoining s s.startKind.joinKind).andThen (within_armAll _) :
    Within [.lif, .sch] s _).andThen (within_meetRecords _) : Within [.lif, .sch, .occ, .spc] s _)
  exact ((h.andThen (Within.foldl _ within_retainLink _ _) :
    Within [.lif, .sch, .occ, .spc, .moments] s _).andThen (within_beginPolling _))

end Blocks

end Sys2Proof.Machine
end

