-- ==== Sys2Proof/Laws/Bytes.lean ====
section
/-! SUPPORT. What the gathering of received bytes does (R212, R213), and a raised count (R77, R104). -/

namespace Sys2Proof

set_option Elab.async false

/-- Bytes before the first report mark are discarded (R212). -/
theorem reportIn_skip (noise l : List Byte) (h : 0x5A#8 ∉ noise) : reportIn (noise ++ l) = reportIn l := by
  induction noise with
  | nil => rfl
  | cons b r ih =>
    simp only [List.mem_cons, not_or] at h
    simpa only [List.cons_append, reportIn, if_neg (Ne.symm h.1)] using ih h.2

/-- With no frame begun the moment of an earlier mark bears on nothing (R213). -/
theorem readerCommands_idle (t : Nat) (rest : List (Nat × Byte)) :
    readerCommands [] t rest = decodeReader rest := by
  cases rest <;> rfl

/-- Bytes in time that leave a frame incomplete are gathered (R213). -/
theorem readerCommands_gather {mark : Byte} {n : Nat} (hn : readerLength mark = some n) (t : Nat)
    (held : List Byte) (later rest : List (Nat × Byte)) (ht : ∀ x ∈ later, x.1 ≤ t + 100000)
    (hl : held.length + 1 + later.length < n) :
    readerCommands (mark :: held) t (later ++ rest) =
      readerCommands (mark :: (held ++ later.map Prod.snd)) t rest := by
  induction later generalizing held with
  | nil => simp
  | cons x l ih =>
    obtain ⟨u, b⟩ := x
    have hu : ¬ t + 100000 < u := Nat.not_lt.mpr (ht (u, b) (by simp))
    have hk : ¬ some n = some ((mark :: held).length + 1) := by simp at hl ⊢; omega
    simp only [List.cons_append, readerCommands, hu, if_false, hn, hk]
    simpa using ih (held ++ [b]) (fun x hx => ht x (by simp [hx])) (by simp at hl ⊢; omega)

namespace Machine

/-- A raised counter stays within its 32 bits. -/
theorem raiseCount_lt (total added : Nat) : raiseCount total added < 2 ^ 32 := Nat.mod_lt _ (by decide)

/-- Within its range a counter rises by what is added (R88, R89, R113). -/
theorem raiseCount_within {total added : Nat} (h : total + added < 2 ^ 32) :
    raiseCount total added = total + added := Nat.mod_eq_of_lt h

end Machine

end Sys2Proof
end

