-- ==== Sys2Proof/Laws/Requests.lean ====
section
/-! SUPPORT. What taking a request, an event, a received frame, a report or a notice comes to. -/

namespace Sys2Proof.Machine

set_option Elab.async false

/-! ### Requests -/

theorem State.request_off {code : Nat} {body : State → State × Reply} {s : State}
    (h : s.powered = false) : s.request code body = s.endTransaction := by
  simp [State.request, h]

theorem State.request_discarded {code : Nat} {body : State → State × Reply} {s : State}
    (h : s.pnp.discards = true) : s.request code body = s.endTransaction := by
  simp [State.request, h]

theorem State.request_taken {code : Nat} {body : State → State × Reply} {s : State}
    (h : Takes code s) :
    s.request code body =
      (body (s.takeFrame code)).1.writeAnswer code (body (s.takeFrame code)).2 := by
  obtain ⟨hp, hd, hu⟩ := h
  have : (s.unconfigured && !takenUnconfigured code) = false := by
    by_cases hs : s.lif.state = .unconfigured
    · simp [hu hs]
    · simp [State.unconfigured, hs]
  simp [State.request, hp, hd, this]

theorem State.request_unconfigured {code : Nat} {body : State → State × Reply} {s : State}
    (hp : s.powered = true) (hd : s.pnp.discards = false) (hs : s.lif.state = .unconfigured)
    (hc : takenUnconfigured code = false) :
    s.request code body = { s with pnp := s.pnp.refusedBy code (.refused .state) } := by
  simp [State.request, hp, hd, State.unconfigured, State.refuseFrame, hs, hc, State.writeAnswer,
    Pnp.refusedBy, Pnp.answered]

/-- A body that leaves the state as the taking left it answers, and changes PNP alone. -/
theorem State.answer_unchanged {code : Nat} {r : Reply} {s : State} :
    (s.takeFrame code).writeAnswer code r = { s with pnp := s.pnp.answered code r } := rfl

theorem State.readRequest_taken {code : Nat} {body : State → Reply} {s : State} (h : Takes code s) :
    s.readRequest code body =
      { s with pnp := s.pnp.answered code (body (s.takeFrame code)) } := by
  rw [State.readRequest, State.request_taken h, State.answer_unchanged]

theorem onlyChanges_pnp (s : State) (p : Pnp) : OnlyChanges [.pnp] s { s with pnp := p } := by
  intro q hq; cases q <;> simp_all [State.agree]

/-- A request changes PNP and what its body changes. -/
theorem State.request_frame {ps : List Part} {code : Nat} {body : State → State × Reply} (s : State)
    (h : ∀ u, Within ps u (body u).1) : OnlyChanges (.pnp :: ps) s (s.request code body) := by
  have hp : ∀ (u : State) (p : Pnp), OnlyChanges (.pnp :: ps) u { u with pnp := p } := fun u p =>
    (onlyChanges_pnp u p).mono (by simp)
  unfold State.request
  split
  · exact hp s _
  · split
    · exact hp s _
    · split
      · exact (hp s _).trans (hp _ _)
      · exact ((hp s _).trans (h _).frame).trans (hp _ _)

theorem State.readRequest_frame {code : Nat} {body : State → Reply} (s : State) :
    OnlyChanges [.pnp] s (s.readRequest code body) :=
  State.request_frame s fun u => Within.refl [] u

/-- A request taken leaves the next answer number, its own code and the ready mark; one that the station
state does not take is refused by PNP and leaves no request to decide (R180, R181, R184). -/
theorem State.request_answers {ps : List Part} {code : Nat} {body : State → State × Reply} {s : State}
    (h : ∀ u, Within ps u (body u).1) (hp : s.powered = true) (hd : s.pnp.discards = false) :
    (s.request code body).pnp.answerNo = (s.pnp.answerNo + 1) % 256 ∧
    (s.request code body).pnp.answer.number = (s.pnp.answerNo + 1) % 256 ∧
    (s.request code body).pnp.answer.code = code ∧ (s.request code body).pnp.ready = true ∧
    (s.request code body).pnp.transaction = none ∧
    (s.request code body).pnp.request =
      (if s.unconfigured && !takenUnconfigured code then none else some code) := by
  have hb := (h (s.takeFrame code)).port
  have e : (body (s.takeFrame code)).1.pnp.answerNo = s.pnp.answerNo ∧
      (body (s.takeFrame code)).1.pnp.transaction = none ∧
      (body (s.takeFrame code)).1.pnp.request = some code := by
    rcases hb with hb | ⟨m, hb⟩ <;> rw [hb] <;> exact ⟨rfl, rfl, rfl⟩
  unfold State.request
  simp only [hp, hd, Bool.not_true, Bool.false_eq_true, if_false]
  split
  · simp [State.writeAnswer, State.refuseFrame]
  · simp [State.writeAnswer, e]

/-! ### Events -/

theorem State.event_off {body : State → State} {s : State} (h : s.powered = false) :
    s.event body = s := by simp [State.event, h]

theorem State.event_on {body : State → State} {s : State} (h : s.powered = true) :
    s.event body = body s := by simp [State.event, h]

theorem State.event_frame {ps : List Part} {body : State → State} (s : State)
    (h : ∀ u, Within ps u (body u)) : Within ps s (s.event body) :=
  Within.ite (h s) (.refl _ s)

/-! ### Received frames, reports, notices -/

/-- A block takes a frame from the front of the receive queue (R173). -/
theorem State.takeRx_line {kind : Nat} {s : State} {f : Frame} {r : List Frame}
    (h : s.lif.rx = f :: r) (hk : f.kind = kind) :
    s.takeRx kind .line = some (f, none, { s with lif := { s.lif with rx := r } }) := by
  simp [State.takeRx, h, hk]

theorem State.takeRx_frame {kind : Nat} {src : RxSource} {s u : State} {f : Frame} {n : Option Nat}
    (h : s.takeRx kind src = some (f, n, u)) : Within [.lif] s u := by
  unfold State.takeRx at h
  split at h
  · split at h
    · split at h
      · cases h; exact within_lif s _
      · cases h
    · cases h
  · split at h
    · cases h; exact within_lif s _
    · cases h

theorem State.frameEvent_taken {kind : Nat} {src : RxSource} {s u : State} {f : Frame}
    {n : Option Nat} {body : Frame → Option Nat → State → State} (hp : s.powered = true)
    (h : s.takeRx kind src = some (f, n, u)) : s.frameEvent kind src body = body f n u := by
  simp [State.frameEvent, State.event, hp, h]

theorem State.frameEvent_frame {ps : List Part} {kind : Nat} {src : RxSource} (s : State)
    {body : Frame → Option Nat → State → State} (hl : Part.lif ∈ ps)
    (h : ∀ f n u, Within ps u (body f n u)) : Within ps s (s.frameEvent kind src body) := by
  refine State.event_frame s fun u => ?_
  split
  · rename_i f n v hv
    exact ((State.takeRx_frame hv).mono (by simpa using hl)).trans (h f n v)
  · exact .refl _ u

theorem State.reportEvent_taken {kind : Nat} {s : State} {r : Report} {rest : List Report}
    {body : Report → State → State} (hp : s.powered = true)
    (h : takeFirst (fun r => r.frame.kind == kind) s.lif.reports = some (r, rest)) :
    s.reportEvent kind body = body r { s with lif := { s.lif with reports := rest } } := by
  simp [State.reportEvent, State.event, hp, h]

theorem State.reportEvent_frame {ps : List Part} {kind : Nat} (s : State)
    {body : Report → State → State} (hl : Part.lif ∈ ps)
    (h : ∀ r u, Within ps u (body r u)) : Within ps s (s.reportEvent kind body) := by
  refine State.event_frame s fun u => ?_
  split
  · rename_i r rest _
    exact ((within_lif u _).mono (by simpa using hl)).trans (h r _)
  · exact .refl _ u

/-- What `takeFirst` takes: an entry of the list that meets the test, the first to do so. -/
theorem takeFirst_some {α : Type} {p : α → Bool} {l r : List α} {x : α}
    (h : takeFirst p l = some (x, r)) :
    p x = true ∧ ∃ a b, l = a ++ x :: b ∧ r = a ++ b ∧ ∀ y ∈ a, p y = false := by
  induction l generalizing r with
  | nil => cases h
  | cons y l ih =>
    unfold takeFirst at h
    split at h
    · rename_i hy
      cases h
      exact ⟨hy, [], l, rfl, rfl, by simp⟩
    · rename_i hy
      cases hl : takeFirst p l with
      | none => rw [hl] at h; cases h
      | some z =>
        rw [hl] at h
        cases h
        obtain ⟨hz, a, b, e, e', ha⟩ := ih hl
        exact ⟨hz, y :: a, b, by rw [e]; rfl, by rw [e']; rfl, by
          intro w hw
          rcases List.mem_cons.mp hw with rfl | hw
          · simpa using hy
          · exact ha w hw⟩

theorem takeFirst_none {α : Type} {p : α → Bool} {l : List α} :
    takeFirst p l = none ↔ ∀ x ∈ l, p x = false := by
  induction l with
  | nil => simp [takeFirst]
  | cons y l ih =>
    unfold takeFirst
    split
    · rename_i hy; simp [hy]
    · rename_i hy
      simp [Option.map_eq_none_iff, ih, hy]

/-! ### Keyed tables -/

theorem lookupKey_some {α : Type} {key : α → Nat} {n : Nat} {l : List α} {x : α}
    (h : lookupKey key n l = some x) : x ∈ l ∧ key x = n := by
  unfold lookupKey at h
  exact ⟨List.mem_of_find?_eq_some h, by simpa using List.find?_some h⟩

theorem lookupKey_insertKey {α : Type} (key : α → Nat) (x : α) (l : List α) :
    lookupKey key (key x) (insertKey key x l) = some x := by
  induction l with
  | nil => simp [lookupKey, insertKey]
  | cons y l ih =>
    unfold insertKey
    split
    · simp [lookupKey]
    · split
      · simp [lookupKey]
      · rename_i h₁ h₂
        have : (key y == key x) = false := by simpa using fun h => h₂ h.symm
        simpa [lookupKey, List.find?, this] using ih

theorem lookupKey_insertKey_ne {α : Type} (key : α → Nat) (x : α) (l : List α) {n : Nat}
    (h : n ≠ key x) : lookupKey key n (insertKey key x l) = lookupKey key n l := by
  have hx : (key x == n) = false := by simpa using fun e => h e.symm
  induction l with
  | nil => simp [lookupKey, insertKey, hx]
  | cons y l ih =>
    unfold insertKey
    split
    · simp [lookupKey, List.find?, hx]
    · split
      · rename_i h₂
        have hy : (key y == n) = false := by rw [← h₂]; exact hx
        simp [lookupKey, List.find?, hx, hy]
      · simp only [lookupKey, List.find?] at ih ⊢
        split
        · rfl
        · exact ih

/-- The number `lowestFree` gives is free, in range, and no lower one is free. -/
theorem lowestFree_some {used : List Nat} {n k : Nat} (h : lowestFree used n = some k) :
    1 ≤ k ∧ k ≤ n ∧ k ∉ used ∧ ∀ j, 1 ≤ j → j < k → j ∈ used := by
  unfold lowestFree at h
  obtain ⟨hk, as, bs, e, ha⟩ := List.find?_eq_some_iff_append.mp h
  have hm : k ∈ (List.range n).map (· + 1) := by rw [e]; simp
  obtain ⟨i, hi, rfl⟩ := List.mem_map.mp hm
  rw [List.mem_range] at hi
  refine ⟨by omega, by omega, by simpa using hk, fun j h1 hj => ?_⟩
  have hjm : j ∈ (List.range n).map (· + 1) :=
    List.mem_map.mpr ⟨j - 1, List.mem_range.mpr (by omega), by omega⟩
  have hs : ((List.range n).map (· + 1)).Pairwise (· < ·) :=
    List.Pairwise.map _ (fun _ _ h => Nat.add_lt_add_right h 1) List.pairwise_lt_range
  rw [e] at hs hjm
  rcases List.mem_append.mp hjm with hj' | hj'
  · have := ha j hj'
    simpa using this
  · rcases List.mem_cons.mp hj' with rfl | hj'
    · omega
    · have := (List.pairwise_cons.mp (List.pairwise_append.mp hs).2.1).1 j hj'
      omega

/-- The number `nextFreeIn` gives lies in its range and is not in use. -/
theorem nextFreeIn_some {lo hi : Nat} {used : List Nat} {tries last k : Nat} (hl : lo ≤ hi)
    (h : nextFreeIn lo hi used tries last = some k) : lo ≤ k ∧ k ≤ hi ∧ k ∉ used := by
  induction tries generalizing last with
  | zero => cases h
  | succ m ih =>
    unfold nextFreeIn at h
    dsimp only at h
    generalize hc : (if (decide (last < lo) || decide (hi ≤ last)) = true then lo else last + 1) = c at h
    split at h
    · exact ih h
    · rename_i hu
      cases h
      refine ⟨?_, ?_, by simpa using hu⟩ <;> · subst hc; split <;> simp_all <;> omega

/-- The candidate after a number in range. -/
theorem next_in_range {lo hi c : Nat} (h₁ : lo ≤ c) (h₂ : c ≤ hi) :
    (if c < lo || hi ≤ c then lo else c + 1) = lo + (c - lo + 1) % (hi - lo + 1) := by
  by_cases h : hi ≤ c
  · have : c = hi := by omega
    subst this
    simp
  · have h' : ¬ c < lo := by omega
    rw [Nat.mod_eq_of_lt (by omega)]
    simp [h, h']
    omega

/-- Where no number is found, every candidate tried is in use. -/
theorem nextFreeIn_none {lo hi : Nat} {used : List Nat} (hl : lo ≤ hi) (tries last : Nat)
    (h : nextFreeIn lo hi used tries last = none) :
    ∃ c, ∀ i, i < tries → lo + (c + i) % (hi - lo + 1) ∈ used := by
  induction tries generalizing last with
  | zero => exact ⟨0, fun i hi => absurd hi (by omega)⟩
  | succ m ih =>
    unfold nextFreeIn at h
    dsimp only at h
    generalize hc : (if (decide (last < lo) || decide (hi ≤ last)) = true then lo else last + 1) = c at h
    have hr : lo ≤ c ∧ c ≤ hi := by subst hc; split <;> (simp_all; try omega)
    split at h
    · rename_i hu
      refine ⟨c - lo, fun i hi' => ?_⟩
      have hstep : ∀ (t last : Nat), lo ≤ last → last ≤ hi → nextFreeIn lo hi used t last = none →
          ∀ i, i < t → lo + (last - lo + 1 + i) % (hi - lo + 1) ∈ used := by
        intro t
        induction t with
        | zero => intro _ _ _ _ i hi; omega
        | succ t iht =>
          intro last h1 h2 hn i hi'
          unfold nextFreeIn at hn
          dsimp only at hn
          rw [next_in_range h1 h2] at hn
          split at hn
          · rename_i hu'
            cases i with
            | zero => simpa using hu'
            | succ i =>
              have hlt := Nat.mod_lt (last - lo + 1) (show 0 < hi - lo + 1 by omega)
              have := iht _ (by omega) (by omega) hn i (by omega)
              rw [Nat.add_sub_cancel_left, Nat.add_assoc, Nat.mod_add_mod] at this
              rwa [show last - lo + 1 + (i + 1) = last - lo + 1 + (1 + i) by omega]
          · cases hn
      cases i with
      | zero =>
        rw [Nat.add_zero, Nat.mod_eq_of_lt (by omega), Nat.add_sub_of_le hr.1]
        simpa using hu
      | succ i =>
        have := hstep m c hr.1 hr.2 h i (by omega)
        rwa [show c - lo + (i + 1) = c - lo + 1 + i by omega]
    · cases h

/-- Residues met within one round of the modulus are distinct. -/
theorem residues_nodup (lo c n t : Nat) (h : t ≤ n) :
    ((List.range t).map fun i => lo + (c + i) % n).Nodup := by
  refine List.Nodup.map_on ?_ List.nodup_range
  intro i hi j hj e
  rw [List.mem_range] at hi hj
  have e' : (c + i) % n = (c + j) % n := by omega
  have h1 := Nat.div_add_mod (c + i) n
  have h2 := Nat.div_add_mod (c + j) n
  rcases Nat.lt_trichotomy i j with hij | hij | hij
  · exfalso
    have : n ∣ (c + j) - (c + i) := (Nat.modEq_iff_dvd' (by omega)).mp e'
    have := Nat.le_of_dvd (by omega) this
    omega
  · exact hij
  · exfalso
    have : n ∣ (c + i) - (c + j) := (Nat.modEq_iff_dvd' (by omega)).mp e'.symm
    have := Nat.le_of_dvd (by omega) this
    omega

/-- A number is found while fewer are in use than the range has (R40, R53, R124). -/
theorem nextFree_isSome {lo hi last : Nat} {used : List Nat} (h : used.length < hi - lo + 1)
    (hl : lo ≤ hi) : (nextFree lo hi last used).isSome = true := by
  cases hn : nextFree lo hi last used with
  | some _ => rfl
  | none =>
    exfalso
    obtain ⟨c, hc⟩ := nextFreeIn_none hl _ _ hn
    have hd := residues_nodup lo c (hi - lo + 1) (used.length + 1) (by omega)
    have hs : ((List.range (used.length + 1)).map fun i => lo + (c + i) % (hi - lo + 1)) ⊆ used := by
      intro x hx
      obtain ⟨i, hi', rfl⟩ := List.mem_map.mp hx
      exact hc i (List.mem_range.mp hi')
    have := (List.Nodup.subperm hd hs).length_le
    simp at this

end Sys2Proof.Machine
end

