-- ==== Sys2Proof/Laws/Settle.lean ====
section
/-! SUPPORT. What PWB's examination of the head and its passes leave as it was: one induction principle for
each, and from them the point, the pump, the line state and the flags of a state PWB has gone on from. -/

namespace Sys2Proof.Machine

set_option Elab.async false

/-! ### Tables -/

theorem lookupKey_modifyKey {α : Type} {key : α → Nat} {f : α → α} (hf : ∀ x, key (f x) = key x)
    (n m : Nat) (l : List α) :
    lookupKey key m (modifyKey key n f l) =
      if m = n then (lookupKey key m l).map f else lookupKey key m l := by
  have e : lookupKey key m (modifyKey key n f l) =
      (lookupKey key m l).map fun x => if key x = n then f x else x := by
    unfold lookupKey modifyKey
    rw [List.find?_map]
    congr 2
    funext x
    simp only [Function.comp_apply]
    split <;> simp [hf]
  rw [e]
  cases h : lookupKey key m l with
  | none => simp
  | some x =>
    have hx : key x = m := by simpa using List.find?_some h
    by_cases hm : m = n <;> simp [hx, hm]

theorem lookupKey_eraseKey {α : Type} (key : α → Nat) (n m : Nat) (l : List α) :
    lookupKey key m (eraseKey key n l) = if m = n then none else lookupKey key m l := by
  induction l with
  | nil => simp [lookupKey, eraseKey]
  | cons x r ih =>
    simp only [lookupKey, eraseKey, List.filter_cons, List.find?_cons] at ih ⊢
    by_cases hx : key x = n <;> by_cases hm : m = n <;> cases hxm : key x == m <;>
      simp_all

section
variable (s : State)

theorem modPoint_point? {f : Point → Point} (hf : ∀ p, (f p).number = p.number) (n m : Nat) :
    (s.modPoint n f).point? m = if m = n then (s.point? m).map f else s.point? m :=
  lookupKey_modifyKey hf n m s.spc.points

theorem modPoint_point?_ne {f : Point → Point} {n q : Nat} (h : n ≠ q)
    (hf : ∀ p, (f p).number = p.number) : (s.modPoint n f).point? q = s.point? q := by
  rw [modPoint_point? s hf, if_neg (Ne.symm h)]

theorem modPoint_point?_self {f : Point → Point} {n : Nat} {p : Point} (h : s.point? n = some p)
    (hf : ∀ p, (f p).number = p.number) : (s.modPoint n f).point? n = some (f p) := by
  rw [modPoint_point? s hf, if_pos rfl, h]; rfl

theorem modOcc_occ? {f : Occupancy → Occupancy} (hf : ∀ r, (f r).number = r.number) (n m : Nat) :
    (s.modOcc n f).occ? m = if m = n then (s.occ? m).map f else s.occ? m :=
  lookupKey_modifyKey hf n m s.occ.records

theorem modPump_pump? (f : Pump → Pump) (n m : Nat) :
    (s.modPump n f).pump? m = if m = n then (s.pump? m).map f else s.pump? m := by
  by_cases h1 : m = 1 <;> by_cases h2 : m = 2 <;> by_cases h3 : n = 1 <;> by_cases h4 : n = 2 <;>
    simp_all [State.modPump, State.pump?, eq_comm]

end

/-! ### What an examination and a pass keep -/

/-- What serving, failing, recalling and asking keep, an examination keeps. -/
theorem examineLoop_keeps {P : State → Prop}
    (serve : ∀ s d rest, s.pwb.demands = d :: rest → P s → P (s.serveHead d))
    (fail : ∀ s d rest c b, s.pwb.demands = d :: rest → P s → P (s.failHead d c b))
    (recalls : ∀ s l, P s → P (s.recallFor l)) (ask : ∀ s d a, P s → P (s.askFor d a)) (n : Nat) :
    ∀ s, P s → P (State.examineLoop n s) := by
  induction n with
  | zero => exact fun _ h => h
  | succ n ih =>
    intro s h
    unfold State.examineLoop
    split
    · exact h
    · rename_i d rest hd
      split
      · exact ih _ (serve s d rest hd h)
      · split
        · exact h
        · exact recalls s _ h
        · exact ask s d _ h
        · exact ih _ (fail s d rest _ _ hd h)

/-- What the return of the shed list's front keeps, a restore pass keeps. -/
theorem restorePass_keeps {P : State → Prop}
    (back : ∀ s e r, s.pwb.shed = e :: r → P s →
      P (({ s with pwb := { s.pwb with shed := r } } : State).energise e.point e.figure))
    (s : State) (h : P s) : P s.restorePass := by
  unfold State.restorePass
  generalize s.pwb.shed.length = n
  induction n generalizing s with
  | zero => exact h
  | succ n ih =>
    unfold State.restoreLoop
    split
    · exact h
    · split
      · exact ih _ (back s _ _ ‹_› h)
      · exact h

/-- What every step of PWB keeps, `settle` and `settleSince` keep. -/
theorem settle_keeps {P : State → Prop}
    (serve : ∀ s d rest, s.pwb.demands = d :: rest → P s → P (s.serveHead d))
    (fail : ∀ s d rest c b, s.pwb.demands = d :: rest → P s → P (s.failHead d c b))
    (recalls : ∀ s l, P s → P (s.recallFor l)) (ask : ∀ s d a, P s → P (s.askFor d a))
    (back : ∀ s e r, s.pwb.shed = e :: r → P s →
      P (({ s with pwb := { s.pwb with shed := r } } : State).energise e.point e.figure))
    (s before : State) (h : P s) : P s.settle ∧ P (s.settleSince before) := by
  have hx := examineLoop_keeps serve fail recalls ask (s.pwb.demands.length + 1) s h
  constructor
  · rcases settle_cases s with ⟨_, e⟩ | ⟨_, e⟩ <;> rw [e]
    · exact restorePass_keeps back _ hx
    · exact hx
  · rcases settleSince_cases s before with ⟨_, _, e⟩ | ⟨_, e⟩ <;> rw [e]
    · exact restorePass_keeps back _ hx
    · exact hx

/-! ### Frames read one field at a time -/

section
variable {s t : State} {ps : List Part}

theorem Within.spc (h : Within ps s t) (hp : Part.spc ∉ ps := by decide) : t.spc = s.spc :=
  h.frame .spc (by simp [hp])

theorem Within.fdc (h : Within ps s t) (hp : Part.fdc ∉ ps := by decide) : t.fdc = s.fdc :=
  h.frame .fdc (by simp [hp])

theorem Within.pwb (h : Within ps s t) (hp : Part.pwb ∉ ps := by decide) : t.pwb = s.pwb :=
  h.frame .pwb (by simp [hp])

theorem Within.occ (h : Within ps s t) (hp : Part.occ ∉ ps := by decide) : t.occ = s.occ :=
  h.frame .occ (by simp [hp])

theorem point?_congr (h : t.spc = s.spc) (q : Nat) : t.point? q = s.point? q := by
  simp [State.point?, h]

theorem pump?_congr (h : t.fdc = s.fdc) (n : Nat) : t.pump? n = s.pump? n := by
  simp [State.pump?, h]

/-- A flag once set stays: PNP changes by flags set alone. -/
theorem Within.hasFlag (h : Within ps s t) {f : Flag} (hf : s.hasFlag f = true) :
    t.hasFlag f = true := by
  rcases h.port with e | ⟨m, e⟩
  · rw [State.hasFlag, e]; exact hf
  · simp only [State.hasFlag, bne_iff_ne, ne_eq] at hf ⊢
    intro h0
    apply hf
    rw [e, show (s.pnp.flagged m).flags = s.pnp.flags ||| m from rfl] at h0
    refine BitVec.eq_of_getLsbD_eq fun i _ => ?_
    have := congrArg (fun x => x.getLsbD i) h0
    simp only [BitVec.getLsbD_and, BitVec.getLsbD_or] at this ⊢
    cases h1 : s.pnp.flags.getLsbD i <;> simp_all

end

/-! ### Points -/

section
variable (s : State)

theorem setFlag_point? (f : Flag) (q : Nat) : (s.setFlag f).point? q = s.point? q := rfl

theorem setOutlet_point? {n q : Nat} (h : n ≠ q) (o : OutletState) :
    (s.setOutlet n o).point? q = s.point? q := by
  exact modPoint_point?_ne s h fun _ => rfl

theorem raiseOutcome_point? {n q : Nat} (h : n ≠ q) (o : RaiseOutcome) :
    (s.raiseOutcome n o).point? q = s.point? q := by
  unfold State.raiseOutcome
  split
  · exact modPoint_point?_ne s h fun _ => rfl
  · rfl

theorem energise_point? {n q : Nat} (h : n ≠ q) (f : Nat) :
    (s.energise n f).point? q = s.point? q := by
  exact modPoint_point?_ne _ h fun _ => rfl

theorem shedFailed_point? {n q : Nat} (h : n ≠ q) (f : Nat) :
    (s.shedFailed n f).point? q = s.point? q := by
  exact setOutlet_point? _ h .shed

theorem Point.setTap_number (p : Point) (b : Bool) : (p.setTap b).number = p.number := by
  unfold Point.setTap; split <;> rfl

theorem raiseServed_point? {n q : Nat} (h : n ≠ q) : (s.raiseServed n).point? q = s.point? q := by
  unfold State.raiseServed
  split
  · rfl
  · split
    · refine (raiseOutcome_point? _ h _).trans ((modPoint_point?_ne _ h fun p => ?_).trans ?_)
      · exact p.setTap_number _
      · exact modPoint_point?_ne _ h fun _ => rfl
    · rfl

theorem serveHead_point? {d : Demand} {q : Nat} (h : d.kind = .pump ∨ d.source ≠ q) :
    (s.serveHead d).point? q = s.point? q := by
  unfold State.serveHead
  dsimp only
  split
  · exact energise_point? _ (by simpa [*] using h) _
  · exact raiseServed_point? _ (by simpa [*] using h)
  · exact point?_congr (((within_popDemand s).andThen (within_modSale _ _ _) :
      Within [.pwb, .fdc] s _).andThen (within_tryAuthorise _ _) : Within [.pwb, .fdc] s _).spc q

theorem failHead_point? {d : Demand} {q : Nat} (h : d.kind = .pump ∨ d.source ≠ q) (c : FailCause)
    (b : Bool) : (s.failHead d c b).point? q = s.point? q := by
  have hb : Within [.pwb] s (s.popDemand.setFlagIf b .askShort) :=
    (within_popDemand s).andThen (within_setFlagIf _ _ _)
  unfold State.failHead
  dsimp only
  split
  · exact (shedFailed_point? _ (by simpa [*] using h) _).trans (point?_congr hb.spc q)
  · exact (raiseOutcome_point? _ (by simpa [*] using h) _).trans (point?_congr hb.spc q)
  · exact point?_congr ((hb.andThen (within_pumpFailed _ _ _) :
      Within [.pwb, .fdc, .lif] s _)).spc q

end

/-! ### The queue and the shed list -/

section
variable (s : State)

theorem mem_insertMoment {e x : OutletLoad} {l : List OutletLoad} :
    x ∈ insertMoment e l ↔ x = e ∨ x ∈ l := by
  induction l with
  | nil => simp [insertMoment]
  | cons y r ih =>
    unfold insertMoment
    split
    · simp
    · simp only [List.mem_cons, ih]; tauto

/-- The head served leaves the queue, and the shed list stays (R57). -/
theorem serveHead_lists (d : Demand) :
    (s.serveHead d).pwb.demands = s.pwb.demands.tail ∧ (s.serveHead d).pwb.shed = s.pwb.shed := by
  unfold State.serveHead
  dsimp only
  split
  · exact ⟨rfl, rfl⟩
  · rw [(within_raiseServed _ _).pwb]; exact ⟨rfl, rfl⟩
  · rw [(within_tryAuthorise _ _).pwb, (within_modSale _ _ _).pwb]; exact ⟨rfl, rfl⟩

/-- The head failed leaves the queue; an ENERGISE demand puts its outlet on the shed list (R60). -/
theorem failHead_lists (d : Demand) (c : FailCause) (b : Bool) :
    (s.failHead d c b).pwb.demands = s.pwb.demands.tail ∧
    ∀ e ∈ (s.failHead d c b).pwb.shed, e ∈ s.pwb.shed ∨ (d.kind = .energise ∧ e.point = d.source) := by
  have h : (s.popDemand.setFlagIf b .askShort).pwb = s.popDemand.pwb := (within_setFlagIf _ _ _).pwb
  unfold State.failHead
  dsimp only
  split
  next hk =>
    have e : ∀ t : State, (t.shedFailed d.source d.need).pwb = { t.pwb with
        shed := insertMoment ⟨d.source, d.need, t.moments + 1⟩ t.pwb.shed } := fun _ => rfl
    rw [e, h]
    refine ⟨rfl, fun x hx => ?_⟩
    rcases mem_insertMoment.1 hx with rfl | hx
    · exact .inr ⟨hk, rfl⟩
    · exact .inl hx
  · rw [(within_raiseOutcome _ _ _).pwb, h]; exact ⟨rfl, fun _ hx => .inl hx⟩
  · rw [(within_pumpFailed _ _ _).pwb, h]; exact ⟨rfl, fun _ hx => .inl hx⟩

/-- The head changed in what neither its kind nor its source is. -/
theorem modHead_demands {f : Demand → Demand} (hf : ∀ d, (f d).kind = d.kind ∧ (f d).source = d.source)
    {d : Demand} (hd : d ∈ (s.modHead f).pwb.demands) :
    ∃ x ∈ s.pwb.demands, d.kind = x.kind ∧ d.source = x.source := by
  simp only [State.modHead] at hd
  cases h : s.pwb.demands with
  | nil => simp [h] at hd
  | cons x r =>
    rw [h] at hd
    rcases List.mem_cons.1 hd with rfl | hd
    · exact ⟨x, by simp, hf x⟩
    · exact ⟨d, by simp [hd], rfl, rfl⟩

theorem recallOne_lists (n : Nat) :
    (s.recallOne n).pwb.demands = s.pwb.demands ∧ (s.recallOne n).pwb.shed = s.pwb.shed := by
  unfold State.recallOne
  split
  · exact ⟨rfl, rfl⟩
  · dsimp only
    rw [(within_queueFrame _ _).pwb]
    exact ⟨rfl, rfl⟩

/-- Recalls leave each demand's kind and source, and the shed list (R58). -/
theorem recallFor_lists (l : List Nat) :
    (∀ d ∈ (s.recallFor l).pwb.demands, ∃ x ∈ s.pwb.demands, d.kind = x.kind ∧ d.source = x.source) ∧
    (s.recallFor l).pwb.shed = s.pwb.shed := by
  have h : (l.foldl State.recallOne s).pwb.demands = s.pwb.demands ∧
      (l.foldl State.recallOne s).pwb.shed = s.pwb.shed := by
    induction l generalizing s with
    | nil => exact ⟨rfl, rfl⟩
    | cons n r ih =>
      have a := ih (s.recallOne n)
      have b := recallOne_lists s n
      exact ⟨a.1.trans b.1, a.2.trans b.2⟩
  refine ⟨fun d hd => ?_, h.2⟩
  have := modHead_demands (l.foldl State.recallOne s) (f := fun d => { d with recalls := d.recalls ++ l })
    (fun _ => ⟨rfl, rfl⟩) hd
  rwa [h.1] at this

/-- An ask leaves each demand's kind and source, and the shed list (R59). -/
theorem askFor_lists (d : Demand) (a : Nat) :
    (∀ d' ∈ (s.askFor d a).pwb.demands, ∃ x ∈ s.pwb.demands, d'.kind = x.kind ∧ d'.source = x.source) ∧
    (s.askFor d a).pwb.shed = s.pwb.shed := by
  unfold State.askFor
  dsimp only
  rw [(within_queueFrame _ _).pwb]
  exact ⟨fun d' hd => modHead_demands _ (f := fun d => { d with asked := true }) (fun _ => ⟨rfl, rfl⟩) hd,
    rfl⟩

/-- An outlet that is in no list of PWB's but G is left as it is: no ENERGISE or RAISE demand of it waits,
and it is not shed. -/
def Apart (q : Nat) (x : Option Point) (s : State) : Prop :=
  s.point? q = x ∧ (∀ d ∈ s.pwb.demands, d.kind = .pump ∨ d.source ≠ q) ∧ ∀ e ∈ s.pwb.shed, e.point ≠ q

/-- Whatever PWB goes on to do, an outlet with no demand in the queue and not shed stays as it is. -/
theorem settle_apart {q : Nat} {x : Option Point} (before : State) (h : Apart q x s) :
    Apart q x s.settle ∧ Apart q x (s.settleSince before) := by
  refine settle_keeps ?_ ?_ ?_ ?_ ?_ s before h
  · rintro s d rest hd ⟨h1, h2, h3⟩
    have e := serveHead_lists s d
    refine ⟨(serveHead_point? s (h2 d (by simp [hd]))).trans h1, ?_, ?_⟩
    · rw [e.1]; exact fun x hx => h2 x (List.mem_of_mem_tail hx)
    · rw [e.2]; exact h3
  · rintro s d rest c b hd ⟨h1, h2, h3⟩
    have e := failHead_lists s d c b
    have hq := h2 d (by simp [hd])
    refine ⟨(failHead_point? s hq c b).trans h1, ?_, fun x hx => ?_⟩
    · rw [e.1]; exact fun x hx => h2 x (List.mem_of_mem_tail hx)
    · rcases e.2 x hx with hx | ⟨hk, hx⟩
      · exact h3 x hx
      · rw [hx]; simpa [hk] using hq
  · rintro s l ⟨h1, h2, h3⟩
    have e := recallFor_lists s l
    refine ⟨(point?_congr (within_recallFor s l).spc q).trans h1, fun d hd => ?_, by rw [e.2]; exact h3⟩
    obtain ⟨x, hx, hk, hs⟩ := e.1 d hd
    rw [hk, hs]; exact h2 x hx
  · rintro s d a ⟨h1, h2, h3⟩
    have e := askFor_lists s d a
    refine ⟨(point?_congr (within_askFor s d a).spc q).trans h1, fun d hd => ?_, by rw [e.2]; exact h3⟩
    obtain ⟨x, hx, hk, hs⟩ := e.1 d hd
    rw [hk, hs]; exact h2 x hx
  · rintro s e r hs ⟨h1, h2, h3⟩
    refine ⟨(energise_point? _ (h3 e (by simp [hs])) _).trans h1, h2, fun x hx => h3 x ?_⟩
    rw [hs]; exact List.mem_cons_of_mem _ hx

/-! ### Pumps -/

/-- A pump with no sale, or with one past its authorisation and no PUMP demand waiting. -/
def PumpApart (n : Nat) (x : Option Pump) (s : State) : Prop :=
  s.pump? n = x ∧ ((x.bind Pump.sale) = none ∨ ∀ d ∈ s.pwb.demands, d.kind = .pump → d.source ≠ n)

theorem modPump_pump?_ne {n m : Nat} (h : m ≠ n) (f : Pump → Pump) :
    (s.modPump n f).pump? m = s.pump? m := by rw [modPump_pump?, if_neg h]

theorem tryAuthorise_pump?_ne {n m : Nat} (h : m ≠ n) : (s.tryAuthorise n).pump? m = s.pump? m := by
  unfold State.tryAuthorise
  split
  · rfl
  · split
    · split
      · exact modPump_pump?_ne s h _
      · rfl
    · rfl

theorem endUnusedCore_pump?_ne {n m : Nat} (h : m ≠ n) (c : AuthCause) (r : LapseReason) :
    (s.endUnusedCore n c r).pump? m = s.pump? m := by
  unfold State.endUnusedCore
  split
  · rfl
  · rename_i x _
    have hz : (match x.hold with | some h => s.zeroSettle h x.number | none => s).pump? m = s.pump? m := by
      split
      · exact pump?_congr (within_zeroSettle s _ _).fdc m
      · rfl
    dsimp only
    split <;> exact (modPump_pump?_ne _ h _).trans
      (Eq.trans (by rfl) ((modPump_pump?_ne _ h _).trans hz))

theorem pumpFailed_pump?_ne {n m : Nat} (h : m ≠ n) (c : AuthCause) :
    (s.pumpFailed n c).pump? m = s.pump? m := by
  unfold State.pumpFailed
  split
  · split
    · exact endUnusedCore_pump?_ne s h c _
    · rfl
  · rfl

/-- A pump with no sale is not touched by an answer of PWB. -/
theorem idle_pump {n : Nat} (h : (s.pump? n).bind Pump.sale = none) (f : Sale → Sale) (c : AuthCause) :
    (s.modSale n f).pump? n = s.pump? n ∧ s.tryAuthorise n = s ∧ s.pumpFailed n c = s := by
  refine ⟨?_, ?_, ?_⟩
  · unfold State.modSale
    rw [modPump_pump?, if_pos rfl]
    cases hp : s.pump? n with
    | none => rfl
    | some p => rw [hp] at h; cases p; simp_all
  · unfold State.tryAuthorise
    cases hp : s.pump? n with
    | none => rfl
    | some p => rw [hp] at h; simp at h; simp [h]
  · simp [State.pumpFailed, State.sale?, h]

theorem serveHead_pump? {d : Demand} {n : Nat}
    (h : (s.pump? n).bind Pump.sale = none ∨ (d.kind = .pump → d.source ≠ n)) :
    (s.serveHead d).pump? n = s.pump? n := by
  unfold State.serveHead
  dsimp only
  split
  · exact pump?_congr ((within_energise _ _ _).fdc.trans rfl) n
  · exact pump?_congr ((within_raiseServed _ _).fdc.trans rfl) n
  next hk =>
    by_cases hs : d.source = n
    · subst hs
      have h0 : (s.popDemand.pump? d.source).bind Pump.sale = none :=
        h.resolve_right fun h => h hk rfl
      have a := idle_pump s.popDemand h0 (fun x => { x with load := .held }) .budget
      have b := idle_pump (s.popDemand.modSale d.source fun x => { x with load := .held })
        (by rw [a.1]; exact h0) id .budget
      rw [b.2.1]
      exact a.1
    · exact (tryAuthorise_pump?_ne _ (Ne.symm hs)).trans (modPump_pump?_ne _ (Ne.symm hs) _)

theorem failHead_pump? {d : Demand} {n : Nat} (c : FailCause) (b : Bool)
    (h : (s.pump? n).bind Pump.sale = none ∨ (d.kind = .pump → d.source ≠ n)) :
    (s.failHead d c b).pump? n = s.pump? n := by
  have hb : (s.popDemand.setFlagIf b .askShort).fdc = s.fdc := (within_setFlagIf _ _ _).fdc
  unfold State.failHead
  dsimp only
  split
  · exact pump?_congr ((within_shedFailed _ _ _).fdc.trans hb) n
  · exact pump?_congr ((within_raiseOutcome _ _ _).fdc.trans hb) n
  next hk =>
    by_cases hs : d.source = n
    · subst hs
      have h0 : ((s.popDemand.setFlagIf b .askShort).pump? d.source).bind Pump.sale = none := by
        rw [pump?_congr hb]; exact h.resolve_right fun h => h hk rfl
      rw [(idle_pump _ h0 id _).2.2]
      exact pump?_congr hb _
    · exact (pumpFailed_pump?_ne _ (Ne.symm hs) _).trans (pump?_congr hb _)

/-- Whatever PWB goes on to do, a pump with no sale, or with no PUMP demand in the queue, stays as it is. -/
theorem settle_pump_apart {n : Nat} {x : Option Pump} (before : State) (h : PumpApart n x s) :
    PumpApart n x s.settle ∧ PumpApart n x (s.settleSince before) := by
  refine settle_keeps ?_ ?_ ?_ ?_ ?_ s before h
  · rintro s d rest hd ⟨h1, h2⟩
    refine ⟨(serveHead_pump? s ?_).trans h1, ?_⟩
    · rw [h1]; exact h2.imp_right fun h => h d (by simp [hd])
    · rw [(serveHead_lists s d).1]; exact h2.imp_right fun h x hx => h x (List.mem_of_mem_tail hx)
  · rintro s d rest c b hd ⟨h1, h2⟩
    refine ⟨(failHead_pump? s c b ?_).trans h1, ?_⟩
    · rw [h1]; exact h2.imp_right fun h => h d (by simp [hd])
    · rw [(failHead_lists s d c b).1]; exact h2.imp_right fun h x hx => h x (List.mem_of_mem_tail hx)
  · rintro s l ⟨h1, h2⟩
    refine ⟨(pump?_congr (within_recallFor s l).fdc n).trans h1, h2.imp_right fun h d hd => ?_⟩
    obtain ⟨x, hx, hk, hs⟩ := (recallFor_lists s l).1 d hd
    rw [hk, hs]; exact h x hx
  · rintro s d a ⟨h1, h2⟩
    refine ⟨(pump?_congr (within_askFor s d a).fdc n).trans h1, h2.imp_right fun h d' hd => ?_⟩
    obtain ⟨x, hx, hk, hs⟩ := (askFor_lists s d a).1 d' hd
    rw [hk, hs]; exact h x hx
  · rintro s e r hs ⟨h1, h2⟩
    exact ⟨(pump?_congr ((within_energise _ _ _).fdc.trans rfl) n).trans h1, h2⟩

end

/-! ### The line state, the emergency mark and the sale number -/

theorem queueFrame_lifState (s : State) (f : Frame) : (s.queueFrame f).lif.state = s.lif.state := by
  have g : ∀ (t : State) (x : TxFrame) (b : Bool), (t.giveReport x b).lif.state = t.lif.state := by
    intro t x b
    unfold State.giveReport
    split <;> rfl
  unfold State.queueFrame
  dsimp only
  split
  · exact g _ _ _
  · split
    · rfl
    · split
      · split
        · exact g _ _ _
        · exact g _ _ _
      · exact g _ _ _

theorem zeroSettle_lifState (s : State) (h : HoldRef) (n : Nat) :
    (s.zeroSettle h n).lif.state = s.lif.state := by
  unfold State.zeroSettle; split
  · exact queueFrame_lifState s _
  · rfl

theorem modPump_fdc (s : State) (n : Nat) (f : Pump → Pump) :
    (s.modPump n f).lif = s.lif ∧ (s.modPump n f).fdc.emergency = s.fdc.emergency ∧
    (s.modPump n f).fdc.saleNo = s.fdc.saleNo ∧ (s.modPump n f).fdc.journal = s.fdc.journal := by
  unfold State.modPump
  split
  · exact ⟨rfl, rfl, rfl, rfl⟩
  · split <;> exact ⟨rfl, rfl, rfl, rfl⟩

section
variable (s : State)

/-- Two states agree in the line state, the emergency mark and the last sale number. -/
def SameStanding (s t : State) : Prop :=
  t.lif.state = s.lif.state ∧ t.fdc.emergency = s.fdc.emergency ∧ t.fdc.saleNo = s.fdc.saleNo

variable {s} in
theorem SameStanding.trans {t u : State} (h : SameStanding s t) (g : SameStanding t u) : SameStanding s u :=
  ⟨g.1.trans h.1, g.2.1.trans h.2.1, g.2.2.trans h.2.2⟩

variable {s} in
theorem SameStanding.of {t : State} (hl : t.lif = s.lif) (hf : t.fdc = s.fdc) : SameStanding s t :=
  ⟨by rw [hl], by rw [hf], by rw [hf]⟩

variable {s} in
theorem Within.lif {t : State} {ps : List Part} (h : Within ps s t) (hp : Part.lif ∉ ps := by decide) :
    t.lif = s.lif := h.frame .lif (by simp [hp])

theorem queueFrame_standing (f : Frame) : SameStanding s (s.queueFrame f) :=
  ⟨queueFrame_lifState s f, by rw [(within_queueFrame s f).fdc], by rw [(within_queueFrame s f).fdc]⟩

theorem modPump_standing (n : Nat) (f : Pump → Pump) : SameStanding s (s.modPump n f) := by
  have h := modPump_fdc s n f
  exact ⟨by rw [h.1], h.2.1, h.2.2.1⟩

theorem setFlag_standing (f : Flag) : SameStanding s (s.setFlag f) := .of rfl rfl

theorem tryAuthorise_standing (n : Nat) : SameStanding s (s.tryAuthorise n) := by
  unfold State.tryAuthorise
  split
  · exact .of rfl rfl
  · split
    · split
      · exact (modPump_standing s n _).trans (setFlag_standing _ _)
      · exact .of rfl rfl
    · exact .of rfl rfl

theorem endUnusedCore_standing (n : Nat) (c : AuthCause) (r : LapseReason) :
    SameStanding s (s.endUnusedCore n c r) := by
  unfold State.endUnusedCore
  split
  · exact .of rfl rfl
  · rename_i x _
    have hz : SameStanding s (match x.hold with | some h => s.zeroSettle h x.number | none => s) := by
      split
      · exact ⟨zeroSettle_lifState s _ _, by rw [(within_zeroSettle s _ _).fdc],
          by rw [(within_zeroSettle s _ _).fdc]⟩
      · exact .of rfl rfl
    have hc := hz.trans (modPump_standing _ n fun p => p.closeAsk x.number x.hold)
    dsimp only
    split <;>
    · refine hc.trans (SameStanding.trans ?_ (setFlag_standing _ _))
      refine SameStanding.trans ?_ (modPump_standing _ n _)
      exact ⟨rfl, rfl, rfl⟩

theorem serveHead_standing (d : Demand) : SameStanding s (s.serveHead d) := by
  unfold State.serveHead
  dsimp only
  split
  · exact .of ((within_energise _ _ _).lif.trans rfl) ((within_energise _ _ _).fdc.trans rfl)
  · exact .of ((within_raiseServed _ _).lif.trans rfl) ((within_raiseServed _ _).fdc.trans rfl)
  · exact (modPump_standing s.popDemand _ _).trans (tryAuthorise_standing _ _)

theorem failHead_standing (d : Demand) (c : FailCause) (b : Bool) : SameStanding s (s.failHead d c b) := by
  have h := (within_popDemand s).andThen (within_setFlagIf _ b .askShort) (rs := [.pwb])
  have hb : SameStanding s (s.popDemand.setFlagIf b .askShort) := .of h.lif h.fdc
  unfold State.failHead
  dsimp only
  split
  · exact hb.trans (.of (within_shedFailed _ _ _).lif (within_shedFailed _ _ _).fdc)
  · exact hb.trans (.of (within_raiseOutcome _ _ _).lif (within_raiseOutcome _ _ _).fdc)
  · refine hb.trans ?_
    unfold State.pumpFailed
    split
    · split
      · exact endUnusedCore_standing _ _ _ _
      · exact .of rfl rfl
    · exact .of rfl rfl

theorem recallFor_standing (l : List Nat) : SameStanding s (s.recallFor l) := by
  refine SameStanding.trans (?_ : SameStanding s (l.foldl State.recallOne s)) (.of rfl rfl)
  induction l generalizing s with
  | nil => exact .of rfl rfl
  | cons n r ih =>
    refine SameStanding.trans ?_ (ih (s.recallOne n))
    unfold State.recallOne
    split
    · exact .of rfl rfl
    · exact queueFrame_standing _ _

theorem askFor_standing (d : Demand) (a : Nat) : SameStanding s (s.askFor d a) := by
  unfold State.askFor
  exact SameStanding.trans (.of rfl rfl) (queueFrame_standing _ _)

/-- Whatever PWB goes on to do, the line state, the emergency mark and the sale number stay. -/
theorem settle_standing (before : State) :
    SameStanding s s.settle ∧ SameStanding s (s.settleSince before) :=
  settle_keeps (P := SameStanding s) (fun u d _ _ h => h.trans (serveHead_standing u d))
    (fun u d _ c b _ h => h.trans (failHead_standing u d c b))
    (fun u l h => h.trans (recallFor_standing u l)) (fun u d a h => h.trans (askFor_standing u d a))
    (fun u e r _ h => h.trans (.of ((within_energise _ _ _).lif.trans rfl)
      ((within_energise _ _ _).fdc.trans rfl))) s before (.of rfl rfl)

end

/-! ### An outlet that leaves PWB -/

/-- All that taking an outlet from PWB can do (R75, R56, R98). -/
theorem outletOut_out (n : Nat) (o : OutletState) (s : State) :
    OutletsOut [n] o s (s.outletOut n o) := by
  have hw := within_outletOut s n o
  have hdrop : ∀ q, (((s.dropOutlet n).dropDemands n).setOutlet n o).point? q =
      if q = n then (s.point? q).map (fun p => { p with outlet := o }) else s.point? q := fun q =>
    modPoint_point? ((s.dropOutlet n).dropDemands n) (f := fun p => { p with outlet := o }) (fun _ => rfl) n q
  have hpwb : (s.outletOut n o).pwb = ((s.dropOutlet n).dropDemands n).pwb := by
    unfold State.outletOut
    rw [(within_raiseOutcome _ _ _).pwb, (within_setOutlet _ _ _).pwb]
  have hbind : ((((s.dropOutlet n).dropDemands n).setOutlet n o).point? n).bind Point.raisePending =
      (s.point? n).bind Point.raisePending := by
    rw [hdrop, if_pos rfl]; cases s.point? n <;> rfl
  have hfdc : (s.outletOut n o).fdc = s.fdc := hw.fdc
  have hset : (s.outletOut n o).settings = s.settings := hw.frame .settings (by decide)
  have hloans : (s.outletOut n o).pwb.loans = s.pwb.loans := by rw [hpwb]; rfl
  refine ⟨?_, ?_, ?_, ?_, ?_, ?_, ?_, hw.frame⟩
  · intro q hq p hp
    obtain rfl : q = n := by simpa using hq
    unfold State.outletOut State.raiseOutcome
    rw [hbind, hp]
    cases hr : p.raisePending with
    | none => simp [hr, hdrop, hp]
    | some y =>
      simp only [Option.bind_some, hr, setFlag_point?]
      have h2 : (((s.dropOutlet q).dropDemands q).setOutlet q o).point? q = some { p with outlet := o } := by
        rw [hdrop, if_pos rfl, hp]; rfl
      exact (modPoint_point?_self _ h2 (f := fun p => { p with
        raisePending := none
        raiseLast := .budget }) fun _ => rfl).trans (by simp)
  · intro q hq
    have hq : n ≠ q := by simpa [eq_comm] using hq
    unfold State.outletOut
    rw [raiseOutcome_point? _ hq, hdrop, if_neg (Ne.symm hq)]
  · rw [hpwb]
    have hc : ∀ m, (!([n].contains m)) = (m != n) := fun m => by
      by_cases h : m = n <;> simp [h]
    simp only [hc]
    rfl
  · simp [State.ceiling, hset, Pwb.lentIn, Pwb.lentOut, hloans]
  · have hp : (s.outletOut n o).pumpLoads = s.pumpLoads := by simp [State.pumpLoads, hfdc]
    unfold State.load
    have e : ∀ l : List OutletLoad, ((eraseKey OutletLoad.point n l).map OutletLoad.figure).sum +
        ((l.filter fun e => [n].contains e.point).map OutletLoad.figure).sum = (l.map OutletLoad.figure).sum := by
      intro l
      induction l with
      | nil => rfl
      | cons x r ih =>
        by_cases hx : x.point = n <;> simp_all [eraseKey] <;> omega
    rw [hp, hpwb]
    have := e s.pwb.energised
    simp only [State.dropDemands, State.dropOutlet]
    omega
  · unfold State.outletOut State.raiseOutcome
    rw [hbind]
    cases hr : (s.point? n).bind Point.raisePending with
    | none => simp [hr]; rfl
    | some y => simp [hr]; rfl
  · unfold State.outletOut State.raiseOutcome
    split <;> rfl

/-! ### A sale that ends unused -/

theorem mem_txInsert {f g : TxFrame} {l : List TxFrame} : g ∈ txInsert f l ↔ g = f ∨ g ∈ l := by
  induction l with
  | nil => simp [txInsert]
  | cons x r ih =>
    unfold txInsert
    split
    · simp
    · simp only [List.mem_cons, ih]; tauto

/-- A frame queued ON LINE with a place free stands in the queue under the next note (R165, R168). -/
theorem queueFrame_queued {s : State} {fr : Frame} (h : s.lif.state = .onLine) (hl : s.lif.tx.length < 12)
    (hk : acceptedIn .onLine fr.kind = true) :
    s.queueFrame fr = { s with lif := { s.lif with
      serial := s.lif.serial + 1
      tx := txInsert ⟨s.lif.serial, fr⟩ s.lif.tx } } := by
  simp [State.queueFrame, hk, h, Config.maxTx, hl]

theorem setFlag_hasFlag (f : Flag) (s : State) : (s.setFlag f).hasFlag f = true := by
  have hb : f.bit ≠ 0 := by cases f <;> decide
  simp only [State.hasFlag, bne_iff_ne, ne_eq]
  intro h
  apply hb
  rw [show (s.setFlag f).pnp.flags = s.pnp.flags ||| f.bit from rfl] at h
  refine BitVec.eq_of_getLsbD_eq fun i _ => ?_
  have := congrArg (fun x => x.getLsbD i) h
  simp only [BitVec.getLsbD_and, BitVec.getLsbD_or] at this
  cases h1 : f.bit.getLsbD i <;> simp_all

theorem pump?_cases {s : State} {n : Nat} {p : Pump} (h : s.pump? n = some p) :
    (n = 1 ∧ s.fdc.pump1 = p) ∨ (n = 2 ∧ s.fdc.pump2 = p) := by
  unfold State.pump? at h
  split at h
  · exact .inl ⟨‹_›, by simpa using h⟩
  · split at h
    · exact .inr ⟨‹_›, by simpa using h⟩
    · cases h

/-- FDC's end of a sale unused as one update of the state the zero settle leaves (R110). -/
theorem endUnusedCore_eq {n : Nat} {p : Pump} {x : Sale} {s : State} (hp : s.pump? n = some p)
    (hx : p.sale = some x) (c : AuthCause) (r : LapseReason) :
    ∃ z : State, (z = match x.hold with | some h => s.zeroSettle h x.number | none => s) ∧ z.fdc = s.fdc ∧
      s.endUnusedCore n c r = ({ z with fdc := { (s.modPump n fun _ => { p.closeAsk x.number x.hold with
        sale := none
        main := false
        slow := false
        last := if x.state = .authorising then .refused c else .lapsed r }).fdc with
          journal := s.fdc.journal.filter fun r => r.number != x.number } } : State).setFlag
            (if x.state = .authorising then .authDone else .authLapsed) := by
  have hs : s.sale? n = some x := by simp [State.sale?, hp, hx]
  unfold State.endUnusedCore
  rw [hs]
  dsimp only
  cases hh : x.hold with
  | none =>
    refine ⟨s, rfl, rfl, ?_⟩
    rcases pump?_cases hp with ⟨rfl, rfl⟩ | ⟨rfl, rfl⟩ <;> split <;> simp [State.modPump, eraseKey, *]
  | some h =>
    have hj := (within_zeroSettle s h x.number).fdc
    refine ⟨_, rfl, hj, ?_⟩
    dsimp only
    generalize s.zeroSettle h x.number = z at hj
    rcases pump?_cases hp with ⟨rfl, rfl⟩ | ⟨rfl, rfl⟩ <;> split <;> simp [State.modPump, eraseKey, *]

theorem pumpLoads_one {s t : State} {n : Nat} {p q : Pump} (hp : s.pump? n = some p) (ht : t.pump? n = some q)
    (hm : ∀ m, m ≠ n → t.pump? m = s.pump? m) : t.pumpLoads + p.heldLoad = s.pumpLoads + q.heldLoad := by
  have h1 := hm 1
  have h2 := hm 2
  rcases pump?_cases hp with ⟨rfl, rfl⟩ | ⟨rfl, rfl⟩ <;>
    simp_all [State.pump?, State.pumpLoads] <;> omega

theorem load_congr {s t : State} (h : t.pwb.energised = s.pwb.energised) (hp : t.pumpLoads = s.pumpLoads) :
    t.load = s.load := by simp [State.load, h, hp]

theorem settleFrame_kind (me home hold amount occ sale : Nat) :
    (settleFrame me home hold amount occ sale).kind = 11 := by
  have h1 : home % 32 < 32 := Nat.mod_lt _ (by norm_num)
  have h2 : hold % 256 < 256 := Nat.mod_lt _ (by norm_num)
  have h3 : me % 32 < 32 := Nat.mod_lt _ (by norm_num)
  simp only [settleFrame, mkFrame, packKey, Frame.kind, List.foldl_cons, List.foldl_nil,
    BitVec.toNat_ofNat]
  norm_num
  omega

/-- What FDC's part of an unused end leaves (R110), before PWB is told. -/
theorem endUnusedCore_gone {n : Nat} {p : Pump} {x : Sale} {s : State} (hp : s.pump? n = some p)
    (hx : p.sale = some x) (c : AuthCause) (r : LapseReason) (l : List Demand)
    (hl : l = if x.load = .queued then s.pwb.demands.filter fun d => d.kind != .pump || d.source != n
      else s.pwb.demands) :
    SaleGone n p x (if x.state = .authorising then .refused c else .lapsed r) s
      { s.endUnusedCore n c r with pwb := { (s.endUnusedCore n c r).pwb with demands := l } } := by
  have hw := within_endUnusedCore s n c r
  have hst := endUnusedCore_standing s n c r
  obtain ⟨z, hz, hzf, he⟩ := endUnusedCore_eq hp hx c r
  have h1 : (s.endUnusedCore n c r).pump? n = some { p.closeAsk x.number x.hold with
        sale := none
        main := false
        slow := false
        last := if x.state = .authorising then .refused c else .lapsed r } := by
    rw [he]
    rcases pump?_cases hp with ⟨rfl, rfl⟩ | ⟨rfl, rfl⟩ <;> rfl
  have h2 : ∀ m, m ≠ n → (s.endUnusedCore n c r).pump? m = s.pump? m := fun m hm =>
    endUnusedCore_pump?_ne s hm c r
  refine ⟨h1, h2, ?_, ?_, ?_, hst.2.2, hst.2.1, ?_, ?_, ?_, ?_⟩
  · exact (pumpLoads_one hp h1 h2).trans (by simp [Pump.heldLoad])
  · show { (s.endUnusedCore n c r).pwb with demands := l } = _
    rw [hw.pwb, hl]
  · show (s.endUnusedCore n c r).fdc.journal = _
    rw [he]; rfl
  · show (s.endUnusedCore n c r).hasFlag _ = true
    rw [he]; exact setFlag_hasFlag _ _
  · intro hh
    have : z = s := by
      rw [hz]
      cases hho : x.hold with
      | none => rfl
      | some h => simp [State.zeroSettle, State.onLine, hh.resolve_left (by simp [hho])]
    show (s.endUnusedCore n c r).lif = _ ∧ (s.endUnusedCore n c r).pnp = _
    rw [he, this]; exact ⟨rfl, rfl⟩
  · intro h hh ho ht
    refine ⟨⟨s.lif.serial, settleFrame s.me h.home h.hold 0 h.occ x.number⟩, ?_, rfl, rfl⟩
    show _ ∈ (s.endUnusedCore n c r).lif.tx
    have : (s.endUnusedCore n c r).lif = z.lif := by rw [he]; rfl
    rw [this, hz, hh]
    simp only [State.zeroSettle, State.onLine, ho, beq_self_eq_true, if_true]
    rw [queueFrame_queued ho ht (by rw [settleFrame_kind]; rfl)]
    exact mem_txInsert.2 (.inl rfl)
  · exact (hw.andThen (within_pwb _ _) (rs := [.lif, .pwb, .fdc])).frame

/-- `settleSince` looks at no more of the state before than its ceiling, its load and its queue (R55). -/
theorem settleSince_congr (s : State) {a b : State} (hc : a.ceiling = b.ceiling) (hl : a.load = b.load)
    (hd : a.pwb.demands = b.pwb.demands) : s.settleSince a = s.settleSince b := by
  simp [State.settleSince, State.freedSince, hc, hl, hd]

theorem ceiling_congr {s t : State} (hs : t.settings = s.settings) (hl : t.pwb.loans = s.pwb.loans) :
    t.ceiling = s.ceiling := by simp [State.ceiling, Pwb.lentIn, Pwb.lentOut, hs, hl]

/-- All that the end of a sale unused can do, and what PWB does on it (R110). -/
theorem endUnused_says {n : Nat} {p : Pump} {x : Sale} {s : State} (hp : s.pump? n = some p)
    (hx : p.sale = some x) (c : AuthCause) (r : LapseReason) :
    EndsUnused n p x (if x.state = .authorising then .refused c else .lapsed r) s (s.endUnused n c r) := by
  have hs : s.sale? n = some x := by simp [State.sale?, hp, hx]
  have hw := within_endUnusedCore s n c r
  have key : ∀ w t : State, SaleGone n p x (if x.state = .authorising then .refused c else .lapsed r) s w →
      t = (if x.load = .queued then w.settleSince s else w.settle) →
      t.pump? n = w.pump? n ∧
        t.hasFlag (if x.state = .authorising then .authDone else .authLapsed) = true := by
    intro w t hg ht
    have ha : PumpApart n (w.pump? n) w := ⟨rfl, .inl (by rw [hg.1]; rfl)⟩
    have hf : w.hasFlag (if x.state = .authorising then .authDone else .authLapsed) = true := hg.2.2.2.2.2.2.2.1
    have hb := settle_pump_apart w s ha
    rw [ht]
    split
    · exact ⟨hb.2.1, (within_settleSince w s).hasFlag hf⟩
    · exact ⟨hb.1.1, (within_settle w).hasFlag hf⟩
  have held : ∀ d, d = s.pwb.demands → ({ s.endUnusedCore n c r with
      pwb := { (s.endUnusedCore n c r).pwb with demands := d } } : State) = s.endUnusedCore n c r := by
    rintro _ rfl
    rw [← congrArg Pwb.demands hw.pwb]
  have e : s.endUnused n c r = if x.load = .queued then (s.endUnusedCore n c r).withdrawPump n
      else (s.endUnusedCore n c r).settle := by
    unfold State.endUnused
    rw [hs]
    cases hl : x.load <;> simp [hl]
  have hg := endUnusedCore_gone hp hx c r _ rfl
  refine ⟨_, hg, ?_, key _ _ hg ?_⟩ <;>
  · rw [e]
    by_cases hl : x.load = .queued
    · simp only [if_pos hl]
      unfold State.withdrawPump
      rw [hw.pwb]
      refine settleSince_congr _ ?_ ?_ (by rw [hw.pwb])
      · exact ceiling_congr (hw.frame .settings (by decide)) (by rw [hw.pwb])
      · refine load_congr (by rw [hw.pwb]) ?_
        have := hg.2.2.1
        have h0 : p.heldLoad = 0 := by
          unfold Pump.heldLoad
          rw [hx]
          cases p.config <;> simp [hl]
        rw [h0] at this
        exact this
    · simp only [if_neg hl, held _ rfl]

/-! ### A sale past its authorisation -/

theorem modSale_sale? (s : State) (n m : Nat) (f : Sale → Sale) :
    (s.modSale n f).sale? m = if m = n then (s.sale? m).map f else s.sale? m := by
  unfold State.sale? State.modSale
  rw [modPump_pump?]
  split
  · cases s.pump? m with
    | none => rfl
    | some p => rfl
  · rfl

/-- No sale but those of `s` stands in `t`, each under its number. -/
def NoNewSale (s t : State) : Prop :=
  ∀ m z, t.sale? m = some z → ∃ y, s.sale? m = some y ∧ z.number = y.number

theorem NoNewSale.trans {s t u : State} (h : NoNewSale s t) (g : NoNewSale t u) : NoNewSale s u := by
  intro m z hz
  obtain ⟨y, hy, e⟩ := g m z hz
  obtain ⟨w, hw, e'⟩ := h m y hy
  exact ⟨w, hw, e.trans e'⟩

theorem NoNewSale.of {s t : State} (h : t.fdc = s.fdc) : NoNewSale s t := by
  intro m z hz
  rw [State.sale?, pump?_congr h] at hz
  exact ⟨z, hz, rfl⟩

theorem NoNewSale.modPump {s : State} {n : Nat} {f : Pump → Pump}
    (hf : ∀ p z, s.pump? n = some p → (f p).sale = some z → ∃ y, p.sale = some y ∧ z.number = y.number) :
    NoNewSale s (s.modPump n f) := by
  intro m z hz
  simp only [State.sale?, modPump_pump?] at hz ⊢
  split at hz
  next h =>
    subst h
    cases hp : s.pump? m with
    | none => simp [hp] at hz
    | some p =>
      rw [hp] at hz
      obtain ⟨y, hy, e⟩ := hf p z hp (by simpa using hz)
      exact ⟨y, by simpa using hy, e⟩
  · exact ⟨z, hz, rfl⟩

theorem modSale_noNew (s : State) (n : Nat) {f : Sale → Sale} (hf : ∀ x, (f x).number = x.number) :
    NoNewSale s (s.modSale n f) := by
  refine NoNewSale.modPump fun p z _ hz => ?_
  cases hp : p.sale with
  | none => simp [hp] at hz
  | some y => exact ⟨y, rfl, by simp [hp] at hz; rw [← hz, hf]⟩

theorem tryAuthorise_noNew (s : State) (n : Nat) : NoNewSale s (s.tryAuthorise n) := by
  unfold State.tryAuthorise
  split
  · exact .of rfl
  · split
    · rename_i p hp _ _ x c hx _
      split
      · refine NoNewSale.trans (NoNewSale.modPump fun q z hq hz => ?_) (.of rfl)
        rw [hp] at hq
        cases hq
        simp at hz
        exact ⟨x, hx, by rw [← hz]⟩
      · exact .of rfl
    · exact .of rfl

theorem pumpFailed_noNew (s : State) (n : Nat) (c : AuthCause) : NoNewSale s (s.pumpFailed n c) := by
  unfold State.pumpFailed
  split
  · rename_i x hx
    split
    · obtain ⟨p, hp, hpx⟩ : ∃ p, s.pump? n = some p ∧ p.sale = some x := by
        cases hp : s.pump? n with
        | none => simp [State.sale?, hp] at hx
        | some p => exact ⟨p, rfl, by simpa [State.sale?, hp] using hx⟩
      have h := endUnusedCore_gone hp hpx c .cancelled _ rfl
      intro m z hz
      by_cases hm : m = n
      · subst hm
        have : (s.endUnusedCore m c .cancelled).pump? m = _ := h.1
        simp [State.sale?, this] at hz
      · rw [State.sale?, endUnusedCore_pump?_ne s hm] at hz
        exact ⟨z, hz, rfl⟩
    · exact .of rfl
  · exact .of rfl

theorem serveHead_noNew (s : State) (d : Demand) : NoNewSale s (s.serveHead d) := by
  unfold State.serveHead
  dsimp only
  split
  · exact .of ((within_energise _ _ _).fdc.trans rfl)
  · exact .of ((within_raiseServed _ _).fdc.trans rfl)
  · refine NoNewSale.trans (NoNewSale.trans (.of rfl) ?_) (tryAuthorise_noNew _ _)
    exact modSale_noNew s.popDemand _ fun _ => rfl

theorem failHead_noNew (s : State) (d : Demand) (c : FailCause) (b : Bool) : NoNewSale s (s.failHead d c b) := by
  have hb : (s.popDemand.setFlagIf b .askShort).fdc = s.fdc := (within_setFlagIf _ _ _).fdc
  unfold State.failHead
  dsimp only
  split
  · exact .of ((within_shedFailed _ _ _).fdc.trans hb)
  · exact .of ((within_raiseOutcome _ _ _).fdc.trans hb)
  · exact (NoNewSale.of hb).trans (pumpFailed_noNew _ _ _)

/-- A record of a journal whose number no sale that ends has. -/
theorem pumpFailed_record (s : State) (n k : Nat) (c : AuthCause)
    (h : ∀ z, s.sale? n = some z → z.state = .authorising → z.number ≠ k) :
    lookupKey JournalRecord.number k (s.pumpFailed n c).fdc.journal =
      lookupKey JournalRecord.number k s.fdc.journal := by
  unfold State.pumpFailed
  split
  · rename_i x hx
    split
    · obtain ⟨p, hp, hpx⟩ : ∃ p, s.pump? n = some p ∧ p.sale = some x := by
        cases hp : s.pump? n with
        | none => simp [State.sale?, hp] at hx
        | some p => exact ⟨p, rfl, by simpa [State.sale?, hp] using hx⟩
      have hg := endUnusedCore_gone hp hpx c .cancelled _ rfl
      have : (s.endUnusedCore n c .cancelled).fdc.journal = _ := hg.2.2.2.2.1
      rw [this]
      have := lookupKey_eraseKey JournalRecord.number x.number k s.fdc.journal
      rw [if_neg (Ne.symm (h x hx ‹_›))] at this
      exact this
    · rfl
  · rfl

/-- The sale `x` of pump `n` stands but for its load. -/
def SaleStays (n : Nat) (p : Pump) (x : Sale) (s : State) : Prop :=
  ∃ l, s.pump? n = some { p with sale := some { x with load := l } }

section
variable {n : Nat} {p : Pump} {x : Sale} {s : State}

theorem SaleStays.congr {t : State} (h : t.fdc = s.fdc) (hs : SaleStays n p x s) : SaleStays n p x t :=
  hs.imp fun _ e => (pump?_congr h n).trans e

theorem SaleStays.state (h : SaleStays n p x s) {z : Sale} (hz : s.sale? n = some z) : z.state = x.state := by
  obtain ⟨l, hl⟩ := h
  simp [State.sale?, hl] at hz
  rw [← hz]

theorem serveHead_stays (d : Demand) (hx : x.state ≠ .authorising) (h : SaleStays n p x s) :
    SaleStays n p x (s.serveHead d) := by
  obtain ⟨l, h⟩ := h
  by_cases hd : d.kind = .pump ∧ d.source = n
  · obtain ⟨hk, rfl⟩ := hd
    have h1 : (s.popDemand.modSale d.source fun x => { x with load := .held }).pump? d.source =
        some { p with sale := some { x with load := .held } } := by
      unfold State.modSale
      rw [modPump_pump?, if_pos rfl, show s.popDemand.pump? d.source = s.pump? d.source from rfl, h]
      rfl
    refine ⟨.held, ?_⟩
    unfold State.serveHead
    simp only [hk]
    unfold State.tryAuthorise
    rw [h1]
    cases hc : p.config <;> simp [hc, hx, h1]
  · exact ⟨l, (serveHead_pump? s (.inr fun hk hs => hd ⟨hk, hs⟩)).trans h⟩

theorem failHead_stays (d : Demand) (c : FailCause) (b : Bool) (hx : x.state ≠ .authorising)
    (h : SaleStays n p x s) : SaleStays n p x (s.failHead d c b) := by
  obtain ⟨l, h⟩ := h
  refine ⟨l, ?_⟩
  by_cases hd : d.kind = .pump ∧ d.source = n
  · obtain ⟨hk, rfl⟩ := hd
    have hb : (s.popDemand.setFlagIf b .askShort).fdc = s.fdc := (within_setFlagIf _ _ _).fdc
    have h1 : (s.popDemand.setFlagIf b .askShort).sale? d.source = some { x with load := l } := by
      simp [State.sale?, pump?_congr hb, h]
    unfold State.failHead
    simp only [hk]
    unfold State.pumpFailed
    rw [h1]
    simp only [hx, if_false]
    exact (pump?_congr hb _).trans h
  · exact (failHead_pump? s c b (.inr fun hk hs => hd ⟨hk, hs⟩)).trans h

theorem serveHead_journal (d : Demand) : (s.serveHead d).fdc.journal = s.fdc.journal := by
  unfold State.serveHead
  dsimp only
  split
  · rw [(within_energise _ _ _).fdc]; rfl
  · rw [(within_raiseServed _ _).fdc]; rfl
  · have h : ∀ (t : State) (m : Nat), (t.tryAuthorise m).fdc.journal = t.fdc.journal := by
      intro t m
      unfold State.tryAuthorise
      split
      · rfl
      · split
        · split
          · exact (modPump_fdc t m _).2.2.2
          · rfl
        · rfl
    exact (h _ _).trans (modPump_fdc s.popDemand _ _).2.2.2

/-- Whatever PWB goes on to do, a sale past its authorisation keeps all but its load, and the journal its
record, its number being no other sale's. -/
theorem settle_stays (before : State) (hx : x.state ≠ .authorising) (h : SaleStays n p x s) :
    (SaleStays n p x s.settle ∧ SaleStays n p x (s.settleSince before)) ∧
    ((∀ m z, m ≠ n → s.sale? m = some z → z.number ≠ x.number) →
      lookupKey JournalRecord.number x.number s.settle.fdc.journal =
        lookupKey JournalRecord.number x.number s.fdc.journal ∧
      lookupKey JournalRecord.number x.number (s.settleSince before).fdc.journal =
        lookupKey JournalRecord.number x.number s.fdc.journal) := by
  let P : State → Prop := fun t => SaleStays n p x t ∧ NoNewSale s t ∧
    ((∀ m z, m ≠ n → s.sale? m = some z → z.number ≠ x.number) →
      lookupKey JournalRecord.number x.number t.fdc.journal =
        lookupKey JournalRecord.number x.number s.fdc.journal)
  have same : ∀ t u : State, u.fdc = t.fdc → P t → P u := fun t u e h =>
    ⟨h.1.congr e, h.2.1.trans (.of e), fun hm => by rw [e]; exact h.2.2 hm⟩
  have key : P s.settle ∧ P (s.settleSince before) := by
    refine settle_keeps (P := P) ?_ ?_ (fun t l h => same _ _ (within_recallFor t l).fdc h)
      (fun t d a h => same _ _ (within_askFor t d a).fdc h)
      (fun t e r _ h => same t _ ((within_energise _ _ _).fdc.trans rfl) h) s before
      ⟨h, .of rfl, fun _ => rfl⟩
    · rintro t d rest _ ⟨h1, h2, h3⟩
      exact ⟨serveHead_stays d hx h1, h2.trans (serveHead_noNew t d),
        fun hm => by rw [serveHead_journal]; exact h3 hm⟩
    · rintro t d rest c b _ ⟨h1, h2, h3⟩
      refine ⟨failHead_stays d c b hx h1, h2.trans (failHead_noNew t d c b), fun hm => ?_⟩
      have hb : (t.popDemand.setFlagIf b .askShort).fdc = t.fdc := (within_setFlagIf _ _ _).fdc
      refine Eq.trans ?_ (h3 hm)
      unfold State.failHead
      dsimp only
      split
      · rw [(within_shedFailed _ _ _).fdc, hb]
      · rw [(within_raiseOutcome _ _ _).fdc, hb]
      · refine (pumpFailed_record _ _ _ _ fun z hz ha => ?_).trans (by rw [hb])
        rw [State.sale?, pump?_congr hb] at hz
        by_cases e : d.source = n
        · rw [e] at hz
          exact absurd ((h1.state hz).symm.trans ha) hx
        · obtain ⟨y, hy, hk⟩ := h2 _ z hz
          rw [hk]; exact hm _ y e hy
  exact ⟨⟨key.1.1, key.2.1⟩, fun hm => ⟨key.1.2.2 hm, key.2.2.2 hm⟩⟩

end

/-! ### SPC's other state -/

/-- Of SPC nothing but points changed. -/
def OnlyPoints (s t : State) : Prop := t.spc = { s.spc with points := t.spc.points }

theorem OnlyPoints.of {s t : State} (h : t.spc = s.spc) : OnlyPoints s t := by
  unfold OnlyPoints; rw [h]

theorem OnlyPoints.trans {s t u : State} (h : OnlyPoints s t) (g : OnlyPoints t u) : OnlyPoints s u := by
  unfold OnlyPoints at *
  rw [g, h]

theorem raiseOutcome_points (s : State) (n : Nat) (o : RaiseOutcome) : OnlyPoints s (s.raiseOutcome n o) := by
  unfold State.raiseOutcome
  split <;> rfl

theorem serveHead_points (s : State) (d : Demand) : OnlyPoints s (s.serveHead d) := by
  unfold State.serveHead
  dsimp only
  split
  · rfl
  · unfold State.raiseServed
    split
    · rfl
    · split
      · refine OnlyPoints.trans ?_ (raiseOutcome_points _ _ _)
        rfl
      · rfl
  · exact .of ((within_tryAuthorise _ _).spc.trans ((within_modSale _ _ _).spc.trans rfl))

theorem failHead_points (s : State) (d : Demand) (c : FailCause) (b : Bool) : OnlyPoints s (s.failHead d c b) := by
  have hb : OnlyPoints s (s.popDemand.setFlagIf b .askShort) := .of (within_setFlagIf _ _ _).spc
  unfold State.failHead
  dsimp only
  split
  · exact hb.trans rfl
  · exact hb.trans (raiseOutcome_points _ _ _)
  · exact hb.trans (.of (within_pumpFailed _ _ _).spc)

/-- Whatever PWB goes on to do, of SPC only points change. -/
theorem settle_points (s before : State) : OnlyPoints s s.settle ∧ OnlyPoints s (s.settleSince before) :=
  settle_keeps (P := OnlyPoints s) (fun u d _ _ h => h.trans (serveHead_points u d))
    (fun u d _ c b _ h => h.trans (failHead_points u d c b))
    (fun u l h => h.trans (.of (within_recallFor u l).spc)) (fun u d a h => h.trans (.of (within_askFor u d a).spc))
    (fun _ _ _ _ h => h.trans rfl) s before rfl

end Sys2Proof.Machine
end

