-- ==== Sys2Proof/Laws/State.lean ====
section
/-! SUPPORT. Beside `State`: one lemma for each field that a named update leaves as it was, true by `rfl`,
so that no proof unfolds a record update; and the fields that the updates with cases leave. -/

namespace Sys2Proof.Machine

set_option Elab.async false

section Fields
variable (s : State)

@[simp] theorem setFlag_powered (f : Flag) : (s.setFlag f).powered = s.powered := rfl
@[simp] theorem setFlag_straps (f : Flag) : (s.setFlag f).straps = s.straps := rfl
@[simp] theorem setFlag_startKind (f : Flag) : (s.setFlag f).startKind = s.startKind := rfl
@[simp] theorem setFlag_settings (f : Flag) : (s.setFlag f).settings = s.settings := rfl
@[simp] theorem setFlag_elapsed (f : Flag) : (s.setFlag f).elapsed = s.elapsed := rfl
@[simp] theorem setFlag_moments (f : Flag) : (s.setFlag f).moments = s.moments := rfl
@[simp] theorem setFlag_lif (f : Flag) : (s.setFlag f).lif = s.lif := rfl
@[simp] theorem setFlag_bal (f : Flag) : (s.setFlag f).bal = s.bal := rfl
@[simp] theorem setFlag_occ (f : Flag) : (s.setFlag f).occ = s.occ := rfl
@[simp] theorem setFlag_pwb (f : Flag) : (s.setFlag f).pwb = s.pwb := rfl
@[simp] theorem setFlag_spc (f : Flag) : (s.setFlag f).spc = s.spc := rfl
@[simp] theorem setFlag_fdc (f : Flag) : (s.setFlag f).fdc = s.fdc := rfl
@[simp] theorem setFlag_gtc (f : Flag) : (s.setFlag f).gtc = s.gtc := rfl
@[simp] theorem setFlag_sch (f : Flag) : (s.setFlag f).sch = s.sch := rfl
@[simp] theorem setFlag_cap (f : Flag) : (s.setFlag f).cap = s.cap := rfl
@[simp] theorem setFlag_pending (f : Flag) : (s.setFlag f).pending = s.pending := rfl

@[simp] theorem clearFlags_powered (m : BitVec 64) : (s.clearFlags m).powered = s.powered := rfl
@[simp] theorem clearFlags_straps (m : BitVec 64) : (s.clearFlags m).straps = s.straps := rfl
@[simp] theorem clearFlags_startKind (m : BitVec 64) : (s.clearFlags m).startKind = s.startKind := rfl
@[simp] theorem clearFlags_settings (m : BitVec 64) : (s.clearFlags m).settings = s.settings := rfl
@[simp] theorem clearFlags_elapsed (m : BitVec 64) : (s.clearFlags m).elapsed = s.elapsed := rfl
@[simp] theorem clearFlags_moments (m : BitVec 64) : (s.clearFlags m).moments = s.moments := rfl
@[simp] theorem clearFlags_lif (m : BitVec 64) : (s.clearFlags m).lif = s.lif := rfl
@[simp] theorem clearFlags_bal (m : BitVec 64) : (s.clearFlags m).bal = s.bal := rfl
@[simp] theorem clearFlags_occ (m : BitVec 64) : (s.clearFlags m).occ = s.occ := rfl
@[simp] theorem clearFlags_pwb (m : BitVec 64) : (s.clearFlags m).pwb = s.pwb := rfl
@[simp] theorem clearFlags_spc (m : BitVec 64) : (s.clearFlags m).spc = s.spc := rfl
@[simp] theorem clearFlags_fdc (m : BitVec 64) : (s.clearFlags m).fdc = s.fdc := rfl
@[simp] theorem clearFlags_gtc (m : BitVec 64) : (s.clearFlags m).gtc = s.gtc := rfl
@[simp] theorem clearFlags_sch (m : BitVec 64) : (s.clearFlags m).sch = s.sch := rfl
@[simp] theorem clearFlags_cap (m : BitVec 64) : (s.clearFlags m).cap = s.cap := rfl
@[simp] theorem clearFlags_pending (m : BitVec 64) : (s.clearFlags m).pending = s.pending := rfl

@[simp] theorem takeFrame_powered (c : Nat) : (s.takeFrame c).powered = s.powered := rfl
@[simp] theorem takeFrame_straps (c : Nat) : (s.takeFrame c).straps = s.straps := rfl
@[simp] theorem takeFrame_startKind (c : Nat) : (s.takeFrame c).startKind = s.startKind := rfl
@[simp] theorem takeFrame_settings (c : Nat) : (s.takeFrame c).settings = s.settings := rfl
@[simp] theorem takeFrame_elapsed (c : Nat) : (s.takeFrame c).elapsed = s.elapsed := rfl
@[simp] theorem takeFrame_moments (c : Nat) : (s.takeFrame c).moments = s.moments := rfl
@[simp] theorem takeFrame_lif (c : Nat) : (s.takeFrame c).lif = s.lif := rfl
@[simp] theorem takeFrame_bal (c : Nat) : (s.takeFrame c).bal = s.bal := rfl
@[simp] theorem takeFrame_occ (c : Nat) : (s.takeFrame c).occ = s.occ := rfl
@[simp] theorem takeFrame_pwb (c : Nat) : (s.takeFrame c).pwb = s.pwb := rfl
@[simp] theorem takeFrame_spc (c : Nat) : (s.takeFrame c).spc = s.spc := rfl
@[simp] theorem takeFrame_fdc (c : Nat) : (s.takeFrame c).fdc = s.fdc := rfl
@[simp] theorem takeFrame_gtc (c : Nat) : (s.takeFrame c).gtc = s.gtc := rfl
@[simp] theorem takeFrame_sch (c : Nat) : (s.takeFrame c).sch = s.sch := rfl
@[simp] theorem takeFrame_cap (c : Nat) : (s.takeFrame c).cap = s.cap := rfl
@[simp] theorem takeFrame_pending (c : Nat) : (s.takeFrame c).pending = s.pending := rfl

@[simp] theorem refuseFrame_powered (c : Nat) (r : Reply) : (s.refuseFrame c r).powered = s.powered := rfl
@[simp] theorem refuseFrame_straps (c : Nat) (r : Reply) : (s.refuseFrame c r).straps = s.straps := rfl
@[simp] theorem refuseFrame_startKind (c : Nat) (r : Reply) : (s.refuseFrame c r).startKind = s.startKind := rfl
@[simp] theorem refuseFrame_settings (c : Nat) (r : Reply) : (s.refuseFrame c r).settings = s.settings := rfl
@[simp] theorem refuseFrame_elapsed (c : Nat) (r : Reply) : (s.refuseFrame c r).elapsed = s.elapsed := rfl
@[simp] theorem refuseFrame_moments (c : Nat) (r : Reply) : (s.refuseFrame c r).moments = s.moments := rfl
@[simp] theorem refuseFrame_lif (c : Nat) (r : Reply) : (s.refuseFrame c r).lif = s.lif := rfl
@[simp] theorem refuseFrame_bal (c : Nat) (r : Reply) : (s.refuseFrame c r).bal = s.bal := rfl
@[simp] theorem refuseFrame_occ (c : Nat) (r : Reply) : (s.refuseFrame c r).occ = s.occ := rfl
@[simp] theorem refuseFrame_pwb (c : Nat) (r : Reply) : (s.refuseFrame c r).pwb = s.pwb := rfl
@[simp] theorem refuseFrame_spc (c : Nat) (r : Reply) : (s.refuseFrame c r).spc = s.spc := rfl
@[simp] theorem refuseFrame_fdc (c : Nat) (r : Reply) : (s.refuseFrame c r).fdc = s.fdc := rfl
@[simp] theorem refuseFrame_gtc (c : Nat) (r : Reply) : (s.refuseFrame c r).gtc = s.gtc := rfl
@[simp] theorem refuseFrame_sch (c : Nat) (r : Reply) : (s.refuseFrame c r).sch = s.sch := rfl
@[simp] theorem refuseFrame_cap (c : Nat) (r : Reply) : (s.refuseFrame c r).cap = s.cap := rfl
@[simp] theorem refuseFrame_pending (c : Nat) (r : Reply) : (s.refuseFrame c r).pending = s.pending := rfl

@[simp] theorem writeAnswer_powered (c : Nat) (r : Reply) : (s.writeAnswer c r).powered = s.powered := rfl
@[simp] theorem writeAnswer_straps (c : Nat) (r : Reply) : (s.writeAnswer c r).straps = s.straps := rfl
@[simp] theorem writeAnswer_startKind (c : Nat) (r : Reply) : (s.writeAnswer c r).startKind = s.startKind := rfl
@[simp] theorem writeAnswer_settings (c : Nat) (r : Reply) : (s.writeAnswer c r).settings = s.settings := rfl
@[simp] theorem writeAnswer_elapsed (c : Nat) (r : Reply) : (s.writeAnswer c r).elapsed = s.elapsed := rfl
@[simp] theorem writeAnswer_moments (c : Nat) (r : Reply) : (s.writeAnswer c r).moments = s.moments := rfl
@[simp] theorem writeAnswer_lif (c : Nat) (r : Reply) : (s.writeAnswer c r).lif = s.lif := rfl
@[simp] theorem writeAnswer_bal (c : Nat) (r : Reply) : (s.writeAnswer c r).bal = s.bal := rfl
@[simp] theorem writeAnswer_occ (c : Nat) (r : Reply) : (s.writeAnswer c r).occ = s.occ := rfl
@[simp] theorem writeAnswer_pwb (c : Nat) (r : Reply) : (s.writeAnswer c r).pwb = s.pwb := rfl
@[simp] theorem writeAnswer_spc (c : Nat) (r : Reply) : (s.writeAnswer c r).spc = s.spc := rfl
@[simp] theorem writeAnswer_fdc (c : Nat) (r : Reply) : (s.writeAnswer c r).fdc = s.fdc := rfl
@[simp] theorem writeAnswer_gtc (c : Nat) (r : Reply) : (s.writeAnswer c r).gtc = s.gtc := rfl
@[simp] theorem writeAnswer_sch (c : Nat) (r : Reply) : (s.writeAnswer c r).sch = s.sch := rfl
@[simp] theorem writeAnswer_cap (c : Nat) (r : Reply) : (s.writeAnswer c r).cap = s.cap := rfl
@[simp] theorem writeAnswer_pending (c : Nat) (r : Reply) : (s.writeAnswer c r).pending = s.pending := rfl

@[simp] theorem endTransaction_powered : (s.endTransaction).powered = s.powered := rfl
@[simp] theorem endTransaction_straps : (s.endTransaction).straps = s.straps := rfl
@[simp] theorem endTransaction_startKind : (s.endTransaction).startKind = s.startKind := rfl
@[simp] theorem endTransaction_settings : (s.endTransaction).settings = s.settings := rfl
@[simp] theorem endTransaction_elapsed : (s.endTransaction).elapsed = s.elapsed := rfl
@[simp] theorem endTransaction_moments : (s.endTransaction).moments = s.moments := rfl
@[simp] theorem endTransaction_lif : (s.endTransaction).lif = s.lif := rfl
@[simp] theorem endTransaction_bal : (s.endTransaction).bal = s.bal := rfl
@[simp] theorem endTransaction_occ : (s.endTransaction).occ = s.occ := rfl
@[simp] theorem endTransaction_pwb : (s.endTransaction).pwb = s.pwb := rfl
@[simp] theorem endTransaction_spc : (s.endTransaction).spc = s.spc := rfl
@[simp] theorem endTransaction_fdc : (s.endTransaction).fdc = s.fdc := rfl
@[simp] theorem endTransaction_gtc : (s.endTransaction).gtc = s.gtc := rfl
@[simp] theorem endTransaction_sch : (s.endTransaction).sch = s.sch := rfl
@[simp] theorem endTransaction_cap : (s.endTransaction).cap = s.cap := rfl
@[simp] theorem endTransaction_pending : (s.endTransaction).pending = s.pending := rfl

@[simp] theorem stamp_powered : (s.stamp).powered = s.powered := rfl
@[simp] theorem stamp_straps : (s.stamp).straps = s.straps := rfl
@[simp] theorem stamp_startKind : (s.stamp).startKind = s.startKind := rfl
@[simp] theorem stamp_settings : (s.stamp).settings = s.settings := rfl
@[simp] theorem stamp_elapsed : (s.stamp).elapsed = s.elapsed := rfl
@[simp] theorem stamp_pnp : (s.stamp).pnp = s.pnp := rfl
@[simp] theorem stamp_lif : (s.stamp).lif = s.lif := rfl
@[simp] theorem stamp_bal : (s.stamp).bal = s.bal := rfl
@[simp] theorem stamp_occ : (s.stamp).occ = s.occ := rfl
@[simp] theorem stamp_pwb : (s.stamp).pwb = s.pwb := rfl
@[simp] theorem stamp_spc : (s.stamp).spc = s.spc := rfl
@[simp] theorem stamp_fdc : (s.stamp).fdc = s.fdc := rfl
@[simp] theorem stamp_gtc : (s.stamp).gtc = s.gtc := rfl
@[simp] theorem stamp_sch : (s.stamp).sch = s.sch := rfl
@[simp] theorem stamp_cap : (s.stamp).cap = s.cap := rfl
@[simp] theorem stamp_pending : (s.stamp).pending = s.pending := rfl

@[simp] theorem modOcc_powered (n : Nat) (f : Occupancy → Occupancy) : (s.modOcc n f).powered = s.powered := rfl
@[simp] theorem modOcc_straps (n : Nat) (f : Occupancy → Occupancy) : (s.modOcc n f).straps = s.straps := rfl
@[simp] theorem modOcc_startKind (n : Nat) (f : Occupancy → Occupancy) : (s.modOcc n f).startKind = s.startKind := rfl
@[simp] theorem modOcc_settings (n : Nat) (f : Occupancy → Occupancy) : (s.modOcc n f).settings = s.settings := rfl
@[simp] theorem modOcc_elapsed (n : Nat) (f : Occupancy → Occupancy) : (s.modOcc n f).elapsed = s.elapsed := rfl
@[simp] theorem modOcc_moments (n : Nat) (f : Occupancy → Occupancy) : (s.modOcc n f).moments = s.moments := rfl
@[simp] theorem modOcc_pnp (n : Nat) (f : Occupancy → Occupancy) : (s.modOcc n f).pnp = s.pnp := rfl
@[simp] theorem modOcc_lif (n : Nat) (f : Occupancy → Occupancy) : (s.modOcc n f).lif = s.lif := rfl
@[simp] theorem modOcc_bal (n : Nat) (f : Occupancy → Occupancy) : (s.modOcc n f).bal = s.bal := rfl
@[simp] theorem modOcc_pwb (n : Nat) (f : Occupancy → Occupancy) : (s.modOcc n f).pwb = s.pwb := rfl
@[simp] theorem modOcc_spc (n : Nat) (f : Occupancy → Occupancy) : (s.modOcc n f).spc = s.spc := rfl
@[simp] theorem modOcc_fdc (n : Nat) (f : Occupancy → Occupancy) : (s.modOcc n f).fdc = s.fdc := rfl
@[simp] theorem modOcc_gtc (n : Nat) (f : Occupancy → Occupancy) : (s.modOcc n f).gtc = s.gtc := rfl
@[simp] theorem modOcc_sch (n : Nat) (f : Occupancy → Occupancy) : (s.modOcc n f).sch = s.sch := rfl
@[simp] theorem modOcc_cap (n : Nat) (f : Occupancy → Occupancy) : (s.modOcc n f).cap = s.cap := rfl
@[simp] theorem modOcc_pending (n : Nat) (f : Occupancy → Occupancy) : (s.modOcc n f).pending = s.pending := rfl

@[simp] theorem notify_powered (k : NoticeKind) (n : Nat) : (s.notify k n).powered = s.powered := rfl
@[simp] theorem notify_straps (k : NoticeKind) (n : Nat) : (s.notify k n).straps = s.straps := rfl
@[simp] theorem notify_startKind (k : NoticeKind) (n : Nat) : (s.notify k n).startKind = s.startKind := rfl
@[simp] theorem notify_settings (k : NoticeKind) (n : Nat) : (s.notify k n).settings = s.settings := rfl
@[simp] theorem notify_elapsed (k : NoticeKind) (n : Nat) : (s.notify k n).elapsed = s.elapsed := rfl
@[simp] theorem notify_moments (k : NoticeKind) (n : Nat) : (s.notify k n).moments = s.moments := rfl
@[simp] theorem notify_pnp (k : NoticeKind) (n : Nat) : (s.notify k n).pnp = s.pnp := rfl
@[simp] theorem notify_lif (k : NoticeKind) (n : Nat) : (s.notify k n).lif = s.lif := rfl
@[simp] theorem notify_bal (k : NoticeKind) (n : Nat) : (s.notify k n).bal = s.bal := rfl
@[simp] theorem notify_pwb (k : NoticeKind) (n : Nat) : (s.notify k n).pwb = s.pwb := rfl
@[simp] theorem notify_spc (k : NoticeKind) (n : Nat) : (s.notify k n).spc = s.spc := rfl
@[simp] theorem notify_fdc (k : NoticeKind) (n : Nat) : (s.notify k n).fdc = s.fdc := rfl
@[simp] theorem notify_gtc (k : NoticeKind) (n : Nat) : (s.notify k n).gtc = s.gtc := rfl
@[simp] theorem notify_sch (k : NoticeKind) (n : Nat) : (s.notify k n).sch = s.sch := rfl
@[simp] theorem notify_cap (k : NoticeKind) (n : Nat) : (s.notify k n).cap = s.cap := rfl
@[simp] theorem notify_pending (k : NoticeKind) (n : Nat) : (s.notify k n).pending = s.pending := rfl

@[simp] theorem dropHold_powered (n i : Nat) : (s.dropHold n i).powered = s.powered := rfl
@[simp] theorem dropHold_straps (n i : Nat) : (s.dropHold n i).straps = s.straps := rfl
@[simp] theorem dropHold_startKind (n i : Nat) : (s.dropHold n i).startKind = s.startKind := rfl
@[simp] theorem dropHold_settings (n i : Nat) : (s.dropHold n i).settings = s.settings := rfl
@[simp] theorem dropHold_elapsed (n i : Nat) : (s.dropHold n i).elapsed = s.elapsed := rfl
@[simp] theorem dropHold_moments (n i : Nat) : (s.dropHold n i).moments = s.moments := rfl
@[simp] theorem dropHold_pnp (n i : Nat) : (s.dropHold n i).pnp = s.pnp := rfl
@[simp] theorem dropHold_lif (n i : Nat) : (s.dropHold n i).lif = s.lif := rfl
@[simp] theorem dropHold_bal (n i : Nat) : (s.dropHold n i).bal = s.bal := rfl
@[simp] theorem dropHold_pwb (n i : Nat) : (s.dropHold n i).pwb = s.pwb := rfl
@[simp] theorem dropHold_spc (n i : Nat) : (s.dropHold n i).spc = s.spc := rfl
@[simp] theorem dropHold_fdc (n i : Nat) : (s.dropHold n i).fdc = s.fdc := rfl
@[simp] theorem dropHold_gtc (n i : Nat) : (s.dropHold n i).gtc = s.gtc := rfl
@[simp] theorem dropHold_sch (n i : Nat) : (s.dropHold n i).sch = s.sch := rfl
@[simp] theorem dropHold_cap (n i : Nat) : (s.dropHold n i).cap = s.cap := rfl
@[simp] theorem dropHold_pending (n i : Nat) : (s.dropHold n i).pending = s.pending := rfl

@[simp] theorem removeOcc_powered (n : Nat) : (s.removeOcc n).powered = s.powered := rfl
@[simp] theorem removeOcc_straps (n : Nat) : (s.removeOcc n).straps = s.straps := rfl
@[simp] theorem removeOcc_startKind (n : Nat) : (s.removeOcc n).startKind = s.startKind := rfl
@[simp] theorem removeOcc_settings (n : Nat) : (s.removeOcc n).settings = s.settings := rfl
@[simp] theorem removeOcc_elapsed (n : Nat) : (s.removeOcc n).elapsed = s.elapsed := rfl
@[simp] theorem removeOcc_moments (n : Nat) : (s.removeOcc n).moments = s.moments := rfl
@[simp] theorem removeOcc_pnp (n : Nat) : (s.removeOcc n).pnp = s.pnp := rfl
@[simp] theorem removeOcc_lif (n : Nat) : (s.removeOcc n).lif = s.lif := rfl
@[simp] theorem removeOcc_bal (n : Nat) : (s.removeOcc n).bal = s.bal := rfl
@[simp] theorem removeOcc_pwb (n : Nat) : (s.removeOcc n).pwb = s.pwb := rfl
@[simp] theorem removeOcc_fdc (n : Nat) : (s.removeOcc n).fdc = s.fdc := rfl
@[simp] theorem removeOcc_gtc (n : Nat) : (s.removeOcc n).gtc = s.gtc := rfl
@[simp] theorem removeOcc_sch (n : Nat) : (s.removeOcc n).sch = s.sch := rfl
@[simp] theorem removeOcc_cap (n : Nat) : (s.removeOcc n).cap = s.cap := rfl
@[simp] theorem removeOcc_pending (n : Nat) : (s.removeOcc n).pending = s.pending := rfl

@[simp] theorem modPoint_powered (n : Nat) (f : Point → Point) : (s.modPoint n f).powered = s.powered := rfl
@[simp] theorem modPoint_straps (n : Nat) (f : Point → Point) : (s.modPoint n f).straps = s.straps := rfl
@[simp] theorem modPoint_startKind (n : Nat) (f : Point → Point) : (s.modPoint n f).startKind = s.startKind := rfl
@[simp] theorem modPoint_settings (n : Nat) (f : Point → Point) : (s.modPoint n f).settings = s.settings := rfl
@[simp] theorem modPoint_elapsed (n : Nat) (f : Point → Point) : (s.modPoint n f).elapsed = s.elapsed := rfl
@[simp] theorem modPoint_moments (n : Nat) (f : Point → Point) : (s.modPoint n f).moments = s.moments := rfl
@[simp] theorem modPoint_pnp (n : Nat) (f : Point → Point) : (s.modPoint n f).pnp = s.pnp := rfl
@[simp] theorem modPoint_lif (n : Nat) (f : Point → Point) : (s.modPoint n f).lif = s.lif := rfl
@[simp] theorem modPoint_bal (n : Nat) (f : Point → Point) : (s.modPoint n f).bal = s.bal := rfl
@[simp] theorem modPoint_occ (n : Nat) (f : Point → Point) : (s.modPoint n f).occ = s.occ := rfl
@[simp] theorem modPoint_pwb (n : Nat) (f : Point → Point) : (s.modPoint n f).pwb = s.pwb := rfl
@[simp] theorem modPoint_fdc (n : Nat) (f : Point → Point) : (s.modPoint n f).fdc = s.fdc := rfl
@[simp] theorem modPoint_gtc (n : Nat) (f : Point → Point) : (s.modPoint n f).gtc = s.gtc := rfl
@[simp] theorem modPoint_sch (n : Nat) (f : Point → Point) : (s.modPoint n f).sch = s.sch := rfl
@[simp] theorem modPoint_cap (n : Nat) (f : Point → Point) : (s.modPoint n f).cap = s.cap := rfl
@[simp] theorem modPoint_pending (n : Nat) (f : Point → Point) : (s.modPoint n f).pending = s.pending := rfl

@[simp] theorem modPost_powered (n : Nat) (f : Post → Post) : (s.modPost n f).powered = s.powered := rfl
@[simp] theorem modPost_straps (n : Nat) (f : Post → Post) : (s.modPost n f).straps = s.straps := rfl
@[simp] theorem modPost_startKind (n : Nat) (f : Post → Post) : (s.modPost n f).startKind = s.startKind := rfl
@[simp] theorem modPost_settings (n : Nat) (f : Post → Post) : (s.modPost n f).settings = s.settings := rfl
@[simp] theorem modPost_elapsed (n : Nat) (f : Post → Post) : (s.modPost n f).elapsed = s.elapsed := rfl
@[simp] theorem modPost_moments (n : Nat) (f : Post → Post) : (s.modPost n f).moments = s.moments := rfl
@[simp] theorem modPost_pnp (n : Nat) (f : Post → Post) : (s.modPost n f).pnp = s.pnp := rfl
@[simp] theorem modPost_lif (n : Nat) (f : Post → Post) : (s.modPost n f).lif = s.lif := rfl
@[simp] theorem modPost_bal (n : Nat) (f : Post → Post) : (s.modPost n f).bal = s.bal := rfl
@[simp] theorem modPost_occ (n : Nat) (f : Post → Post) : (s.modPost n f).occ = s.occ := rfl
@[simp] theorem modPost_pwb (n : Nat) (f : Post → Post) : (s.modPost n f).pwb = s.pwb := rfl
@[simp] theorem modPost_fdc (n : Nat) (f : Post → Post) : (s.modPost n f).fdc = s.fdc := rfl
@[simp] theorem modPost_gtc (n : Nat) (f : Post → Post) : (s.modPost n f).gtc = s.gtc := rfl
@[simp] theorem modPost_sch (n : Nat) (f : Post → Post) : (s.modPost n f).sch = s.sch := rfl
@[simp] theorem modPost_cap (n : Nat) (f : Post → Post) : (s.modPost n f).cap = s.cap := rfl
@[simp] theorem modPost_pending (n : Nat) (f : Post → Post) : (s.modPost n f).pending = s.pending := rfl

@[simp] theorem modLink_powered (n : Nat) (f : Link → Link) : (s.modLink n f).powered = s.powered := rfl
@[simp] theorem modLink_straps (n : Nat) (f : Link → Link) : (s.modLink n f).straps = s.straps := rfl
@[simp] theorem modLink_startKind (n : Nat) (f : Link → Link) : (s.modLink n f).startKind = s.startKind := rfl
@[simp] theorem modLink_settings (n : Nat) (f : Link → Link) : (s.modLink n f).settings = s.settings := rfl
@[simp] theorem modLink_elapsed (n : Nat) (f : Link → Link) : (s.modLink n f).elapsed = s.elapsed := rfl
@[simp] theorem modLink_moments (n : Nat) (f : Link → Link) : (s.modLink n f).moments = s.moments := rfl
@[simp] theorem modLink_pnp (n : Nat) (f : Link → Link) : (s.modLink n f).pnp = s.pnp := rfl
@[simp] theorem modLink_lif (n : Nat) (f : Link → Link) : (s.modLink n f).lif = s.lif := rfl
@[simp] theorem modLink_bal (n : Nat) (f : Link → Link) : (s.modLink n f).bal = s.bal := rfl
@[simp] theorem modLink_occ (n : Nat) (f : Link → Link) : (s.modLink n f).occ = s.occ := rfl
@[simp] theorem modLink_pwb (n : Nat) (f : Link → Link) : (s.modLink n f).pwb = s.pwb := rfl
@[simp] theorem modLink_fdc (n : Nat) (f : Link → Link) : (s.modLink n f).fdc = s.fdc := rfl
@[simp] theorem modLink_gtc (n : Nat) (f : Link → Link) : (s.modLink n f).gtc = s.gtc := rfl
@[simp] theorem modLink_sch (n : Nat) (f : Link → Link) : (s.modLink n f).sch = s.sch := rfl
@[simp] theorem modLink_cap (n : Nat) (f : Link → Link) : (s.modLink n f).cap = s.cap := rfl
@[simp] theorem modLink_pending (n : Nat) (f : Link → Link) : (s.modLink n f).pending = s.pending := rfl

@[simp] theorem modRecord_powered (n : Nat) (f : JournalRecord → JournalRecord) : (s.modRecord n f).powered = s.powered := rfl
@[simp] theorem modRecord_straps (n : Nat) (f : JournalRecord → JournalRecord) : (s.modRecord n f).straps = s.straps := rfl
@[simp] theorem modRecord_startKind (n : Nat) (f : JournalRecord → JournalRecord) : (s.modRecord n f).startKind = s.startKind := rfl
@[simp] theorem modRecord_settings (n : Nat) (f : JournalRecord → JournalRecord) : (s.modRecord n f).settings = s.settings := rfl
@[simp] theorem modRecord_elapsed (n : Nat) (f : JournalRecord → JournalRecord) : (s.modRecord n f).elapsed = s.elapsed := rfl
@[simp] theorem modRecord_moments (n : Nat) (f : JournalRecord → JournalRecord) : (s.modRecord n f).moments = s.moments := rfl
@[simp] theorem modRecord_pnp (n : Nat) (f : JournalRecord → JournalRecord) : (s.modRecord n f).pnp = s.pnp := rfl
@[simp] theorem modRecord_lif (n : Nat) (f : JournalRecord → JournalRecord) : (s.modRecord n f).lif = s.lif := rfl
@[simp] theorem modRecord_bal (n : Nat) (f : JournalRecord → JournalRecord) : (s.modRecord n f).bal = s.bal := rfl
@[simp] theorem modRecord_occ (n : Nat) (f : JournalRecord → JournalRecord) : (s.modRecord n f).occ = s.occ := rfl
@[simp] theorem modRecord_pwb (n : Nat) (f : JournalRecord → JournalRecord) : (s.modRecord n f).pwb = s.pwb := rfl
@[simp] theorem modRecord_spc (n : Nat) (f : JournalRecord → JournalRecord) : (s.modRecord n f).spc = s.spc := rfl
@[simp] theorem modRecord_gtc (n : Nat) (f : JournalRecord → JournalRecord) : (s.modRecord n f).gtc = s.gtc := rfl
@[simp] theorem modRecord_sch (n : Nat) (f : JournalRecord → JournalRecord) : (s.modRecord n f).sch = s.sch := rfl
@[simp] theorem modRecord_cap (n : Nat) (f : JournalRecord → JournalRecord) : (s.modRecord n f).cap = s.cap := rfl
@[simp] theorem modRecord_pending (n : Nat) (f : JournalRecord → JournalRecord) : (s.modRecord n f).pending = s.pending := rfl

@[simp] theorem dropOutlet_powered (n : Nat) : (s.dropOutlet n).powered = s.powered := rfl
@[simp] theorem dropOutlet_straps (n : Nat) : (s.dropOutlet n).straps = s.straps := rfl
@[simp] theorem dropOutlet_startKind (n : Nat) : (s.dropOutlet n).startKind = s.startKind := rfl
@[simp] theorem dropOutlet_settings (n : Nat) : (s.dropOutlet n).settings = s.settings := rfl
@[simp] theorem dropOutlet_elapsed (n : Nat) : (s.dropOutlet n).elapsed = s.elapsed := rfl
@[simp] theorem dropOutlet_moments (n : Nat) : (s.dropOutlet n).moments = s.moments := rfl
@[simp] theorem dropOutlet_pnp (n : Nat) : (s.dropOutlet n).pnp = s.pnp := rfl
@[simp] theorem dropOutlet_lif (n : Nat) : (s.dropOutlet n).lif = s.lif := rfl
@[simp] theorem dropOutlet_bal (n : Nat) : (s.dropOutlet n).bal = s.bal := rfl
@[simp] theorem dropOutlet_occ (n : Nat) : (s.dropOutlet n).occ = s.occ := rfl
@[simp] theorem dropOutlet_spc (n : Nat) : (s.dropOutlet n).spc = s.spc := rfl
@[simp] theorem dropOutlet_fdc (n : Nat) : (s.dropOutlet n).fdc = s.fdc := rfl
@[simp] theorem dropOutlet_gtc (n : Nat) : (s.dropOutlet n).gtc = s.gtc := rfl
@[simp] theorem dropOutlet_sch (n : Nat) : (s.dropOutlet n).sch = s.sch := rfl
@[simp] theorem dropOutlet_cap (n : Nat) : (s.dropOutlet n).cap = s.cap := rfl
@[simp] theorem dropOutlet_pending (n : Nat) : (s.dropOutlet n).pending = s.pending := rfl

@[simp] theorem dropDemands_powered (n : Nat) : (s.dropDemands n).powered = s.powered := rfl
@[simp] theorem dropDemands_straps (n : Nat) : (s.dropDemands n).straps = s.straps := rfl
@[simp] theorem dropDemands_startKind (n : Nat) : (s.dropDemands n).startKind = s.startKind := rfl
@[simp] theorem dropDemands_settings (n : Nat) : (s.dropDemands n).settings = s.settings := rfl
@[simp] theorem dropDemands_elapsed (n : Nat) : (s.dropDemands n).elapsed = s.elapsed := rfl
@[simp] theorem dropDemands_moments (n : Nat) : (s.dropDemands n).moments = s.moments := rfl
@[simp] theorem dropDemands_pnp (n : Nat) : (s.dropDemands n).pnp = s.pnp := rfl
@[simp] theorem dropDemands_lif (n : Nat) : (s.dropDemands n).lif = s.lif := rfl
@[simp] theorem dropDemands_bal (n : Nat) : (s.dropDemands n).bal = s.bal := rfl
@[simp] theorem dropDemands_occ (n : Nat) : (s.dropDemands n).occ = s.occ := rfl
@[simp] theorem dropDemands_spc (n : Nat) : (s.dropDemands n).spc = s.spc := rfl
@[simp] theorem dropDemands_fdc (n : Nat) : (s.dropDemands n).fdc = s.fdc := rfl
@[simp] theorem dropDemands_gtc (n : Nat) : (s.dropDemands n).gtc = s.gtc := rfl
@[simp] theorem dropDemands_sch (n : Nat) : (s.dropDemands n).sch = s.sch := rfl
@[simp] theorem dropDemands_cap (n : Nat) : (s.dropDemands n).cap = s.cap := rfl
@[simp] theorem dropDemands_pending (n : Nat) : (s.dropDemands n).pending = s.pending := rfl

@[simp] theorem popDemand_powered : (s.popDemand).powered = s.powered := rfl
@[simp] theorem popDemand_straps : (s.popDemand).straps = s.straps := rfl
@[simp] theorem popDemand_startKind : (s.popDemand).startKind = s.startKind := rfl
@[simp] theorem popDemand_settings : (s.popDemand).settings = s.settings := rfl
@[simp] theorem popDemand_elapsed : (s.popDemand).elapsed = s.elapsed := rfl
@[simp] theorem popDemand_moments : (s.popDemand).moments = s.moments := rfl
@[simp] theorem popDemand_pnp : (s.popDemand).pnp = s.pnp := rfl
@[simp] theorem popDemand_lif : (s.popDemand).lif = s.lif := rfl
@[simp] theorem popDemand_bal : (s.popDemand).bal = s.bal := rfl
@[simp] theorem popDemand_occ : (s.popDemand).occ = s.occ := rfl
@[simp] theorem popDemand_spc : (s.popDemand).spc = s.spc := rfl
@[simp] theorem popDemand_fdc : (s.popDemand).fdc = s.fdc := rfl
@[simp] theorem popDemand_gtc : (s.popDemand).gtc = s.gtc := rfl
@[simp] theorem popDemand_sch : (s.popDemand).sch = s.sch := rfl
@[simp] theorem popDemand_cap : (s.popDemand).cap = s.cap := rfl
@[simp] theorem popDemand_pending : (s.popDemand).pending = s.pending := rfl

@[simp] theorem modHead_powered (f : Demand → Demand) : (s.modHead f).powered = s.powered := rfl
@[simp] theorem modHead_straps (f : Demand → Demand) : (s.modHead f).straps = s.straps := rfl
@[simp] theorem modHead_startKind (f : Demand → Demand) : (s.modHead f).startKind = s.startKind := rfl
@[simp] theorem modHead_settings (f : Demand → Demand) : (s.modHead f).settings = s.settings := rfl
@[simp] theorem modHead_elapsed (f : Demand → Demand) : (s.modHead f).elapsed = s.elapsed := rfl
@[simp] theorem modHead_moments (f : Demand → Demand) : (s.modHead f).moments = s.moments := rfl
@[simp] theorem modHead_pnp (f : Demand → Demand) : (s.modHead f).pnp = s.pnp := rfl
@[simp] theorem modHead_lif (f : Demand → Demand) : (s.modHead f).lif = s.lif := rfl
@[simp] theorem modHead_bal (f : Demand → Demand) : (s.modHead f).bal = s.bal := rfl
@[simp] theorem modHead_occ (f : Demand → Demand) : (s.modHead f).occ = s.occ := rfl
@[simp] theorem modHead_spc (f : Demand → Demand) : (s.modHead f).spc = s.spc := rfl
@[simp] theorem modHead_fdc (f : Demand → Demand) : (s.modHead f).fdc = s.fdc := rfl
@[simp] theorem modHead_gtc (f : Demand → Demand) : (s.modHead f).gtc = s.gtc := rfl
@[simp] theorem modHead_sch (f : Demand → Demand) : (s.modHead f).sch = s.sch := rfl
@[simp] theorem modHead_cap (f : Demand → Demand) : (s.modHead f).cap = s.cap := rfl
@[simp] theorem modHead_pending (f : Demand → Demand) : (s.modHead f).pending = s.pending := rfl

@[simp] theorem dropLoans_powered (p : Loan → Bool) : (s.dropLoans p).powered = s.powered := rfl
@[simp] theorem dropLoans_straps (p : Loan → Bool) : (s.dropLoans p).straps = s.straps := rfl
@[simp] theorem dropLoans_startKind (p : Loan → Bool) : (s.dropLoans p).startKind = s.startKind := rfl
@[simp] theorem dropLoans_settings (p : Loan → Bool) : (s.dropLoans p).settings = s.settings := rfl
@[simp] theorem dropLoans_elapsed (p : Loan → Bool) : (s.dropLoans p).elapsed = s.elapsed := rfl
@[simp] theorem dropLoans_moments (p : Loan → Bool) : (s.dropLoans p).moments = s.moments := rfl
@[simp] theorem dropLoans_pnp (p : Loan → Bool) : (s.dropLoans p).pnp = s.pnp := rfl
@[simp] theorem dropLoans_lif (p : Loan → Bool) : (s.dropLoans p).lif = s.lif := rfl
@[simp] theorem dropLoans_bal (p : Loan → Bool) : (s.dropLoans p).bal = s.bal := rfl
@[simp] theorem dropLoans_occ (p : Loan → Bool) : (s.dropLoans p).occ = s.occ := rfl
@[simp] theorem dropLoans_spc (p : Loan → Bool) : (s.dropLoans p).spc = s.spc := rfl
@[simp] theorem dropLoans_fdc (p : Loan → Bool) : (s.dropLoans p).fdc = s.fdc := rfl
@[simp] theorem dropLoans_gtc (p : Loan → Bool) : (s.dropLoans p).gtc = s.gtc := rfl
@[simp] theorem dropLoans_sch (p : Loan → Bool) : (s.dropLoans p).sch = s.sch := rfl
@[simp] theorem dropLoans_cap (p : Loan → Bool) : (s.dropLoans p).cap = s.cap := rfl
@[simp] theorem dropLoans_pending (p : Loan → Bool) : (s.dropLoans p).pending = s.pending := rfl

@[simp] theorem modLoan_powered (b : Bool) (n : Nat) (f : Loan → Loan) : (s.modLoan b n f).powered = s.powered := rfl
@[simp] theorem modLoan_straps (b : Bool) (n : Nat) (f : Loan → Loan) : (s.modLoan b n f).straps = s.straps := rfl
@[simp] theorem modLoan_startKind (b : Bool) (n : Nat) (f : Loan → Loan) : (s.modLoan b n f).startKind = s.startKind := rfl
@[simp] theorem modLoan_settings (b : Bool) (n : Nat) (f : Loan → Loan) : (s.modLoan b n f).settings = s.settings := rfl
@[simp] theorem modLoan_elapsed (b : Bool) (n : Nat) (f : Loan → Loan) : (s.modLoan b n f).elapsed = s.elapsed := rfl
@[simp] theorem modLoan_moments (b : Bool) (n : Nat) (f : Loan → Loan) : (s.modLoan b n f).moments = s.moments := rfl
@[simp] theorem modLoan_pnp (b : Bool) (n : Nat) (f : Loan → Loan) : (s.modLoan b n f).pnp = s.pnp := rfl
@[simp] theorem modLoan_lif (b : Bool) (n : Nat) (f : Loan → Loan) : (s.modLoan b n f).lif = s.lif := rfl
@[simp] theorem modLoan_bal (b : Bool) (n : Nat) (f : Loan → Loan) : (s.modLoan b n f).bal = s.bal := rfl
@[simp] theorem modLoan_occ (b : Bool) (n : Nat) (f : Loan → Loan) : (s.modLoan b n f).occ = s.occ := rfl
@[simp] theorem modLoan_spc (b : Bool) (n : Nat) (f : Loan → Loan) : (s.modLoan b n f).spc = s.spc := rfl
@[simp] theorem modLoan_fdc (b : Bool) (n : Nat) (f : Loan → Loan) : (s.modLoan b n f).fdc = s.fdc := rfl
@[simp] theorem modLoan_gtc (b : Bool) (n : Nat) (f : Loan → Loan) : (s.modLoan b n f).gtc = s.gtc := rfl
@[simp] theorem modLoan_sch (b : Bool) (n : Nat) (f : Loan → Loan) : (s.modLoan b n f).sch = s.sch := rfl
@[simp] theorem modLoan_cap (b : Bool) (n : Nat) (f : Loan → Loan) : (s.modLoan b n f).cap = s.cap := rfl
@[simp] theorem modLoan_pending (b : Bool) (n : Nat) (f : Loan → Loan) : (s.modLoan b n f).pending = s.pending := rfl

@[simp] theorem modRound_powered (t : Sys2Proof.Tag) (f : Round → Round) : (s.modRound t f).powered = s.powered := rfl
@[simp] theorem modRound_straps (t : Sys2Proof.Tag) (f : Round → Round) : (s.modRound t f).straps = s.straps := rfl
@[simp] theorem modRound_startKind (t : Sys2Proof.Tag) (f : Round → Round) : (s.modRound t f).startKind = s.startKind := rfl
@[simp] theorem modRound_settings (t : Sys2Proof.Tag) (f : Round → Round) : (s.modRound t f).settings = s.settings := rfl
@[simp] theorem modRound_elapsed (t : Sys2Proof.Tag) (f : Round → Round) : (s.modRound t f).elapsed = s.elapsed := rfl
@[simp] theorem modRound_moments (t : Sys2Proof.Tag) (f : Round → Round) : (s.modRound t f).moments = s.moments := rfl
@[simp] theorem modRound_pnp (t : Sys2Proof.Tag) (f : Round → Round) : (s.modRound t f).pnp = s.pnp := rfl
@[simp] theorem modRound_lif (t : Sys2Proof.Tag) (f : Round → Round) : (s.modRound t f).lif = s.lif := rfl
@[simp] theorem modRound_occ (t : Sys2Proof.Tag) (f : Round → Round) : (s.modRound t f).occ = s.occ := rfl
@[simp] theorem modRound_pwb (t : Sys2Proof.Tag) (f : Round → Round) : (s.modRound t f).pwb = s.pwb := rfl
@[simp] theorem modRound_spc (t : Sys2Proof.Tag) (f : Round → Round) : (s.modRound t f).spc = s.spc := rfl
@[simp] theorem modRound_fdc (t : Sys2Proof.Tag) (f : Round → Round) : (s.modRound t f).fdc = s.fdc := rfl
@[simp] theorem modRound_gtc (t : Sys2Proof.Tag) (f : Round → Round) : (s.modRound t f).gtc = s.gtc := rfl
@[simp] theorem modRound_sch (t : Sys2Proof.Tag) (f : Round → Round) : (s.modRound t f).sch = s.sch := rfl
@[simp] theorem modRound_cap (t : Sys2Proof.Tag) (f : Round → Round) : (s.modRound t f).cap = s.cap := rfl
@[simp] theorem modRound_pending (t : Sys2Proof.Tag) (f : Round → Round) : (s.modRound t f).pending = s.pending := rfl

@[simp] theorem setMark_powered (n : Nat) (t : Sys2Proof.Tag) : (s.setMark n t).powered = s.powered := rfl
@[simp] theorem setMark_straps (n : Nat) (t : Sys2Proof.Tag) : (s.setMark n t).straps = s.straps := rfl
@[simp] theorem setMark_startKind (n : Nat) (t : Sys2Proof.Tag) : (s.setMark n t).startKind = s.startKind := rfl
@[simp] theorem setMark_settings (n : Nat) (t : Sys2Proof.Tag) : (s.setMark n t).settings = s.settings := rfl
@[simp] theorem setMark_elapsed (n : Nat) (t : Sys2Proof.Tag) : (s.setMark n t).elapsed = s.elapsed := rfl
@[simp] theorem setMark_moments (n : Nat) (t : Sys2Proof.Tag) : (s.setMark n t).moments = s.moments := rfl
@[simp] theorem setMark_pnp (n : Nat) (t : Sys2Proof.Tag) : (s.setMark n t).pnp = s.pnp := rfl
@[simp] theorem setMark_lif (n : Nat) (t : Sys2Proof.Tag) : (s.setMark n t).lif = s.lif := rfl
@[simp] theorem setMark_occ (n : Nat) (t : Sys2Proof.Tag) : (s.setMark n t).occ = s.occ := rfl
@[simp] theorem setMark_pwb (n : Nat) (t : Sys2Proof.Tag) : (s.setMark n t).pwb = s.pwb := rfl
@[simp] theorem setMark_spc (n : Nat) (t : Sys2Proof.Tag) : (s.setMark n t).spc = s.spc := rfl
@[simp] theorem setMark_fdc (n : Nat) (t : Sys2Proof.Tag) : (s.setMark n t).fdc = s.fdc := rfl
@[simp] theorem setMark_gtc (n : Nat) (t : Sys2Proof.Tag) : (s.setMark n t).gtc = s.gtc := rfl
@[simp] theorem setMark_sch (n : Nat) (t : Sys2Proof.Tag) : (s.setMark n t).sch = s.sch := rfl
@[simp] theorem setMark_cap (n : Nat) (t : Sys2Proof.Tag) : (s.setMark n t).cap = s.cap := rfl
@[simp] theorem setMark_pending (n : Nat) (t : Sys2Proof.Tag) : (s.setMark n t).pending = s.pending := rfl

@[simp] theorem clearMark_powered (t : Sys2Proof.Tag) : (s.clearMark t).powered = s.powered := rfl
@[simp] theorem clearMark_straps (t : Sys2Proof.Tag) : (s.clearMark t).straps = s.straps := rfl
@[simp] theorem clearMark_startKind (t : Sys2Proof.Tag) : (s.clearMark t).startKind = s.startKind := rfl
@[simp] theorem clearMark_settings (t : Sys2Proof.Tag) : (s.clearMark t).settings = s.settings := rfl
@[simp] theorem clearMark_elapsed (t : Sys2Proof.Tag) : (s.clearMark t).elapsed = s.elapsed := rfl
@[simp] theorem clearMark_moments (t : Sys2Proof.Tag) : (s.clearMark t).moments = s.moments := rfl
@[simp] theorem clearMark_pnp (t : Sys2Proof.Tag) : (s.clearMark t).pnp = s.pnp := rfl
@[simp] theorem clearMark_lif (t : Sys2Proof.Tag) : (s.clearMark t).lif = s.lif := rfl
@[simp] theorem clearMark_occ (t : Sys2Proof.Tag) : (s.clearMark t).occ = s.occ := rfl
@[simp] theorem clearMark_pwb (t : Sys2Proof.Tag) : (s.clearMark t).pwb = s.pwb := rfl
@[simp] theorem clearMark_spc (t : Sys2Proof.Tag) : (s.clearMark t).spc = s.spc := rfl
@[simp] theorem clearMark_fdc (t : Sys2Proof.Tag) : (s.clearMark t).fdc = s.fdc := rfl
@[simp] theorem clearMark_gtc (t : Sys2Proof.Tag) : (s.clearMark t).gtc = s.gtc := rfl
@[simp] theorem clearMark_sch (t : Sys2Proof.Tag) : (s.clearMark t).sch = s.sch := rfl
@[simp] theorem clearMark_cap (t : Sys2Proof.Tag) : (s.clearMark t).cap = s.cap := rfl
@[simp] theorem clearMark_pending (t : Sys2Proof.Tag) : (s.clearMark t).pending = s.pending := rfl

@[simp] theorem dropRound_powered (t : Sys2Proof.Tag) : (s.dropRound t).powered = s.powered := rfl
@[simp] theorem dropRound_straps (t : Sys2Proof.Tag) : (s.dropRound t).straps = s.straps := rfl
@[simp] theorem dropRound_startKind (t : Sys2Proof.Tag) : (s.dropRound t).startKind = s.startKind := rfl
@[simp] theorem dropRound_settings (t : Sys2Proof.Tag) : (s.dropRound t).settings = s.settings := rfl
@[simp] theorem dropRound_elapsed (t : Sys2Proof.Tag) : (s.dropRound t).elapsed = s.elapsed := rfl
@[simp] theorem dropRound_moments (t : Sys2Proof.Tag) : (s.dropRound t).moments = s.moments := rfl
@[simp] theorem dropRound_pnp (t : Sys2Proof.Tag) : (s.dropRound t).pnp = s.pnp := rfl
@[simp] theorem dropRound_lif (t : Sys2Proof.Tag) : (s.dropRound t).lif = s.lif := rfl
@[simp] theorem dropRound_occ (t : Sys2Proof.Tag) : (s.dropRound t).occ = s.occ := rfl
@[simp] theorem dropRound_pwb (t : Sys2Proof.Tag) : (s.dropRound t).pwb = s.pwb := rfl
@[simp] theorem dropRound_spc (t : Sys2Proof.Tag) : (s.dropRound t).spc = s.spc := rfl
@[simp] theorem dropRound_fdc (t : Sys2Proof.Tag) : (s.dropRound t).fdc = s.fdc := rfl
@[simp] theorem dropRound_gtc (t : Sys2Proof.Tag) : (s.dropRound t).gtc = s.gtc := rfl
@[simp] theorem dropRound_sch (t : Sys2Proof.Tag) : (s.dropRound t).sch = s.sch := rfl
@[simp] theorem dropRound_cap (t : Sys2Proof.Tag) : (s.dropRound t).cap = s.cap := rfl
@[simp] theorem dropRound_pending (t : Sys2Proof.Tag) : (s.dropRound t).pending = s.pending := rfl

@[simp] theorem awaitHear_powered (t : Sys2Proof.Tag) (h : AssignHeard) : (s.awaitHear t h).powered = s.powered := rfl
@[simp] theorem awaitHear_straps (t : Sys2Proof.Tag) (h : AssignHeard) : (s.awaitHear t h).straps = s.straps := rfl
@[simp] theorem awaitHear_startKind (t : Sys2Proof.Tag) (h : AssignHeard) : (s.awaitHear t h).startKind = s.startKind := rfl
@[simp] theorem awaitHear_settings (t : Sys2Proof.Tag) (h : AssignHeard) : (s.awaitHear t h).settings = s.settings := rfl
@[simp] theorem awaitHear_elapsed (t : Sys2Proof.Tag) (h : AssignHeard) : (s.awaitHear t h).elapsed = s.elapsed := rfl
@[simp] theorem awaitHear_moments (t : Sys2Proof.Tag) (h : AssignHeard) : (s.awaitHear t h).moments = s.moments := rfl
@[simp] theorem awaitHear_pnp (t : Sys2Proof.Tag) (h : AssignHeard) : (s.awaitHear t h).pnp = s.pnp := rfl
@[simp] theorem awaitHear_lif (t : Sys2Proof.Tag) (h : AssignHeard) : (s.awaitHear t h).lif = s.lif := rfl
@[simp] theorem awaitHear_occ (t : Sys2Proof.Tag) (h : AssignHeard) : (s.awaitHear t h).occ = s.occ := rfl
@[simp] theorem awaitHear_pwb (t : Sys2Proof.Tag) (h : AssignHeard) : (s.awaitHear t h).pwb = s.pwb := rfl
@[simp] theorem awaitHear_spc (t : Sys2Proof.Tag) (h : AssignHeard) : (s.awaitHear t h).spc = s.spc := rfl
@[simp] theorem awaitHear_fdc (t : Sys2Proof.Tag) (h : AssignHeard) : (s.awaitHear t h).fdc = s.fdc := rfl
@[simp] theorem awaitHear_gtc (t : Sys2Proof.Tag) (h : AssignHeard) : (s.awaitHear t h).gtc = s.gtc := rfl
@[simp] theorem awaitHear_sch (t : Sys2Proof.Tag) (h : AssignHeard) : (s.awaitHear t h).sch = s.sch := rfl
@[simp] theorem awaitHear_cap (t : Sys2Proof.Tag) (h : AssignHeard) : (s.awaitHear t h).cap = s.cap := rfl
@[simp] theorem awaitHear_pending (t : Sys2Proof.Tag) (h : AssignHeard) : (s.awaitHear t h).pending = s.pending := rfl

@[simp] theorem modStaff_powered (n : Nat) (f : Staff → Staff) : (s.modStaff n f).powered = s.powered := rfl
@[simp] theorem modStaff_straps (n : Nat) (f : Staff → Staff) : (s.modStaff n f).straps = s.straps := rfl
@[simp] theorem modStaff_startKind (n : Nat) (f : Staff → Staff) : (s.modStaff n f).startKind = s.startKind := rfl
@[simp] theorem modStaff_settings (n : Nat) (f : Staff → Staff) : (s.modStaff n f).settings = s.settings := rfl
@[simp] theorem modStaff_elapsed (n : Nat) (f : Staff → Staff) : (s.modStaff n f).elapsed = s.elapsed := rfl
@[simp] theorem modStaff_moments (n : Nat) (f : Staff → Staff) : (s.modStaff n f).moments = s.moments := rfl
@[simp] theorem modStaff_pnp (n : Nat) (f : Staff → Staff) : (s.modStaff n f).pnp = s.pnp := rfl
@[simp] theorem modStaff_lif (n : Nat) (f : Staff → Staff) : (s.modStaff n f).lif = s.lif := rfl
@[simp] theorem modStaff_bal (n : Nat) (f : Staff → Staff) : (s.modStaff n f).bal = s.bal := rfl
@[simp] theorem modStaff_occ (n : Nat) (f : Staff → Staff) : (s.modStaff n f).occ = s.occ := rfl
@[simp] theorem modStaff_pwb (n : Nat) (f : Staff → Staff) : (s.modStaff n f).pwb = s.pwb := rfl
@[simp] theorem modStaff_spc (n : Nat) (f : Staff → Staff) : (s.modStaff n f).spc = s.spc := rfl
@[simp] theorem modStaff_fdc (n : Nat) (f : Staff → Staff) : (s.modStaff n f).fdc = s.fdc := rfl
@[simp] theorem modStaff_sch (n : Nat) (f : Staff → Staff) : (s.modStaff n f).sch = s.sch := rfl
@[simp] theorem modStaff_cap (n : Nat) (f : Staff → Staff) : (s.modStaff n f).cap = s.cap := rfl
@[simp] theorem modStaff_pending (n : Nat) (f : Staff → Staff) : (s.modStaff n f).pending = s.pending := rfl

@[simp] theorem releaseLatch_powered : (s.releaseLatch).powered = s.powered := rfl
@[simp] theorem releaseLatch_straps : (s.releaseLatch).straps = s.straps := rfl
@[simp] theorem releaseLatch_startKind : (s.releaseLatch).startKind = s.startKind := rfl
@[simp] theorem releaseLatch_settings : (s.releaseLatch).settings = s.settings := rfl
@[simp] theorem releaseLatch_elapsed : (s.releaseLatch).elapsed = s.elapsed := rfl
@[simp] theorem releaseLatch_moments : (s.releaseLatch).moments = s.moments := rfl
@[simp] theorem releaseLatch_pnp : (s.releaseLatch).pnp = s.pnp := rfl
@[simp] theorem releaseLatch_lif : (s.releaseLatch).lif = s.lif := rfl
@[simp] theorem releaseLatch_bal : (s.releaseLatch).bal = s.bal := rfl
@[simp] theorem releaseLatch_occ : (s.releaseLatch).occ = s.occ := rfl
@[simp] theorem releaseLatch_pwb : (s.releaseLatch).pwb = s.pwb := rfl
@[simp] theorem releaseLatch_spc : (s.releaseLatch).spc = s.spc := rfl
@[simp] theorem releaseLatch_fdc : (s.releaseLatch).fdc = s.fdc := rfl
@[simp] theorem releaseLatch_sch : (s.releaseLatch).sch = s.sch := rfl
@[simp] theorem releaseLatch_cap : (s.releaseLatch).cap = s.cap := rfl
@[simp] theorem releaseLatch_pending : (s.releaseLatch).pending = s.pending := rfl

@[simp] theorem setNight_powered (b : Bool) : (s.setNight b).powered = s.powered := rfl
@[simp] theorem setNight_straps (b : Bool) : (s.setNight b).straps = s.straps := rfl
@[simp] theorem setNight_startKind (b : Bool) : (s.setNight b).startKind = s.startKind := rfl
@[simp] theorem setNight_settings (b : Bool) : (s.setNight b).settings = s.settings := rfl
@[simp] theorem setNight_elapsed (b : Bool) : (s.setNight b).elapsed = s.elapsed := rfl
@[simp] theorem setNight_moments (b : Bool) : (s.setNight b).moments = s.moments := rfl
@[simp] theorem setNight_pnp (b : Bool) : (s.setNight b).pnp = s.pnp := rfl
@[simp] theorem setNight_lif (b : Bool) : (s.setNight b).lif = s.lif := rfl
@[simp] theorem setNight_bal (b : Bool) : (s.setNight b).bal = s.bal := rfl
@[simp] theorem setNight_occ (b : Bool) : (s.setNight b).occ = s.occ := rfl
@[simp] theorem setNight_pwb (b : Bool) : (s.setNight b).pwb = s.pwb := rfl
@[simp] theorem setNight_spc (b : Bool) : (s.setNight b).spc = s.spc := rfl
@[simp] theorem setNight_fdc (b : Bool) : (s.setNight b).fdc = s.fdc := rfl
@[simp] theorem setNight_sch (b : Bool) : (s.setNight b).sch = s.sch := rfl
@[simp] theorem setNight_cap (b : Bool) : (s.setNight b).cap = s.cap := rfl
@[simp] theorem setNight_pending (b : Bool) : (s.setNight b).pending = s.pending := rfl

@[simp] theorem setLockdown_powered (b : Bool) : (s.setLockdown b).powered = s.powered := rfl
@[simp] theorem setLockdown_straps (b : Bool) : (s.setLockdown b).straps = s.straps := rfl
@[simp] theorem setLockdown_startKind (b : Bool) : (s.setLockdown b).startKind = s.startKind := rfl
@[simp] theorem setLockdown_settings (b : Bool) : (s.setLockdown b).settings = s.settings := rfl
@[simp] theorem setLockdown_elapsed (b : Bool) : (s.setLockdown b).elapsed = s.elapsed := rfl
@[simp] theorem setLockdown_moments (b : Bool) : (s.setLockdown b).moments = s.moments := rfl
@[simp] theorem setLockdown_pnp (b : Bool) : (s.setLockdown b).pnp = s.pnp := rfl
@[simp] theorem setLockdown_lif (b : Bool) : (s.setLockdown b).lif = s.lif := rfl
@[simp] theorem setLockdown_bal (b : Bool) : (s.setLockdown b).bal = s.bal := rfl
@[simp] theorem setLockdown_occ (b : Bool) : (s.setLockdown b).occ = s.occ := rfl
@[simp] theorem setLockdown_pwb (b : Bool) : (s.setLockdown b).pwb = s.pwb := rfl
@[simp] theorem setLockdown_spc (b : Bool) : (s.setLockdown b).spc = s.spc := rfl
@[simp] theorem setLockdown_fdc (b : Bool) : (s.setLockdown b).fdc = s.fdc := rfl
@[simp] theorem setLockdown_sch (b : Bool) : (s.setLockdown b).sch = s.sch := rfl
@[simp] theorem setLockdown_cap (b : Bool) : (s.setLockdown b).cap = s.cap := rfl
@[simp] theorem setLockdown_pending (b : Bool) : (s.setLockdown b).pending = s.pending := rfl

@[simp] theorem tellReader_powered (b : Bool) : (s.tellReader b).powered = s.powered := rfl
@[simp] theorem tellReader_straps (b : Bool) : (s.tellReader b).straps = s.straps := rfl
@[simp] theorem tellReader_startKind (b : Bool) : (s.tellReader b).startKind = s.startKind := rfl
@[simp] theorem tellReader_settings (b : Bool) : (s.tellReader b).settings = s.settings := rfl
@[simp] theorem tellReader_elapsed (b : Bool) : (s.tellReader b).elapsed = s.elapsed := rfl
@[simp] theorem tellReader_moments (b : Bool) : (s.tellReader b).moments = s.moments := rfl
@[simp] theorem tellReader_pnp (b : Bool) : (s.tellReader b).pnp = s.pnp := rfl
@[simp] theorem tellReader_lif (b : Bool) : (s.tellReader b).lif = s.lif := rfl
@[simp] theorem tellReader_bal (b : Bool) : (s.tellReader b).bal = s.bal := rfl
@[simp] theorem tellReader_occ (b : Bool) : (s.tellReader b).occ = s.occ := rfl
@[simp] theorem tellReader_pwb (b : Bool) : (s.tellReader b).pwb = s.pwb := rfl
@[simp] theorem tellReader_spc (b : Bool) : (s.tellReader b).spc = s.spc := rfl
@[simp] theorem tellReader_fdc (b : Bool) : (s.tellReader b).fdc = s.fdc := rfl
@[simp] theorem tellReader_sch (b : Bool) : (s.tellReader b).sch = s.sch := rfl
@[simp] theorem tellReader_cap (b : Bool) : (s.tellReader b).cap = s.cap := rfl
@[simp] theorem tellReader_pending (b : Bool) : (s.tellReader b).pending = s.pending := rfl

@[simp] theorem modEntry_powered (n : Nat) (f : ScheduleEntry → ScheduleEntry) : (s.modEntry n f).powered = s.powered := rfl
@[simp] theorem modEntry_straps (n : Nat) (f : ScheduleEntry → ScheduleEntry) : (s.modEntry n f).straps = s.straps := rfl
@[simp] theorem modEntry_startKind (n : Nat) (f : ScheduleEntry → ScheduleEntry) : (s.modEntry n f).startKind = s.startKind := rfl
@[simp] theorem modEntry_settings (n : Nat) (f : ScheduleEntry → ScheduleEntry) : (s.modEntry n f).settings = s.settings := rfl
@[simp] theorem modEntry_elapsed (n : Nat) (f : ScheduleEntry → ScheduleEntry) : (s.modEntry n f).elapsed = s.elapsed := rfl
@[simp] theorem modEntry_moments (n : Nat) (f : ScheduleEntry → ScheduleEntry) : (s.modEntry n f).moments = s.moments := rfl
@[simp] theorem modEntry_pnp (n : Nat) (f : ScheduleEntry → ScheduleEntry) : (s.modEntry n f).pnp = s.pnp := rfl
@[simp] theorem modEntry_lif (n : Nat) (f : ScheduleEntry → ScheduleEntry) : (s.modEntry n f).lif = s.lif := rfl
@[simp] theorem modEntry_bal (n : Nat) (f : ScheduleEntry → ScheduleEntry) : (s.modEntry n f).bal = s.bal := rfl
@[simp] theorem modEntry_occ (n : Nat) (f : ScheduleEntry → ScheduleEntry) : (s.modEntry n f).occ = s.occ := rfl
@[simp] theorem modEntry_pwb (n : Nat) (f : ScheduleEntry → ScheduleEntry) : (s.modEntry n f).pwb = s.pwb := rfl
@[simp] theorem modEntry_spc (n : Nat) (f : ScheduleEntry → ScheduleEntry) : (s.modEntry n f).spc = s.spc := rfl
@[simp] theorem modEntry_fdc (n : Nat) (f : ScheduleEntry → ScheduleEntry) : (s.modEntry n f).fdc = s.fdc := rfl
@[simp] theorem modEntry_gtc (n : Nat) (f : ScheduleEntry → ScheduleEntry) : (s.modEntry n f).gtc = s.gtc := rfl
@[simp] theorem modEntry_cap (n : Nat) (f : ScheduleEntry → ScheduleEntry) : (s.modEntry n f).cap = s.cap := rfl
@[simp] theorem modEntry_pending (n : Nat) (f : ScheduleEntry → ScheduleEntry) : (s.modEntry n f).pending = s.pending := rfl

@[simp] theorem fire_powered (k : ScheduleKind) : (s.fire k).powered = s.powered := rfl
@[simp] theorem fire_straps (k : ScheduleKind) : (s.fire k).straps = s.straps := rfl
@[simp] theorem fire_startKind (k : ScheduleKind) : (s.fire k).startKind = s.startKind := rfl
@[simp] theorem fire_settings (k : ScheduleKind) : (s.fire k).settings = s.settings := rfl
@[simp] theorem fire_elapsed (k : ScheduleKind) : (s.fire k).elapsed = s.elapsed := rfl
@[simp] theorem fire_moments (k : ScheduleKind) : (s.fire k).moments = s.moments := rfl
@[simp] theorem fire_pnp (k : ScheduleKind) : (s.fire k).pnp = s.pnp := rfl
@[simp] theorem fire_lif (k : ScheduleKind) : (s.fire k).lif = s.lif := rfl
@[simp] theorem fire_bal (k : ScheduleKind) : (s.fire k).bal = s.bal := rfl
@[simp] theorem fire_occ (k : ScheduleKind) : (s.fire k).occ = s.occ := rfl
@[simp] theorem fire_pwb (k : ScheduleKind) : (s.fire k).pwb = s.pwb := rfl
@[simp] theorem fire_spc (k : ScheduleKind) : (s.fire k).spc = s.spc := rfl
@[simp] theorem fire_fdc (k : ScheduleKind) : (s.fire k).fdc = s.fdc := rfl
@[simp] theorem fire_gtc (k : ScheduleKind) : (s.fire k).gtc = s.gtc := rfl
@[simp] theorem fire_cap (k : ScheduleKind) : (s.fire k).cap = s.cap := rfl
@[simp] theorem fire_pending (k : ScheduleKind) : (s.fire k).pending = s.pending := rfl

@[simp] theorem useTariff_powered (n : Nat) : (s.useTariff n).powered = s.powered := rfl
@[simp] theorem useTariff_straps (n : Nat) : (s.useTariff n).straps = s.straps := rfl
@[simp] theorem useTariff_startKind (n : Nat) : (s.useTariff n).startKind = s.startKind := rfl
@[simp] theorem useTariff_settings (n : Nat) : (s.useTariff n).settings = s.settings := rfl
@[simp] theorem useTariff_elapsed (n : Nat) : (s.useTariff n).elapsed = s.elapsed := rfl
@[simp] theorem useTariff_moments (n : Nat) : (s.useTariff n).moments = s.moments := rfl
@[simp] theorem useTariff_pnp (n : Nat) : (s.useTariff n).pnp = s.pnp := rfl
@[simp] theorem useTariff_lif (n : Nat) : (s.useTariff n).lif = s.lif := rfl
@[simp] theorem useTariff_bal (n : Nat) : (s.useTariff n).bal = s.bal := rfl
@[simp] theorem useTariff_occ (n : Nat) : (s.useTariff n).occ = s.occ := rfl
@[simp] theorem useTariff_pwb (n : Nat) : (s.useTariff n).pwb = s.pwb := rfl
@[simp] theorem useTariff_spc (n : Nat) : (s.useTariff n).spc = s.spc := rfl
@[simp] theorem useTariff_fdc (n : Nat) : (s.useTariff n).fdc = s.fdc := rfl
@[simp] theorem useTariff_gtc (n : Nat) : (s.useTariff n).gtc = s.gtc := rfl
@[simp] theorem useTariff_cap (n : Nat) : (s.useTariff n).cap = s.cap := rfl
@[simp] theorem useTariff_pending (n : Nat) : (s.useTariff n).pending = s.pending := rfl

@[simp] theorem setFlag_flags (f : Flag) : (s.setFlag f).pnp = s.pnp.flagged f.bit := rfl
@[simp] theorem flagged_answer (p : Pnp) (m : BitVec 64) : (p.flagged m).answer = p.answer := rfl
@[simp] theorem flagged_answerNo (p : Pnp) (m : BitVec 64) : (p.flagged m).answerNo = p.answerNo := rfl
@[simp] theorem flagged_flags (p : Pnp) (m : BitVec 64) : (p.flagged m).flags = p.flags ||| m := rfl
@[simp] theorem flagged_ready (p : Pnp) (m : BitVec 64) : (p.flagged m).ready = p.ready := rfl
@[simp] theorem flagged_request (p : Pnp) (m : BitVec 64) : (p.flagged m).request = p.request := rfl
@[simp] theorem flagged_transaction (p : Pnp) (m : BitVec 64) :
    (p.flagged m).transaction = p.transaction := rfl
@[simp] theorem writeAnswer_answer (c : Nat) (r : Reply) : (s.writeAnswer c r).pnp.answer =
    { code := c, number := (s.pnp.answerNo + 1) % 256, result := r.result, clamped := r.clamped,
      cause := r.cause, data := r.data } := rfl

/-! ### Updates with cases -/

@[simp] theorem setFlagIf_false (f : Flag) : s.setFlagIf false f = s := rfl
@[simp] theorem setFlagIf_true (f : Flag) : s.setFlagIf true f = s.setFlag f := rfl

@[simp] theorem advance_zero : s.advance 0 = s := rfl

@[simp] theorem advance_elapsed (n : Nat) : (s.advance n).elapsed = s.elapsed + n := by
  unfold State.advance; split <;> simp_all

@[simp] theorem advance_powered (n : Nat) : (s.advance n).powered = s.powered := by
  unfold State.advance; split <;> rfl
@[simp] theorem advance_straps (n : Nat) : (s.advance n).straps = s.straps := by
  unfold State.advance; split <;> rfl
@[simp] theorem advance_startKind (n : Nat) : (s.advance n).startKind = s.startKind := by
  unfold State.advance; split <;> rfl
@[simp] theorem advance_settings (n : Nat) : (s.advance n).settings = s.settings := by
  unfold State.advance; split <;> rfl
@[simp] theorem advance_moments (n : Nat) : (s.advance n).moments = s.moments := by
  unfold State.advance; split <;> rfl
@[simp] theorem advance_pnp (n : Nat) : (s.advance n).pnp = s.pnp := by
  unfold State.advance; split <;> rfl
@[simp] theorem advance_lif (n : Nat) : (s.advance n).lif = s.lif := by
  unfold State.advance; split <;> rfl
@[simp] theorem advance_bal (n : Nat) : (s.advance n).bal = s.bal := by
  unfold State.advance; split <;> rfl
@[simp] theorem advance_occ (n : Nat) : (s.advance n).occ = s.occ := by
  unfold State.advance; split <;> rfl
@[simp] theorem advance_pwb (n : Nat) : (s.advance n).pwb = s.pwb := by
  unfold State.advance; split <;> rfl
@[simp] theorem advance_spc (n : Nat) : (s.advance n).spc = s.spc := by
  unfold State.advance; split <;> rfl
@[simp] theorem advance_fdc (n : Nat) : (s.advance n).fdc = s.fdc := by
  unfold State.advance; split <;> rfl
@[simp] theorem advance_gtc (n : Nat) : (s.advance n).gtc = s.gtc := by
  unfold State.advance; split <;> rfl
@[simp] theorem advance_cap (n : Nat) : (s.advance n).cap = s.cap := by
  unfold State.advance; split <;> rfl
@[simp] theorem advance_pending (n : Nat) : (s.advance n).pending = s.pending := by
  unfold State.advance; split <;> rfl

@[simp] theorem advanceTo_powered (d : Nat) : (s.advanceTo d).powered = s.powered := advance_powered s _
@[simp] theorem advanceTo_straps (d : Nat) : (s.advanceTo d).straps = s.straps := advance_straps s _
@[simp] theorem advanceTo_startKind (d : Nat) : (s.advanceTo d).startKind = s.startKind := advance_startKind s _
@[simp] theorem advanceTo_settings (d : Nat) : (s.advanceTo d).settings = s.settings := advance_settings s _
@[simp] theorem advanceTo_moments (d : Nat) : (s.advanceTo d).moments = s.moments := advance_moments s _
@[simp] theorem advanceTo_pnp (d : Nat) : (s.advanceTo d).pnp = s.pnp := advance_pnp s _
@[simp] theorem advanceTo_lif (d : Nat) : (s.advanceTo d).lif = s.lif := advance_lif s _
@[simp] theorem advanceTo_bal (d : Nat) : (s.advanceTo d).bal = s.bal := advance_bal s _
@[simp] theorem advanceTo_occ (d : Nat) : (s.advanceTo d).occ = s.occ := advance_occ s _
@[simp] theorem advanceTo_pwb (d : Nat) : (s.advanceTo d).pwb = s.pwb := advance_pwb s _
@[simp] theorem advanceTo_spc (d : Nat) : (s.advanceTo d).spc = s.spc := advance_spc s _
@[simp] theorem advanceTo_fdc (d : Nat) : (s.advanceTo d).fdc = s.fdc := advance_fdc s _
@[simp] theorem advanceTo_gtc (d : Nat) : (s.advanceTo d).gtc = s.gtc := advance_gtc s _
@[simp] theorem advanceTo_cap (d : Nat) : (s.advanceTo d).cap = s.cap := advance_cap s _
@[simp] theorem advanceTo_pending (d : Nat) : (s.advanceTo d).pending = s.pending := advance_pending s _

@[simp] theorem giveReport_powered (t : TxFrame) (b : Bool) : (s.giveReport t b).powered = s.powered := by
  unfold State.giveReport; split <;> rfl
@[simp] theorem withdrawFrame_powered (n : Nat) : (s.withdrawFrame n).powered = s.powered := by
  unfold State.withdrawFrame; split <;> rfl
@[simp] theorem giveReport_straps (t : TxFrame) (b : Bool) : (s.giveReport t b).straps = s.straps := by
  unfold State.giveReport; split <;> rfl
@[simp] theorem withdrawFrame_straps (n : Nat) : (s.withdrawFrame n).straps = s.straps := by
  unfold State.withdrawFrame; split <;> rfl
@[simp] theorem giveReport_startKind (t : TxFrame) (b : Bool) : (s.giveReport t b).startKind = s.startKind := by
  unfold State.giveReport; split <;> rfl
@[simp] theorem withdrawFrame_startKind (n : Nat) : (s.withdrawFrame n).startKind = s.startKind := by
  unfold State.withdrawFrame; split <;> rfl
@[simp] theorem giveReport_settings (t : TxFrame) (b : Bool) : (s.giveReport t b).settings = s.settings := by
  unfold State.giveReport; split <;> rfl
@[simp] theorem withdrawFrame_settings (n : Nat) : (s.withdrawFrame n).settings = s.settings := by
  unfold State.withdrawFrame; split <;> rfl
@[simp] theorem giveReport_elapsed (t : TxFrame) (b : Bool) : (s.giveReport t b).elapsed = s.elapsed := by
  unfold State.giveReport; split <;> rfl
@[simp] theorem withdrawFrame_elapsed (n : Nat) : (s.withdrawFrame n).elapsed = s.elapsed := by
  unfold State.withdrawFrame; split <;> rfl
@[simp] theorem giveReport_moments (t : TxFrame) (b : Bool) : (s.giveReport t b).moments = s.moments := by
  unfold State.giveReport; split <;> rfl
@[simp] theorem withdrawFrame_moments (n : Nat) : (s.withdrawFrame n).moments = s.moments := by
  unfold State.withdrawFrame; split <;> rfl
@[simp] theorem giveReport_pnp (t : TxFrame) (b : Bool) : (s.giveReport t b).pnp = s.pnp := by
  unfold State.giveReport; split <;> rfl
@[simp] theorem withdrawFrame_pnp (n : Nat) : (s.withdrawFrame n).pnp = s.pnp := by
  unfold State.withdrawFrame; split <;> rfl
@[simp] theorem giveReport_bal (t : TxFrame) (b : Bool) : (s.giveReport t b).bal = s.bal := by
  unfold State.giveReport; split <;> rfl
@[simp] theorem withdrawFrame_bal (n : Nat) : (s.withdrawFrame n).bal = s.bal := by
  unfold State.withdrawFrame; split <;> rfl
@[simp] theorem giveReport_occ (t : TxFrame) (b : Bool) : (s.giveReport t b).occ = s.occ := by
  unfold State.giveReport; split <;> rfl
@[simp] theorem withdrawFrame_occ (n : Nat) : (s.withdrawFrame n).occ = s.occ := by
  unfold State.withdrawFrame; split <;> rfl
@[simp] theorem giveReport_pwb (t : TxFrame) (b : Bool) : (s.giveReport t b).pwb = s.pwb := by
  unfold State.giveReport; split <;> rfl
@[simp] theorem withdrawFrame_pwb (n : Nat) : (s.withdrawFrame n).pwb = s.pwb := by
  unfold State.withdrawFrame; split <;> rfl
@[simp] theorem giveReport_spc (t : TxFrame) (b : Bool) : (s.giveReport t b).spc = s.spc := by
  unfold State.giveReport; split <;> rfl
@[simp] theorem withdrawFrame_spc (n : Nat) : (s.withdrawFrame n).spc = s.spc := by
  unfold State.withdrawFrame; split <;> rfl
@[simp] theorem giveReport_fdc (t : TxFrame) (b : Bool) : (s.giveReport t b).fdc = s.fdc := by
  unfold State.giveReport; split <;> rfl
@[simp] theorem withdrawFrame_fdc (n : Nat) : (s.withdrawFrame n).fdc = s.fdc := by
  unfold State.withdrawFrame; split <;> rfl
@[simp] theorem giveReport_gtc (t : TxFrame) (b : Bool) : (s.giveReport t b).gtc = s.gtc := by
  unfold State.giveReport; split <;> rfl
@[simp] theorem withdrawFrame_gtc (n : Nat) : (s.withdrawFrame n).gtc = s.gtc := by
  unfold State.withdrawFrame; split <;> rfl
@[simp] theorem giveReport_sch (t : TxFrame) (b : Bool) : (s.giveReport t b).sch = s.sch := by
  unfold State.giveReport; split <;> rfl
@[simp] theorem withdrawFrame_sch (n : Nat) : (s.withdrawFrame n).sch = s.sch := by
  unfold State.withdrawFrame; split <;> rfl
@[simp] theorem giveReport_cap (t : TxFrame) (b : Bool) : (s.giveReport t b).cap = s.cap := by
  unfold State.giveReport; split <;> rfl
@[simp] theorem withdrawFrame_cap (n : Nat) : (s.withdrawFrame n).cap = s.cap := by
  unfold State.withdrawFrame; split <;> rfl
@[simp] theorem giveReport_pending (t : TxFrame) (b : Bool) : (s.giveReport t b).pending = s.pending := by
  unfold State.giveReport; split <;> rfl
@[simp] theorem withdrawFrame_pending (n : Nat) : (s.withdrawFrame n).pending = s.pending := by
  unfold State.withdrawFrame; split <;> rfl
@[simp] theorem modPump_powered (n : Nat) (g : Pump → Pump) : (s.modPump n g).powered = s.powered := by
  unfold State.modPump; split <;> (try split) <;> rfl
@[simp] theorem modPump_straps (n : Nat) (g : Pump → Pump) : (s.modPump n g).straps = s.straps := by
  unfold State.modPump; split <;> (try split) <;> rfl
@[simp] theorem modPump_startKind (n : Nat) (g : Pump → Pump) : (s.modPump n g).startKind = s.startKind := by
  unfold State.modPump; split <;> (try split) <;> rfl
@[simp] theorem modPump_settings (n : Nat) (g : Pump → Pump) : (s.modPump n g).settings = s.settings := by
  unfold State.modPump; split <;> (try split) <;> rfl
@[simp] theorem modPump_elapsed (n : Nat) (g : Pump → Pump) : (s.modPump n g).elapsed = s.elapsed := by
  unfold State.modPump; split <;> (try split) <;> rfl
@[simp] theorem modPump_moments (n : Nat) (g : Pump → Pump) : (s.modPump n g).moments = s.moments := by
  unfold State.modPump; split <;> (try split) <;> rfl
@[simp] theorem modPump_pnp (n : Nat) (g : Pump → Pump) : (s.modPump n g).pnp = s.pnp := by
  unfold State.modPump; split <;> (try split) <;> rfl
@[simp] theorem modPump_lif (n : Nat) (g : Pump → Pump) : (s.modPump n g).lif = s.lif := by
  unfold State.modPump; split <;> (try split) <;> rfl
@[simp] theorem modPump_bal (n : Nat) (g : Pump → Pump) : (s.modPump n g).bal = s.bal := by
  unfold State.modPump; split <;> (try split) <;> rfl
@[simp] theorem modPump_occ (n : Nat) (g : Pump → Pump) : (s.modPump n g).occ = s.occ := by
  unfold State.modPump; split <;> (try split) <;> rfl
@[simp] theorem modPump_pwb (n : Nat) (g : Pump → Pump) : (s.modPump n g).pwb = s.pwb := by
  unfold State.modPump; split <;> (try split) <;> rfl
@[simp] theorem modPump_spc (n : Nat) (g : Pump → Pump) : (s.modPump n g).spc = s.spc := by
  unfold State.modPump; split <;> (try split) <;> rfl
@[simp] theorem modPump_gtc (n : Nat) (g : Pump → Pump) : (s.modPump n g).gtc = s.gtc := by
  unfold State.modPump; split <;> (try split) <;> rfl
@[simp] theorem modPump_sch (n : Nat) (g : Pump → Pump) : (s.modPump n g).sch = s.sch := by
  unfold State.modPump; split <;> (try split) <;> rfl
@[simp] theorem modPump_cap (n : Nat) (g : Pump → Pump) : (s.modPump n g).cap = s.cap := by
  unfold State.modPump; split <;> (try split) <;> rfl
@[simp] theorem modPump_pending (n : Nat) (g : Pump → Pump) : (s.modPump n g).pending = s.pending := by
  unfold State.modPump; split <;> (try split) <;> rfl
@[simp] theorem setFlagIf_powered (b : Bool) (g : Flag) : (s.setFlagIf b g).powered = s.powered := by
  cases b <;> rfl
@[simp] theorem setFlagIf_straps (b : Bool) (g : Flag) : (s.setFlagIf b g).straps = s.straps := by
  cases b <;> rfl
@[simp] theorem setFlagIf_startKind (b : Bool) (g : Flag) : (s.setFlagIf b g).startKind = s.startKind := by
  cases b <;> rfl
@[simp] theorem setFlagIf_settings (b : Bool) (g : Flag) : (s.setFlagIf b g).settings = s.settings := by
  cases b <;> rfl
@[simp] theorem setFlagIf_elapsed (b : Bool) (g : Flag) : (s.setFlagIf b g).elapsed = s.elapsed := by
  cases b <;> rfl
@[simp] theorem setFlagIf_moments (b : Bool) (g : Flag) : (s.setFlagIf b g).moments = s.moments := by
  cases b <;> rfl
@[simp] theorem setFlagIf_lif (b : Bool) (g : Flag) : (s.setFlagIf b g).lif = s.lif := by
  cases b <;> rfl
@[simp] theorem setFlagIf_bal (b : Bool) (g : Flag) : (s.setFlagIf b g).bal = s.bal := by
  cases b <;> rfl
@[simp] theorem setFlagIf_occ (b : Bool) (g : Flag) : (s.setFlagIf b g).occ = s.occ := by
  cases b <;> rfl
@[simp] theorem setFlagIf_pwb (b : Bool) (g : Flag) : (s.setFlagIf b g).pwb = s.pwb := by
  cases b <;> rfl
@[simp] theorem setFlagIf_spc (b : Bool) (g : Flag) : (s.setFlagIf b g).spc = s.spc := by
  cases b <;> rfl
@[simp] theorem setFlagIf_fdc (b : Bool) (g : Flag) : (s.setFlagIf b g).fdc = s.fdc := by
  cases b <;> rfl
@[simp] theorem setFlagIf_gtc (b : Bool) (g : Flag) : (s.setFlagIf b g).gtc = s.gtc := by
  cases b <;> rfl
@[simp] theorem setFlagIf_sch (b : Bool) (g : Flag) : (s.setFlagIf b g).sch = s.sch := by
  cases b <;> rfl
@[simp] theorem setFlagIf_cap (b : Bool) (g : Flag) : (s.setFlagIf b g).cap = s.cap := by
  cases b <;> rfl
@[simp] theorem setFlagIf_pending (b : Bool) (g : Flag) : (s.setFlagIf b g).pending = s.pending := by
  cases b <;> rfl

@[simp] theorem byteAt_notReady (i : Nat) : ShiftOut.notReady.byteAt i = 0xFF#8 := rfl
@[simp] theorem byteAt_filler (l : List Byte) (i : Nat) (h : l.length ≤ i) :
    (ShiftOut.answer l).byteAt i = 0xFF#8 := by
  simp [ShiftOut.byteAt, h]

@[simp] theorem advanceTo_elapsed (d : Nat) : (s.advanceTo d).elapsed = max s.elapsed d := by
  simp [State.advanceTo]; omega

/-- Time never runs back: elapsed time after running on to a moment is the later of the two (log 2). -/
theorem advanceTo_reached {d : Nat} (h : d ≤ s.elapsed) : s.advanceTo d = s := by
  simp [State.advanceTo, Nat.sub_eq_zero_of_le h]

end Fields

/-- LIF acknowledges with power, in JOINING and ON LINE alone (R175, R179). -/
theorem State.acknowledges_iff (s : State) : s.acknowledges = true ↔
    s.powered = true ∧ (s.lif.state = .joining ∨ s.lif.state = .onLine) := by
  simp [State.acknowledges, State.onSegment]

end Sys2Proof.Machine
end

