-- ==== Sys2Proof/Tests/Slice0.lean ====
section
/-! SUPPORT. Tests: an ill-formed term for each check of `WellFormed`, the worked figures of spec/ on
single commands, and for each obligation with hypotheses a state and operands that meet them. -/

namespace Sys2Proof.Tests

set_option Elab.async false

open Sys2Proof.Machine

/-! ### Fixtures -/

/-- The state after a command. -/
def after (c : Instr) (s : State) : State :=
  match exec c s with
  | .next t => t
  | .fault _ => s
  | .refused _ => s

/-- The data of the answer a command leaves. -/
def answer (c : Instr) (s : State) : Result × Option Cause × List Datum :=
  ((after c s).pnp.answer.result, (after c s).pnp.answer.cause, (after c s).pnp.answer.data)

def pt (n rating : Nat) (three : Bool) (o : OutletState) (charging : Option Nat) : Point :=
  { number := n, maxRating := rating, three := three, tapFitted := true, outlet := o, tapOpen := false,
    charging := charging, arrivals := [], finalMark := none, retained := [], tripAck := false, energyBase := none,
    waterBase := none, lastAccept := none, lastTime := none, interval := 0, tapMark := false,
    leakMark := false, raisePending := none, raiseLast := .none }

def berth (n l w d : Nat) (p : Option Nat) : Berth :=
  { number := n, length := l, width := w, depth := d, point := p, visitor := true, member := true,
    reserved := false, mark := none }

def pumpCfg : PumpConfig :=
  { grade := .diesel, pulses := 400, price := 189, load := 16, authTimeout := 120, suspendLimit := 300 }

/-- Station 3 ON LINE with a fuel dock, three berths, two points and one pump, at day 19,850 17:30. -/
def live : State := { State.reset with
  straps := { station := 3, slowLine := false, dock := true }
  settings := { Settings.start with baseShare := 160 }
  lif := { Lif.start with state := .onLine }
  bal := { Bal.start with
    berths := [berth 7 130 45 25 (some 3), berth 12 140 50 20 (some 7), berth 20 60 45 20 none] }
  spc := { Spc.start 0 with
    points := [pt 3 1 false .off none, pt 7 2 false .off none]
    tariff1 := ⟨45, 200⟩
    tariff2 := ⟨30, 100⟩
    energiseDue := false }
  fdc := { Fdc.cold StartInputs.atReset with
    pump1 := { Pump.start false with config := some pumpCfg }
    saleNo := 210 }
  sch := Sch.start 1715103000 0 0 }

/-- The same station before its JOIN. -/
def unset : State := { live with lif := Lif.start }

def stay (n b : Nat) (st : OccState) : Occupancy :=
  { number := n, berth := b, length := 110, beam := 35, draft := 15, cls := .visitor, arrival := 19850,
    nights := 2, state := st, origin := none, closureDue := none, credential := none,
    account := ⟨3500, 20000, 1000, .open_, none, false⟩, holds := [], receipts := [],
    profile := some ⟨1, false, true⟩, graceEnd := none, awaiting := false }

def closure (n : Nat) : Closure :=
  { occupancy := n, berth := 7, cls := .visitor, arrival := 19840, nights := 2, reason := .departed,
    closedAt := ⟨1715000000, 0⟩, balance := 0, late := false, energy := 0, water := 0 }

def hold (id station : Nat) (pump : Option Nat) : Hold :=
  { id := id, station := station, pump := pump, ask := pump.map fun _ => 4, amount := 15000,
    placed := ⟨1715103000, 0⟩, expiry := ⟨1715104800, 0⟩ }

def cred (card : Nat) (pin : Option (List Nat)) (count : Nat) : Credential :=
  { card := card, pin := pin, count := count, locked := false, waiver := none }

/-- The live station with some records. -/
def stays (l : List Occupancy) : State := { live with occ := { Occ.cold with records := l } }

/-- With one frame in the receive queue. -/
def heard (f : Frame) (s : State) : State := { s with lif := { s.lif with rx := [f] } }

/-- With one report outstanding. -/
def reported (f : Frame) (sent : Bool) (s : State) : State :=
  { s with lif := { s.lif with reports := [⟨0, f, sent⟩], serial := 1 } }

/-- With some rounds. -/
def rounds (l : List Round) : State := { live with bal := { live.bal with rounds := l } }

/-- With PWB as given. -/
def budget (l : List Loan) (d : List Demand) (e : List OutletLoad) : State :=
  { live with pwb := { Pwb.start with loans := l, demands := d, energised := e } }

def sale (st : SaleState) (load : LoadState) (card : Option Nat) (timer : Option Nat) : Sale :=
  { state := st, number := 211, card := card, preset := 15000, hold := none, load := load, pulses := 0,
    volume := 0, cutoff := 7936, barred := false, timer := timer, settle := none }

def record (n : Nat) (closed : Bool) (card : Option Nat) (charged : Option Nat)
    (start : Option Time) : JournalRecord :=
  { number := n, closed := closed, pump := 1, grade := .diesel, preset := 15000, card := card,
    hold := none, startTime := start, endTime := none, volume := 7940, price := 189, charged := charged,
    settle := none, flags := SaleFlags.clear }

/-- With a sale at pump 1 and its journal record. -/
def selling (x : Sale) : State := { live with fdc := { live.fdc with
  pump1 := { live.fdc.pump1 with sale := some x }
  journal := [record 211 false x.card none none]
  saleNo := 211 } }

/-- The packed request of 1.4's worked case: 124 by 41 by 18 dm, two nights, HL 6, 16 A, VISITOR. -/
def asked : BerthRequest := ⟨124, 41, 18, 0, 2, 6, true, 1, false, 1, 4⟩

def tagA : Tag := ⟨2, 17⟩

def round (st : RoundState) (best : Option BidKey) : Round :=
  { tag := tagA, request := asked, arrivalDay := 19850, candidate := some 7, ownKey := some ⟨32, 3⟩,
    best := best, delayEnd := some 1600, windowEnd := 60000, watchEnd := none, state := st,
    bidFrame := some 0, occupancy := none }

def card1 : Nat := 0x123456789A

def goodCheck : Nat := 0x92

/-! ### WellFormed refuses -/

def ok (c : Instr) : Bool := wf c

theorem test_wf_numbers_fit :
    ok (.readRound 255) = true ∧ ok (.readRound 256) = false ∧ ok (.tariffSelect 256) = false ∧
    ok (.gateMode 256) = false ∧ ok (.readPoint 256) = false ∧ ok (.outletReset 256) = false ∧
    ok (.cancel 256) = false ∧ ok (.arrive 256) = false ∧ ok (.depart 256) = false ∧
    ok (.readOccupancy 256) = false ∧ ok (.clearPin 256) = false ∧ ok (.unlock 256) = false ∧
    ok (.bar 256) = false ∧ ok (.unbar 256) = false ∧ ok (.pumpSuspend 256) = false ∧
    ok (.pumpResume 256) = false ∧ ok (.pumpStop 256) = false ∧ ok (.readPump 256) = false ∧
    ok (.setClock 4294967296 0) = false ∧ ok (.setClock 0 65536) = false ∧
    ok (.readBerth 7 256) = false ∧ ok (.topUp 11 4294967296) = false ∧
    ok (.setLimit 11 0 0 2147483648) = false ∧ ok (.bindCard 11 (2 ^ 40)) = false ∧
    ok (.profileCheck 6 3 15 256) = false ∧ ok (.profileSet 6 256 15 15) = false ∧
    ok (.pumpAuthorise 1 100 256 0) = false ∧ ok (.readCapture 1 256) = false ∧
    ok (.flagsSetup 0 256 Levels.zero 1) = false ∧
    ok (.flagsSetup 0 0 { Levels.zero with line := 256 } 1) = false ∧
    ok (.cardRead (2 ^ 40) 0) = false ∧ ok (.key 256) = false := by decide

theorem test_wf_sections :
    ok (.configureStation ⟨256, 50, 4, 5, 10000, 1000, 30, 24, 2, 0, 8, 2, 30, 600, 0⟩) = false ∧
    ok (.configureBerth ⟨7, 65536, 45, 25, 3, 3, 0⟩) = false ∧
    ok (.configurePoint ⟨256, 1, 0, 0⟩) = false ∧ ok (.configureTariff 1 65536 0) = false ∧
    ok (.configurePump ⟨1, 1, 400, 189, 256, 120, 300⟩) = false ∧
    ok (.configureGate ⟨5, 65536, 4, 0⟩) = false ∧
    ok (.configureStaff 1 1 ⟨4, [1, 2, 3, 4, 0]⟩) = false ∧
    ok (.setPin 1 ⟨4, [1, 2, 3, 16, 0, 0]⟩) = false ∧
    ok (.changePin 1 ⟨4, [1, 2, 3, 4, 0, 0]⟩ ⟨256, [1, 2, 3, 4, 0, 0]⟩) = false ∧
    ok (.configureSchedule ⟨1, 1, 4294967296, 0, 0⟩) = false ∧
    ok (.book ⟨7, 0, 65536, 110, 35, 15, 1, 1, 1, 0⟩) = false ∧
    ok (.requestBerth { asked with draft := 64 }) = false := by decide

theorem test_wf_events :
    ok (.restart ⟨32, false, false, false, false, false, false⟩) = false ∧
    ok (.powerUp ⟨32, false, false, false, false, false, false⟩ true true) = false ∧
    ok (.bidDelayEnd ⟨32, 0⟩) = false ∧ ok (.windowEnd ⟨2, 256⟩) = false ∧
    ok (.watchEnd ⟨32, 0⟩) = false ∧ ok (.holdExpiry 65 1) = false ∧
    ok (.pledgeDeadline 32) = false ∧ ok (.recallDeadline 32) = false ∧
    ok (.faultGraceEnd 17) = false ∧ ok (.alongsideNotice 0) = false ∧
    ok (.departingNotice 65) = false ∧ ok (.barredNotice 0) = false ∧ ok (.unbarredNotice 65) = false ∧
    ok (.pumpPulse 3) = false ∧ ok (.nozzleLift 0) = false ∧ ok (.nozzleHang 3) = false ∧
    ok (.authorisationTimeout 0) = false ∧ ok (.suspendLimitEnd 3) = false ∧ ok (.runOnEnd 0) = false ∧
    ok (.holdAskWaitEnd 3) = false ∧ ok (.settleWaitEnd 0) = false ∧ ok (.scheduleDue 13) = false ∧
    ok (.frameHeard ⟨true, false, 0, List.replicate 9 0⟩) = false ∧
    ok (.readerFrameTimeout [0xC2#8, 1#8]) = false ∧ ok (.readerFrameTimeout [0xC2#8]) = true ∧
    ok (.malformedRequest 6 0 0 0) = false := by decide

/-! ### The worked figures of spec/ -/

/-- 09: NULL after a start shows code 0, number 0, DONE, COLD, and again. -/
theorem test_null_after_start :
    (after .null (after (.selectAssert true) State.reset)).pnp.answer = Answer.start .cold := by decide

/-- 01, 11: station 3's score for the worked request is 32 and its BID's identifier 0x0D080423. -/
theorem test_contest :
    (live.candidate asked 19850) = some (32, 7) ∧ (bidFrame 3 32 tagA).ident = 0x0D080423#29 ∧
    (bidFrame 4 0 tagA).ident = 0x0D000424#29 := by decide

/-- 01: the first REQUEST BERTH at a counter of 16 takes tag (3, 17); the packing is undone. -/
theorem test_request_berth :
    answer (.requestBerth asked) { live with bal := { live.bal with seq := 16 } } =
      (.accepted, none, [⟨1, 3⟩, ⟨1, 17⟩]) ∧
    unpackRequest ((berthRequestFrame 3 17 asked).num 0 7) = asked := by decide

/-- 01: READ BERTH of the marked berth shows (2, 17). -/
theorem test_read_berth :
    ((answer (.readBerth 7 0) { live with bal := { live.bal with
      berths := [{ berth 7 130 45 25 (some 3) with mark := some tagA }] } }).2.2.drop 9).take 4 =
      [⟨1, 1⟩, ⟨1, 2⟩, ⟨1, 17⟩, ⟨1, 1⟩] := by decide

/-- 02: BOOK of 14 nights from offset 2 on day 19,850 runs from 19,852 to 19,866. -/
theorem test_book :
    ((after (.book ⟨20, 2, 14, 112, 37, 16, 3, 1, 1, 0⟩) live).occ.records.map
      fun r => (r.arrival, r.arrival + r.nights, r.cls)) = [(19852, 19866, .seasonal)] := by decide

/-- 02: TOP UP of 25,000 on a BARRED balance of −20,014 gives 4,986, OPEN. -/
theorem test_top_up :
    ((after (.topUp 11 25000) (stays [{ stay 11 7 .alongside with
      account := ⟨-20014, 20000, 1000, .barred, none, true⟩ }])).occ.records.map
      fun r => (r.account.balance, r.account.state)) = [(4986, .open_)] := by decide

/-- 02: a hold of 15,000 is placed under id 42; with it a second ask of 10,000 is refused FUNDS. -/
theorem test_hold_ask :
    ((after (.holdAskFrame .line) (heard (holdAskFrame 9 1 4 card1 15000) { stays [{ stay 11 7 .alongside with
      credential := some (cred card1 none 0) }] with occ := { Occ.cold with
        holdId := 41, records := [{ stay 11 7 .alongside with
          credential := some (cred card1 none 0) }] } })).lif.tx.map TxFrame.frame) =
      [holdOkFrame 3 9 1 4 42 11] ∧
    ((after (.holdAskFrame .line) (heard (holdAskFrame 9 2 5 card1 10000) (stays [{ stay 11 7 .alongside with
      credential := some (cred card1 none 0)
      holds := [hold 42 9 (some 1)] }]))).lif.tx.map TxFrame.frame) =
      [holdRefusedFrame 3 9 2 5 .funds] := by decide

/-- 02: a settlement of 14,812 from 3,463 leaves −11,349, LOW; one of 8,640 late leaves −19,989. -/
theorem test_settle :
    ((after (.settleFrame .line) (heard (settleFrame 9 3 42 14812 11 211) (stays [{ stay 11 7 .alongside with
      account := ⟨3463, 20000, 1000, .open_, none, false⟩
      holds := [hold 42 9 (some 1)] }]))).occ.records.map
        fun r => (r.account.balance, r.account.state, r.holds)) = [(-11349, .low, [])] ∧
    ((after (.settleFrame .line) (heard (settleFrame 9 3 43 8640 11 212) (stays [{ stay 11 7 .alongside with
      account := ⟨-11349, 20000, 1000, .low, none, false⟩ }]))).occ.records.map
        fun r => (r.account.balance, r.account.state, r.account.late)) = [(-19989, .low, true)] := by
  decide

/-- 02: with eight closures the first COLLECT appends occupancy 2 and leaves occupancy 5 waiting. -/
theorem test_closures :
    let t := after .closureCollect { stays [stay 2 4 .departing, stay 5 7 .departing] with
      occ := { Occ.cold with
        records := [stay 2 4 .departing, stay 5 7 .departing]
        closures := (List.range 8).map fun n => closure (n + 10) } }
    t.occ.closures.map Closure.occupancy = [11, 12, 13, 14, 15, 16, 17, 2] ∧
    t.occ.records.map Occupancy.number = [5] := by decide

/-- 03: C 168, G 140: a front of 32 A does not fit in 28 A and the 10 A behind it stays. -/
theorem test_restore :
    let s : State := { budget [] [] [⟨9, 140, 1⟩] with settings := { live.settings with baseShare := 168 } }
    let s : State := { s with pwb := { s.pwb with shed := [⟨3, 32, 2⟩, ⟨7, 10, 3⟩] } }
    s.restorePass = s := by decide

/-- 03: a shortfall of 12 A asks for 12 A. -/
theorem test_ask :
    ((budget [] [⟨1, .energise, 3, 32, false, []⟩] [⟨9, 140, 1⟩]).settle.lif.tx.map TxFrame.frame) =
      [loanAskFrame 3 1 12] := by decide

/-- 03: stations 2 and 7 offer 8 A and 12 A; after the offer C is 112 and 88. -/
theorem test_offers :
    let lender (base load : Nat) : State := { budget [] [] [⟨9, load, 1⟩] with
      settings := { live.settings with baseShare := base } }
    let two := after (.loanAskFrame .line) (heard (loanAskFrame 5 1 12) (lender 120 104))
    let seven := after (.loanAskFrame .line) (heard (loanAskFrame 5 1 12) (lender 100 70))
    two.pwb.loans.map Loan.amount = [8] ∧ two.ceiling = 112 ∧
    seven.pwb.loans.map Loan.amount = [12] ∧ seven.ceiling = 88 := by decide

/-- 03: the close takes 8 A from the first offer and 4 A from the second. -/
theorem test_take :
    takenOffers 12 [⟨2, 8, 5⟩, ⟨7, 12, 9⟩] = [(⟨2, 8, 5⟩, 8), (⟨7, 12, 9⟩, 4)] := by decide

/-- 04: 16 A for 2000 ms limits a delta to 15 Wh, 189 A to 63 Wh. -/
theorem test_limits : energyLimit 16 2000 = 15 ∧ energyLimit 189 2000 = 63 := by decide

/-- 04: the first two rows of the charging table: residue 810 and nothing debited, then 755 and 1 cent. -/
theorem test_charging :
    let p : Point := { pt 3 3 true .on (some 14) with
      energyBase := some 4294967290, lastAccept := some 0, interval := 189 }
    let s : State := { stays [stay 14 7 .alongside] with
      elapsed := 2000000
      spc := { live.spc with points := [p], links := [⟨14, 3, 0, 0, 0, 0⟩] } }
    let t := s.meterEnergy 3 12
    let u := State.meterEnergy 3 33 { t with spc := { t.spc with points := [{ p with energyBase := some 12 }] } }
    t.spc.links = [⟨14, 3, 18, 0, 810, 0⟩] ∧ t.occ.records.map (fun r => r.account.balance) = [3500] ∧
    u.spc.links = [⟨14, 3, 39, 0, 755, 0⟩] ∧ u.occ.records.map (fun r => r.account.balance) = [3499] := by
  decide

/-- 04: PROFILE CHECK of rating 3 at a single-phase point of maximum code 2. -/
theorem test_profile_check :
    let t := answer (.profileCheck 6 3 15 15) (stays [stay 6 12 .alongside])
    t.1 = .done ∧ t.2.2.take 5 = [⟨1, 3⟩, ⟨1, 0⟩, ⟨1, 1⟩, ⟨1, 2⟩, ⟨1, 15⟩] ∧
    t.2.2.reverse.take 2 = [⟨1, 1⟩, ⟨1, 0⟩] := by decide

/-- 05: sale number 211 for a counter at 210, and a HOLD ASK of 15,000. -/
theorem test_authorise :
    answer (.pumpAuthorise 1 15000 1 card1) live = (.accepted, none, [⟨2, 211⟩]) ∧
    (after (.pumpAuthorise 1 15000 1 card1) live).lif.tx.map TxFrame.frame =
      [holdAskFrame 3 1 1 card1 15000] := by decide

/-- 05: the lift computes a cut-off of 7936 cl and opens both valves. -/
theorem test_lift :
    let t := after (.nozzleLift 1) (selling { sale .authorised .held none (some 120000000) with cutoff := 0 })
    (t.sale? 1).map Sale.cutoff = some 7936 ∧ t.fdc.pump1.main = true ∧ t.fdc.pump1.slow = true := by decide

/-- 05: pulse 31,544 closes the main valve, pulse 31,744 ends the delivery. -/
theorem test_pulses :
    let at_ (n : Nat) : State := after (.pumpPulse 1) (selling { sale .delivering .held none none with
      pulses := n })
    ((at_ 31543).sale? 1).map (fun x => (x.volume, x.barred, x.state)) = some (7886, true, .delivering) ∧
    ((at_ 31743).sale? 1).map (fun x => (x.volume, x.state)) = some (7936, .finishing) := by decide

/-- 05: 7940 cl at 189 come to 15,007, charged as 15,000 with OVERRUN CLAMPED. -/
theorem test_pricing :
    (after (.runOnEnd 1) (selling { sale .finishing .held none (some 2000000) with volume := 7940 })
      ).fdc.journal.map (fun r => (r.volume, r.charged, r.flags.overrunClamped, r.closed)) =
      [(7940, some 15000, true, true)] := by decide

/-- 06: a second GATE OPEN 3 s later moves the release end on by 3 s. -/
theorem test_gate_open :
    (after .gateOpen ((after .gateOpen live).advance 3000000)).gtc.release = some 8000000 := by decide

/-- 06: a good read of a card bound to a BOOKED record arriving today, no PIN, in DAY, is granted. -/
theorem test_card_read :
    let t := after (.cardRead card1 goodCheck) { stays [{ stay 18 7 .booked with
      credential := some (cred card1 none 0) }] with gtc := { live.gtc with arriveOnEntry := true } }
    t.gtc.release = some 5000000 ∧ t.occ.records.map Occupancy.state = [.alongside] ∧
    t.occ.notices.map (fun x => (x.kind, x.occ)) = [(.alongside, 18)] := by decide

/-- 06: LOCKDOWN over the night mark, and NIGHT again when it ends. -/
theorem test_lockdown :
    let night := after .nightOn live
    let lock := after .lockdownOn night
    lock.gtc.mode = .lockdown ∧ (after .lockdownOff lock).gtc.mode = .night := by decide

/-- 07: 1,715,103,000 s is day 19,850 at 63,000 s. -/
theorem test_set_clock :
    let t := after (.setClock 1715103000 0) State.reset
    t.today = 19850 ∧ t.timeOfDay = 63000 ∧ t.pnp.answer.result = .done := by decide

/-- 07: a step over three dues fires once, the next due day 19,853 21:00. -/
theorem test_step :
    let e : ScheduleEntry := ⟨1, .nightOn, 1710795600, 86400, false, .armed, some 1715115600⟩
    let t := after (.setClock 1715292600 0) { live with sch := { live.sch with
      sec := 1715103060, places := [e] } }
    t.sch.firings = [.nightOn] ∧ t.sch.places.map ScheduleEntry.due = [some 1715374800] := by decide

/-- 07: a SINGLE edge seen twice reads its first time, the mark and 1 missed, and is then re-armed. -/
theorem test_capture :
    let s : State := { live with cap := { live.cap with
      doorOpen := ⟨true, some ⟨1715120000, 120⟩, true, 1⟩ } }
    answer (.readCapture 1 1) s = (.done, none,
      [⟨1, 2⟩, ⟨1, 1⟩, ⟨4, 1715120000⟩, ⟨2, 120⟩, ⟨1, 1⟩, ⟨1, 1⟩]) ∧
    (after (.readCapture 1 1) s).cap.doorOpen = ⟨true, some ⟨1715120000, 120⟩, false, 0⟩ := by decide

/-- 09: thresholds over groups: AUTH DONE drives the line and ROUND DONE does not. -/
theorem test_attention :
    let t := after (.flagsSetup ((Flag.roundDone.bit) ||| Flag.authDone.bit ||| Flag.gateForced.bit) 0
      ⟨1, 15, 15, 2, 3, 15, 15⟩ 2) live
    (t.setFlag .roundDone).pnp.attention = false ∧ (t.setFlag .authDone).pnp.attention = true := by decide

/-- 10: W 40 ms with q 100 µs is raised to 79 ms, CLAMPED. -/
theorem test_window :
    let t := after (.configureStation ⟨40, 100, 4, 5, 10000, 1000, 30, 24, 2, 0, 8, 2, 30, 600, 0⟩) unset
    t.settings.window = 79 ∧ t.pnp.answer.clamped = true := by decide

/-- 10: berth 17 names point 33, clamped to 32, with no such point: CONFIG, NO POINT, 17. -/
theorem test_join_no_point :
    answer .join (after (.configureBerth ⟨17, 130, 45, 25, 33, 3, 0⟩) unset) =
      (.refused, some .config, [⟨1, 3⟩, ⟨1, 17⟩]) := by decide

/-- 08: at a full queue a lower frame displaces the highest, reported FAILED with TX DROPPED. -/
theorem test_displace :
    let full : State := { live with lif := { live.lif with
      tx := (List.range 12).map (fun n => ⟨n, assignFrame 3 ⟨6, 77 + n⟩ 1 7 1⟩), serial := 12 } }
    let t := full.queueFrame (loanDeclineFrame 3 2 5)
    t.lif.tx.map TxFrame.serial = [12, 0, 1, 2, 3, 4, 5, 6, 7, 8, 9, 10] ∧
    t.lif.reports.map (fun r => (r.serial, r.sent)) = [(11, false)] ∧ t.hasFlag .txDropped = true := by
  decide

/-- The straps and lines of station 3 with a dock. -/
def lines : StartInputs := ⟨3, false, true, false, false, false, false⟩

/-- The command that the bytes of a transaction spell. -/
def spelled (l : List Nat) : Option Instr := decodeRequest lines (l.map (BitVec.ofNat 8))

/-- 11: request frames written out by the table of request layouts. -/
theorem test_request_frames :
    spelled [2, 0] = some .join ∧ spelled [0, 0, 9] = some .null ∧ spelled [3, 0] = some (.restart lines) ∧
    spelled [4, 6, 0x66, 0x3A, 0xB4, 0x38, 0x03, 0xE7] = some (.setClock 0x663AB438 999) ∧
    spelled [8, 8, 0x80, 0, 0, 0, 0, 0, 0, 1] = some (.flagsClear 0x8000000000000001#64) ∧
    spelled [19, 13, 7, 1, 0x6D, 0, 14, 0, 112, 37, 16, 3, 1, 2, 0] =
      some (.book ⟨7, 365, 14, 112, 37, 16, 3, 1, 2, 0⟩) ∧
    spelled [28, 9, 11, 4, 0x12, 0x34, 0, 6, 0x98, 0x76, 0x54] =
      some (.changePin 11 ⟨4, [1, 2, 3, 4, 0, 0]⟩ ⟨6, [9, 8, 7, 6, 5, 4]⟩) ∧
    spelled [32, 10, 11, 2, 0, 0, 0x4E, 0x20, 0xFF, 0xFF, 0xFC, 0x18] = some (.setLimit 11 2 20000 (-1000)) ∧
    spelled [48, 11, 1, 0, 0, 0x3A, 0x98, 1, 0x12, 0x34, 0x56, 0x78, 0x9A] =
      some (.pumpAuthorise 1 15000 1 card1) ∧
    spelled [1, 9, 2, 7, 0, 130, 45, 25, 3, 3, 0] = some (.configureBerth ⟨7, 130, 45, 25, 3, 3, 0⟩) := by
  decide

/-- 11, 01: the seven bytes of REQUEST BERTH are the packed request of the BERTH REQUEST frame. -/
theorem test_request_berth_frame :
    decodeRequest lines ([16#8, 7#8] ++ beBytes 7 (packRequest asked)) = some (.requestBerth asked) := by decide

/-- 09: a wrong length, a short frame and an unknown code are malformed. -/
theorem test_malformed_frames :
    spelled [31, 4, 11, 0, 0, 0] = some (.malformedRequest 31 4 4 0) ∧
    spelled [31, 5, 11, 0, 0, 0] = some (.malformedRequest 31 5 4 0) ∧
    spelled [1, 9, 3, 0, 0, 0, 0, 0, 0, 0, 0] = some (.malformedRequest 1 9 9 3) ∧
    spelled [10, 0] = some (.malformedRequest 10 0 0 0) ∧ spelled [2] = some (.malformedRequest 2 255 0 0) ∧
    spelled [] = none := by decide

/-- 09, 11: after the start answer's seven bytes the filler 0xFF is shifted out, and the marker is 0xFF. -/
theorem test_shifted_bytes :
    ((List.range 9).map (ShiftOut.byteAt (.answer (Answer.start .warm).bytes))) =
      [0#8, 0#8, 1#8, 0#8, 0#8, 1#8, 2#8, 0xFF#8, 0xFF#8] ∧
    ShiftOut.notReady.byteAt 0 = 0xFF#8 := by decide

/-! ### Witnesses: states and operands that meet the hypotheses of each statement -/

theorem witness_StepRunsFrontCommand :
    ({ live with pending := [.join, .null] } : State).pending = Instr.join :: [.null] := by decide

theorem witness_TimeRunsOnTogether :
    live.pending = [] ∧ (Sch.start 4294967295 999 999).micros < 4294967296 * 1000000 ∧
    (State.advance 1 { live with sch := Sch.start 4294967295 999 999 }).sch.sec = 0 := by decide

theorem witness_PowerUpColdStart :
    (true && false) = false ∧ (false && true) = false ∧ (false && false) = false := by decide

theorem witness_WarmStartRetains :
    let s : State := { live with fdc := { live.fdc with journal :=
      [record 207 true none (some 400) none, record 208 false (some 5) none (some ⟨1715102000, 0⟩),
       record 209 false (some 5) (some 15000) (some ⟨1715102000, 0⟩), record 210 false none none none] } }
    s.powered = true ∧ s.pnp.discards = false ∧
    s.fdc.journal.map (fun r => (r.closed, r.card.isSome, r.charged.isSome, r.startTime.isSome)) =
      [(true, false, true, false), (false, true, false, true), (false, true, true, true),
       (false, false, false, false)] := by decide

theorem witness_NothingHappensWithoutPower :
    ({ live with powered := false } : State).powered = false ∧
    (∀ inp held agrees, Instr.join ≠ .powerUp inp held agrees) ∧ Instr.join ≠ .clockWrap :=
  ⟨by decide, (by intro _ _ _ h; cases h), by decide⟩

theorem witness_TransactionChoosesAtItsAssertion :
    let busy : State := { live with pnp := { live.pnp with request := some 6 } }
    let off : State := { live with pnp := { live.pnp with transaction := some .notReady } }
    (live.powered = true ∧ live.pnp.ready = true ∧ live.pnp.request = none) ∧
    ({ live.pnp with ready := false } : Pnp).ready = false ∧ busy.pnp.request.isSome = true ∧
    (off.powered = true ∧ off.pnp.discards = true ∧ (requestCode .join).isSome = true) := by decide

theorem witness_EveryTakenRequestIsAnsweredOnce :
    requestCode .readStation = some 6 ∧ live.powered = true ∧ live.pnp.discards = false ∧
    (unset.lif.state = .unconfigured ∧ takenUnconfigured 22 = false ∧ requestCode (.depart 6) = some 22) ∧
    (∀ d ∈ [true, false], (after (.selectAssert d) (after (.depart 6) unset)).pnp.transaction =
      some (.answer (after (.depart 6) unset).pnp.answer.bytes)) := by decide

theorem witness_FramesRefusedBeforeTheirBlocks :
    requestCode (.requestBerth asked) = some 16 ∧ unset.powered = true ∧ unset.pnp.discards = false ∧
    unset.lif.state = .unconfigured ∧ 16 ∉ [0, 1, 2, 3, 4, 6, 40, 58, 7, 8, 9] ∧
    codeKnown 31 = true ∧ requestLength 31 0 ≠ some 4 ∧ requestLength 31 0 = some 5 ∧ 4 < 5 ∧
    codeKnown 10 = false ∧ codeKnown 255 = false ∧
    (codeKnown (31#8).toNat = true ∧ requestLength (31#8).toNat 0 = some (5#8).toNat ∧
      (5#8).toNat ≤ [11#8, 0#8, 0#8, 0#8, 1#8].length) ∧
    ((1#8).toNat = 1 ∧ requestLength 1 (3#8).toNat = some (5#8).toNat) := by decide

theorem witness_FlagsReadClearAndSetup :
    Takes 7 live ∧ live.pnp.pendingMask = 0 ∧ Takes 8 live ∧ Takes 9 unset ∧
    ({ live.pnp with flags := 1, enables := 1, levels := { Levels.zero with berth := 1 } } : Pnp).pendingMask ≠ 0 ∧
    (∀ n ∈ [0, 3, 15, 15, 15, 15, 15], n ≤ 3 ∨ n = 15) ∧ (1 ≤ 3 ∧ 3 ≤ 3) ∧
    (∃ n ∈ [0, 4, 15, 15, 15, 15, 15], 3 < n ∧ n ≠ 15) ∧ (16 ≠ 15 ∧ (16 = 0 ∨ 3 < 16)) := by decide

theorem witness_ConfigureStationTakesClampedValues :
    Takes 1 unset ∧ unset.lif.state = .unconfigured := by decide

theorem witness_ConfigureSectionsAreWritten :
    Takes 1 unset ∧ unset.lif.state = .unconfigured ∧ (1 ≤ 48 ∧ 48 ≤ 48) ∧ (1 ≤ 32 ∧ 32 ≤ 32) ∧
    (1 ≤ 1099511627775 ∧ (∀ d ∈ [9, 0, 9, 0, 0, 0], d ≤ 9)) ∧
    (7, ScheduleKind.dayRoll) ∈ [(1, ScheduleKind.nightOn), (2, .nightOff), (3, .lockdownOn),
      (4, .lockdownOff), (5, .tariff1), (6, .tariff2), (7, .dayRoll)] := by decide

theorem witness_ConfigureRefusals :
    requestCode (.configureTariff 1 45 200) = some 1 ∧ Takes 1 live ∧ live.lif.state ≠ .unconfigured ∧
    Takes 1 unset ∧ unset.lif.state = .unconfigured ∧ (49 = 0 ∨ 48 < 49) ∧ (33 = 0 ∨ 32 < 33) ∧
    (3 = 0 ∨ 2 < 3) ∧ (9 = 0 ∨ 8 < 9) ∧ 1099511627775 < 2 ^ 40 ∧ 7 < 8 := by decide

theorem witness_JoinRefusedAtTheFirstFailingCheck :
    let b (l : List Berth) : State := { unset with bal := { unset.bal with berths := l } }
    let stray : State := { unset with fdc := { unset.fdc with
      straySections := [⟨3, 1, 400, 189, 16, 120, 300⟩] } }
    let dry : State := { unset with straps := { unset.straps with dock := false } }
    Takes 2 live ∧ live.lif.state ≠ .unconfigured ∧ Takes 2 unset ∧ unset.lif.state = .unconfigured ∧
    ({ unset.straps with station := 0 } : Straps).station = 0 ∧ unset.straps.station ≠ 0 ∧
    (b []).bal.berths = [] ∧
    ((b [berth 17 130 45 25 (some 32)]).point? 32 = none) ∧
    (1 < ([berth 7 130 45 25 (some 3), berth 12 140 50 20 (some 3)].filterMap Berth.point).count 3) ∧
    stray.fdc.straySections.map PumpSection.pump = [3] ∧
    unset.sharedPoints = [] ∧ unset.berthsNoPoint = [] ∧
    (dry.fdc.straySections = [] ∧ dry.straps.dock = false ∧ dry.fdc.pump1.config.isSome = true) := by
  decide

/-- A station before its JOIN that retains an orphan with a hold, a barred stay, a DEPARTING one at the same
point, and a DEPARTING one whose only hold fell due, with one place in the closure list. -/
def retained : State := { unset with
  occ := { Occ.cold with
    closures := List.replicate 7 (closure 9)
    records := [{ stay 1 40 .alongside with holds := [hold 41 9 none] },
      { stay 2 7 .alongside with account := ⟨-30000, 20000, 1000, .barred, none, false⟩ },
      { stay 3 7 .departing with arrival := 19840, awaiting := true },
      { stay 4 12 .departing with holds := [{ hold 42 9 none with expiry := ⟨1715103000, 0⟩ }] }] }
  sch := { unset.sch with places := [⟨1, .nightOn, 1715103060, 60, false, .idle, none⟩,
    ⟨2, .dayRoll, 1, 0, true, .idle, none⟩] } }

theorem witness_JoinAcceptedStartsTheStation :
    let t := after .join retained
    Takes 2 retained ∧ retained.lif.state = .unconfigured ∧ retained.joinFault = none ∧
    retained.lif.tx = [] ∧ OccupancySound retained ∧
    (retained.sch.places.map ScheduleEntry.place).Nodup ∧ retained.spc.links = [] ∧
    (∀ p ∈ retained.spc.points, p.charging = none ∧ p.arrivals = [] ∧ p.retained = [] ∧ p.finalMark = none) ∧
    retained.berth? 40 = none ∧ (retained.berth? 12).isSome = true ∧ (retained.point? 3).isSome = true ∧
    t.occ.closures.map Closure.occupancy = [9, 9, 9, 9, 9, 9, 9, 1] ∧
    t.occ.records.map Occupancy.number = [2, 3, 4] ∧ t.hasFlag .closureWaiting = true ∧
    (t.point? 3).map (fun p => (p.charging, p.outlet, p.arrivals, p.retained.map RetainedFinal.occ)) =
      some (some 2, .heldOff, [3], [3]) := by
  unfold OccupancySound; decide

def timeFrame (sender ms : Nat) : Frame := mkFrame 18 [] sender (beBytes 4 1715103060 ++ beBytes 2 ms)

theorem witness_SettingTheClock :
    Takes 4 unset ∧ 999 ≤ 999 ∧ 999 < 1000 ∧ 1715103000 * 1000 + 0 ≤ live.now.toMs ∧
    (heard (timeFrame 0 999) live).takeRx 18 .line = some (timeFrame 0 999, none, live) ∧
    ((timeFrame 0 999).sender = 0 ∧ (timeFrame 0 999).num 4 2 ≤ 999) ∧
    ((timeFrame 4 0).sender ≠ 0 ∧ 999 < (timeFrame 0 1000).num 4 2) := by decide

/-- A live station with an armed entry of each of the three outcomes of a step to 1,715,103,060 s. -/
def armed : State := { live with sch := { live.sch with places :=
  [⟨1, .nightOn, 1715103060, 60, false, .armed, some 1715103060⟩,
   ⟨2, .lockdownOn, 1715103001, 0, false, .armed, some 1715103001⟩,
   ⟨3, .dayRoll, 1715103000, 60, false, .armed, some 1715103061⟩,
   ⟨4, .tariff1, 1715200000, 60, true, .armed, some 1715103030⟩,
   ⟨5, .tariff2, 1715000010, 60, true, .armed, some 1715103035⟩] } }

theorem witness_ForwardStepFiresWhatItPasses :
    Takes 4 armed ∧ 0 ≤ 999 ∧ armed.now.toMs < 1715103060 * 1000 + 0 ∧
    (armed.sch.places.map ScheduleEntry.place).Nodup ∧
    (armed.now.toMs < 1715103060 * 1000 ∧ 1715103060 * 1000 ≤ 1715103060 * 1000) ∧
    ¬ 1715103061 * 1000 ≤ 1715103060 * 1000 ∧ 1715103060 * 1000 + 0 < 1715200000 * 1000 ∧
    4294967296 ≤ 4294967290 + ((4294967290 * 1000 - 4294967290 * 1000) / (60 * 1000) + 1) * 60 ∧
    (after (.setClock 1715103060 0) armed).sch.places.map ScheduleEntry.due =
      [some 1715103120, none, some 1715103061, some 1715200000, some 1715103090] ∧
    (after (.setClock 1715103060 0) armed).sch.firings = [.nightOn, .lockdownOn, .tariff1, .tariff2] := by
  decide

/-- The same step made by a TIME of station 0. -/
theorem witness_ForwardStepFiresWhatItPasses_time :
    let f := timeFrame 0 0
    let c : Instr := .timeFrame .line
    armed.powered = true ∧ (heard f armed).takeRx 18 .line = some (f, none, armed) ∧ f.sender = 0 ∧
    (f.num 0 4, f.num 4 2) = (1715103060, 0) ∧ (heard f armed).now.toMs < 1715103060 * 1000 + 0 ∧
    (after c (heard f armed)).sch.firings = [.nightOn, .lockdownOn, .tariff1, .tariff2] := by decide

theorem witness_DueEntriesFireAndTheWrapFiresNone :
    ({ armed with powered := false } : State).sch.micros < 4294967296 * 1000000 ∧
    armed.powered = true ∧ lookupKey ScheduleEntry.place 2 armed.sch.places =
      some ⟨2, .lockdownOn, 1715103001, 0, false, .armed, some 1715103001⟩ ∧
    ClockSound armed ∧ 1715103001 < 4294967296 ∧
    armed.sch.micros ≤ 1715103001 * 1000000 ∧ armed.sch.micros < 4294967296 * 1000000 ∧
    (60 ≠ 0 ∧ 4294967296 ≤ 4294967236 + 60) := by
  unfold ClockSound; decide

theorem witness_FiringsSetWhatTheyName :
    live.powered = true ∧ Takes 5 live ∧ (2 = 1 ∨ 2 = 2) ∧ (3 = 0 ∨ 2 < 3) := by decide

/-- Stays of every case of a day roll on day 19,850. -/
def rolled : State := stays
  [{ stay 1 7 .alongside with arrival := 19848 }, { stay 2 12 .alongside with arrival := 19849 },
   { stay 3 20 .booked with arrival := 19848 }, { stay 4 20 .booked with arrival := 19850 },
   { stay 5 7 .booked with account := ⟨-30000, 20000, 1000, .overdue, some ⟨1715000000, 0⟩, false⟩ },
   { stay 6 20 .alongside with arrival := 19840 },
   { stay 7 20 .booked with arrival := 19830, closureDue := some .orphan }]

/-- The same with a full closure list. -/
def rolledFull : State := { rolled with
  occ := { rolled.occ with closures := List.replicate 8 (closure 9) } }

theorem witness_DayRollMovesEveryRecord :
    let t := after .dayRoll rolled
    let u := after .dayRoll rolledFull
    rolled.powered = true ∧ rolled.lif.state ≠ .unconfigured ∧ OccupancySound rolled ∧
    OccupancySound rolledFull ∧
    (19848 + 2 ≤ rolled.today ∧ rolled.today < 19849 + 2 ∧ 19848 + 1 ≤ rolled.today ∧
      rolled.today ≤ 19850) ∧
    1715000000 * 1000 + rolled.settings.overdueGrace * 3600000 < rolled.now.toMs ∧
    t.occ.closures.map (fun c => (c.occupancy, c.reason)) = [(3, .noShow), (6, .departed), (7, .orphan)] ∧
    t.occ.notices.map (fun x => (x.kind, x.occ)) = [(.departing, 1), (.barred, 5)] ∧
    (u.occ? 3).map Occupancy.closureDue = some (some .noShow) ∧
    (u.occ? 6).map Occupancy.state = some .departing ∧ u.hasFlag .closureWaiting = true := by
  unfold OccupancySound; decide

theorem witness_CaptureStoresAndReadRearms :
    let r (single mark : Bool) : Capture := ⟨single, none, mark, 255⟩
    live.powered = true ∧ live.cap.doorOpen.single = false ∧
    ((r true false).single = true ∧ (r true false).mark = false) ∧
    ((r true true).single = true ∧ (r true true).mark = true) ∧ Takes 58 unset ∧
    (4, 2, Edge.released) ∈ [(1, 1, Edge.doorOpen), (1, 2, .doorShut), (2, 1, .lift1), (2, 2, .hang1),
        (3, 1, .lift2), (3, 2, .hang2), (4, 1, .press), (4, 2, .released)] ∧ 4 < 5 := by decide

theorem witness_ReadsAnswerAndChangeNothing :
    let s : State := { stays [stay 64 7 .alongside, { stay 1 20 .booked with profile := none }] with
      fdc := { live.fdc with journal := [record 210 false none none none, record 211 true none (some 0) none] } }
    (∀ k ∈ [6, 17, 18, 23, 24, 40, 41, 42, 52, 53], Takes k s) ∧
    s.berth? 48 = none ∧ (s.berth? 7).isSome = true ∧ (s.occ? 64).isSome = true ∧ s.occ? 63 = none ∧
    s.occ.closures = [] ∧ s.point? 32 = none ∧ (s.point? 3).isSome = true ∧
    (s.occ? 1).map Occupancy.profile = some none ∧ s.berthPoint 7 = some 3 ∧
    (s.pump? 2).map Pump.config = some none ∧ (s.pump? 1).map (fun p => p.config.isSome) = some true ∧
    s.fdc.journal.map JournalRecord.closed = [false, true] ∧
    (∀ r ∈ live.fdc.journal, r.closed = false) := by decide

theorem witness_LatchReleasesAndGateMode :
    Takes 56 live ∧ live.powered = true ∧ Takes 57 live ∧ 3 < 4 ∧
    (after .gateOpen live).gtc.release = some 5000000 := by decide

/-- The door open since the start, its held limit running. -/
def ajar : State := after .doorOpenEdge live

theorem witness_DoorOpeningsForcedAndHeld :
    live.powered = true ∧ live.gtc.door.isOpen = false ∧ live.gtc.release = none ∧
    live.lif.state = .onLine ∧ live.lif.tx.length < 12 ∧ (after .gateOpen live).gtc.release.isSome = true ∧
    ajar.powered = true ∧ ajar.gtc.door.isOpen = true ∧ ajar.gtc.door.heldEnd = some 60000000 ∧
    ajar.gtc.door.openTime = some ⟨1715103000, 0⟩ ∧ ajar.hasFlag .gateForced = true := by decide

/-- The card of occupancy 18, ALONGSIDE, with a PIN or without, and a staff card 5. -/
def carded (st : OccState) (c : Credential) : State := { stays [{ stay 18 7 st with
  credential := some c }] with gtc := { live.gtc with staff := [⟨1, 5, [9, 9, 9, 9], 2, false, none⟩] } }

theorem witness_CardReadsAreDecidedInOrder :
    let s := carded .alongside (cred card1 none 0)
    let night : State := { s with gtc := { s.gtc with night := true } }
    let lock : State := { s with gtc := { s.gtc with lockdown := true } }
    s.powered = true ∧ unset.lif.state = .unconfigured ∧ s.lif.state ≠ .unconfigured ∧
    s.gtc.entry = none ∧
    (∀ e ∈ s.gtc.staff, e.card ≠ card1) ∧ cardGood card1 goodCheck = true ∧
    cardGood card1 0 = false ∧
    s.gtc.staff.find? (fun e => e.card == 5) = some ⟨1, 5, [9, 9, 9, 9], 2, false, none⟩ ∧
    s.staff? 1 = some ⟨1, 5, [9, 9, 9, 9], 2, false, none⟩ ∧
    (s.cardHolder card1).map Occupancy.number = some 18 ∧ (s.occ? 18).isSome = true ∧
    s.gtc.mode = .day ∧ night.gtc.mode = .night ∧ lock.gtc.mode = .lockdown ∧
    (s.waiverRuns (some ⟨1715103000, 1⟩) = true) ∧ s.waiverRuns none = false := by decide

/-- 11: a card read with its check byte, a key, a frame cut short and bytes that begin no frame. -/
theorem witness_CardReadsAreDecidedInOrder_bytes :
    let later : List (Nat × Byte) :=
      [(1, 0x12#8), (2, 0x34#8), (3, 0x56#8), (4, 0x78#8), (5, 0x9A#8), (100000, 0x92#8)]
    card1 < 1099511627776 ∧ later.map Prod.snd = beBytes 5 card1 ++ [0x92#8] ∧
    (∀ x ∈ later, x.1 ≤ 0 + 100000) ∧
    decodeReader ((0, 0xC1#8) :: later) = [.cardRead card1 goodCheck] ∧
    decodeReader [(0, 0x12#8), (5, 0xC2#8), (9, 11#8), (20, 0xC1#8), (30, 1#8), (100021, 0xC2#8), (100030, 12#8)] =
      [.key 11, .readerFrameTimeout [0xC1#8, 1#8], .key 12] ∧
    decodeReader [(0, 0xC2#8)] = [.readerFrameTimeout [0xC2#8]] := by decide

/-- A PIN entry for occupancy 18 or for staff credential 1. -/
def entering (f : Found) (card : Nat) (digits : List Nat) (c : Credential) : State :=
  let s := carded .alongside c
  { s with gtc := { s.gtc with entry := some ⟨f, card, false, digits, 10000000⟩ } }

theorem witness_PinEntryKeysAndOutcome :
    let c := cred card1 (some [1, 2, 3, 4]) 2
    let s := entering (.occupancy 18) card1 [1, 2, 3, 4] c
    let w := entering (.occupancy 18) card1 [1, 2, 3] c
    let z := entering (.staff 1) 5 [9, 9, 9, 9] c
    live.powered = true ∧ live.gtc.entry = none ∧ s.lif.state ≠ .unconfigured ∧
    s.gtc.entry = some ⟨.occupancy 18, card1, false, [1, 2, 3, 4], 10000000⟩ ∧
    ([1, 2, 3, 4].length < 6 ∧ 6 ≤ [1, 2, 3, 4, 5, 6].length ∧ 11 < 12) ∧
    (s.occ? 18).map (fun r => (r.credential, s.occupancyCause r c)) = some (some c, none) ∧
    w.gtc.entry.map PinEntry.digits ≠ c.pin ∧ s.occ? 19 = none ∧
    (after (.key 10) s).gtc.release = some 5000000 ∧
    (after (.key 10) w).hasFlag .lockout = true ∧
    (z.staff? 1).map Staff.pin = z.gtc.entry.map PinEntry.digits ∧
    (after (.key 10) z).gtc.release = some 5000000 := by decide

/-- An entry of occupancy 18 with its PIN, judged after each cause of R132 came to hold, and with its
credential or its PIN gone. -/
theorem witness_PinEntryKeysAndOutcome_fails :
    let c := cred card1 (some [1, 2, 3, 4]) 2
    let s := entering (.occupancy 18) card1 [1, 2, 3, 4] c
    let e : PinEntry := ⟨.occupancy 18, card1, false, [1, 2, 3, 4], 10000000⟩
    let r : Occupancy := { stay 18 7 .alongside with credential := some c }
    let as (r : Occupancy) : State := { s with occ := { s.occ with records := [r] } }
    let lock : State := { s with gtc := { s.gtc with lockdown := true } }
    let cause (s : State) : Option GateCause := (after (.key 10) s).gtc.last.bind Decision.cause
    let early : Occupancy := { r with state := .booked, arrival := 19851 }
    let gone : Occupancy := { r with state := .departing, graceEnd := some ⟨1715103000, 0⟩ }
    let due : Occupancy := { r with closureDue := some .departed }
    let barred : Occupancy := { r with account := { r.account with state := .barred } }
    let locked : Occupancy := { r with credential := some { c with locked := true } }
    let unpinned : Occupancy := { r with credential := some { c with pin := none } }
    let bare : Occupancy := { r with credential := none }
    (∀ x ∈ [early, gone, due, barred, locked, unpinned, bare, r],
      (as x).powered = true ∧ (as x).lif.state ≠ .unconfigured ∧ (as x).gtc.entry = some e ∧
      (as x).occ? 18 = some x) ∧ lock.gtc.mode = .lockdown ∧ s.gtc.mode = .day ∧
    (19851 ≠ s.today ∧ Time.toMs ⟨1715103000, 0⟩ ≤ s.now.toMs) ∧
    cause lock = some .mode ∧ cause (as early) = some .state ∧ cause (as gone) = some .state ∧
    cause (as due) = some .state ∧ cause (as barred) = some .barred ∧
    cause (as locked) = some .locked ∧ cause (as unpinned) = some .changed ∧
    cause (as bare) = some .changed ∧ cause (as r) = none := by decide

theorem witness_OnlyGrantsReleaseTheLatch :
    exec .gateOpen live = .next (after .gateOpen live) ∧ isStart .gateOpen = false ∧
    (after .gateOpen live).gtc.release ≠ live.gtc.release ∧
    (after .releaseEnd (after .gateOpen live)).gtc.release = none := ⟨rfl, by decide⟩

theorem witness_CandidateIsTheBestFeasibleBerth :
    let b := berth 7 130 45 25 (some 3)
    live.candidate asked 19850 = some (32, 7) ∧ live.feasible asked 19850 b = true ∧
    live.candidate { asked with length := 600 } 19850 = none ∧ asked.power = true ∧
    (live.point? 3).map Point.maxRating = some 1 ∧
    live.feasible { asked with power := false } 19850 b = true ∧
    live.feasible { asked with preferred := 3 } 19850 b = true ∧ live.me = 3 ∧
    live.score { asked with preferred := 3 } b = 0 := by decide

theorem witness_RequestBerthOriginates :
    let off : State := { live with lif := { live.lif with state := .lineOff } }
    let full := rounds [round .lost none, round .lost none, round .lost none, round .lost none]
    Takes 16 live ∧ live.lif.state = .onLine ∧ off.lif.state ≠ .onLine ∧
    (30 ≤ asked.length ∧ asked.length ≤ 600 ∧ 10 ≤ asked.beam ∧ asked.beam ≤ 150 ∧ 5 ≤ asked.draft ∧
      asked.draft ≤ 60 ∧ asked.offset ≤ 6 ∧ 1 ≤ asked.nights ∧ asked.nights ≤ 60 ∧ asked.lowWater ≤ 80 ∧
      asked.rating ≤ 3 ∧ asked.cls = 1 ∧ asked.preferred ≤ 31) ∧
    ¬ 30 ≤ ({ asked with length := 29 } : BerthRequest).length ∧
    (after (.requestBerth asked) live).bal.await.isSome = true ∧
    full.bal.rounds.length = 4 ∧ full.bal.await = none ∧ live.bal.rounds.length < 4 ∧
    live.candidate { asked with length := 600 } 19850 = none ∧ live.lif.tx.length < 11 := by decide

/-- A candidate of score 32, and one of score 0 whose BID is queued at once. -/
theorem witness_RequestBerthOriginates_candidate :
    let near : BerthRequest := { asked with preferred := 3 }
    let shown (q : BerthRequest) : Option (RoundState × Option BidKey × Option Nat × Option Nat) :=
      ((after (.requestBerth q) live).round? ⟨3, 1⟩).map fun x => (x.state, x.ownKey, x.delayEnd, x.bidFrame)
    live.occ.records.length < 64 ∧ live.candidate asked (live.today + asked.offset) = some (32, 7) ∧
    (live.candidate near (live.today + near.offset)).map Prod.fst = some 0 ∧
    live.settings.bidStep = 50 ∧ live.lif.serial = 0 ∧ live.lif.tx.length < 11 ∧
    shown asked = some (.waiting, some ⟨32, 3⟩, some 1600, none) ∧
    shown near = some (.bidQueued, some ⟨0, 3⟩, none, some 1) ∧
    (after (.requestBerth asked) live).bal.berths.map Berth.mark = [some ⟨3, 1⟩, none, none] := by decide

theorem witness_BerthRequestOpensARound :
    let f := berthRequestFrame 2 17 asked
    let z := berthRequestFrame 2 17 { asked with preferred := 3, length := 130, beam := 41, draft := 26 }
    (heard f live).powered = true ∧ (heard f live).takeRx 15 .line = some (f, none, live) ∧
    live.lif.state = .onLine ∧ f.sender ≠ live.me ∧ live.bal.rounds = [] ∧
    requestInRange (unpackRequest (f.num 0 7)) = true ∧
    live.candidate (unpackRequest (f.num 0 7)) 19850 = some (32, 7) ∧ 0 < 32 ∧
    live.candidate { asked with length := 600 } 19850 = none ∧
    (live.candidate (unpackRequest (z.num 0 7)) 19850).map Prod.fst = some 0 ∧
    (berthRequestFrame 3 17 asked).sender = live.me ∧
    requestInRange { asked with length := 29 } = false ∧
    4 ≤ (rounds [round .lost none, round .lost none, round .lost none, round .lost none]).bal.rounds.length := by
  decide

theorem witness_BidsAndKeysHeard :
    let s (st : RoundState) : State := rounds [round st none]
    let low := bidFrame 4 0 tagA
    let high := bidFrame 4 33 tagA
    let even := bidFrame 4 32 tagA
    (s .waiting).powered = true ∧ (s .waiting).round? tagA = some (round .waiting none) ∧
    (round .waiting none).delayEnd = some 1600 ∧ (round .waiting none).ownKey = some ⟨32, 3⟩ ∧
    (∀ st ∈ [RoundState.waiting, .bidSent, .bidQueued, .won],
      (heard low (s st)).takeRx 13 .line = some (low, none, s st) ∧
      (s st).round? ⟨low.num 0 1, low.num 1 1⟩ = some (round st none)) ∧
    (low.keyField 0 10, low.sender) = (0, 4) ∧ (high.keyField 0 10, high.sender) = (33, 4) ∧
    ¬ (even.keyField 0 10 < 32 ∨ (even.keyField 0 10 = 32 ∧ even.sender < 3)) ∧
    (∀ sent ∈ [true, false],
      takeFirst (fun x => x.frame.kind == 13) (reported (bidFrame 3 32 tagA) sent (s .bidQueued)).lif.reports =
        some (⟨0, bidFrame 3 32 tagA, sent⟩, [])) ∧
    (s .bidQueued).bal.rounds.find? (fun r => r.bidFrame == some 0) = some (round .bidQueued none) := by
  decide

/-- A looped-back BID under its round's own note and under another's, a delay that is not running, and a
report whose round has moved on. -/
theorem witness_BidsAndKeysHeard_noOwn :
    let s (st : RoundState) : State := rounds [round st none]
    let own := bidFrame 3 32 tagA
    let looped (n : Nat) (u : State) : State := { u with lif := { u.lif with loop := [⟨n, own⟩] } }
    let best (u : State) : Option (Option BidKey) := (u.round? tagA).map Round.best
    (∀ n ∈ [0, 1], (looped n (s .bidSent)).takeRx 13 .loopBack = some (own, some n, s .bidSent)) ∧
    (round .bidSent none).bidFrame = some 0 ∧
    best (after (.bidFrame .loopBack) (looped 0 (s .bidSent))) = some (some ⟨32, 3⟩) ∧
    best (after (.bidFrame .loopBack) (looped 1 (s .bidSent))) = some none ∧
    live.round? tagA = none ∧ (s .lost).round? tagA = some (round .lost none) ∧
    (∀ x ∈ (s .lost).bal.rounds, x.bidFrame = some 0 → x.state ≠ .bidQueued) ∧
    ((s .bidQueued).bal.rounds.map Round.tag).Nodup := by decide

/-- A lower key finds the BID queued, in an attempt, and refused with its report untaken. -/
theorem witness_BidsAndKeysHeard_unsent :
    let s := rounds [round .bidQueued none]
    let low := bidFrame 4 0 tagA
    let queued : State := { s with lif := { s.lif with tx := [⟨0, bidFrame 3 32 tagA⟩], serial := 1 } }
    let tried : State := { queued with lif := { queued.lif with attempt := some 0 } }
    let failed := reported (bidFrame 3 32 tagA) false s
    let state (s : State) : Option RoundState :=
      ((after (.bidFrame .line) (heard low s)).round? tagA).map Round.state
    (∀ x ∈ [queued, tried, failed], (heard low x).takeRx 13 .line = some (low, none, x) ∧
      x.round? tagA = some (round .bidQueued none)) ∧
    (round .bidQueued none).bidFrame = some 0 ∧ (0 < 32 ∨ (0 = 32 ∧ 4 < 3)) ∧
    state queued = some .withdrawn ∧ state tried = some .lost ∧ state failed = some .withdrawn := by decide

theorem witness_WindowEndWinsOrDiscards :
    let won := rounds [round .bidSent (some ⟨32, 3⟩)]
    let lost := rounds [round .bidSent (some ⟨0, 4⟩)]
    let full : State := { won with occ := { won.occ with records := (List.range 64).map fun n =>
      { stay (n + 1) 20 .booked with arrival := 20000 + 2 * n } } }
    let watched := rounds [{ round .won none with watchEnd := some 560000 }]
    won.powered = true ∧ won.round? tagA = some (round .bidSent (some ⟨32, 3⟩)) ∧
    (round .bidSent (some ⟨32, 3⟩)).best = (round .bidSent (some ⟨32, 3⟩)).ownKey ∧
    lost.round? tagA = some (round .bidSent (some ⟨0, 4⟩)) ∧
    (round .bidSent (some ⟨0, 4⟩)).best ≠ (round .bidSent (some ⟨0, 4⟩)).ownKey ∧
    (((won.advanceTo 60000).createOcc ((round .bidSent (some ⟨32, 3⟩)).stay 7)).map Prod.fst) = some 1 ∧
    (full.advanceTo 60000).createOcc ((round .bidSent (some ⟨32, 3⟩)).stay 7) = none ∧
    (watched.round? tagA).map (fun r => (r.state, r.watchEnd)) = some (.won, some 560000) ∧
    takeFirst (fun x => x.frame.kind == 14) (reported (assignFrame 3 tagA 32 7 1) true live).lif.reports =
      some (⟨0, assignFrame 3 tagA 32 7 1, true⟩, []) := by decide

/-- A BID still queued at its window end, one in transmission, and a forfeited berth that carries the mark. -/
theorem witness_WindowEndWinsOrDiscards_queued :
    let marked (s : State) : State := { s with bal := { s.bal with berths :=
      [{ berth 7 130 45 25 (some 3) with mark := some tagA }, { berth 12 140 50 20 none with mark := some ⟨4, 1⟩ }] } }
    let s := marked (rounds [round .bidQueued none])
    let q : State := { s with lif := { s.lif with tx := [⟨0, bidFrame 3 32 tagA⟩, ⟨1, bidFrame 3 9 tagA⟩], serial := 2 } }
    let tried : State := { q with lif := { q.lif with attempt := some 0 } }
    let lost := marked (rounds [round .bidSent (some ⟨32, 3⟩)])
    let full : State := { lost with occ := { lost.occ with records := (List.range 64).map fun n =>
      { stay (n + 1) 20 .booked with arrival := 20000 + 2 * n } } }
    let left (s : State) : List Nat × List (Option Tag) := let t := after (.windowEnd tagA) s
      (t.lif.tx.map TxFrame.serial, t.bal.berths.map Berth.mark)
    q.round? tagA = some (round .bidQueued none) ∧ (round .bidQueued none).bidFrame = some 0 ∧
    left q = ([1], [none, some ⟨4, 1⟩]) ∧ left tried = ([0, 1], [none, some ⟨4, 1⟩]) ∧
    left full = ([], [none, some ⟨4, 1⟩]) := by decide

theorem witness_AwaitTakesTheBestAssign :
    let f := assignFrame 4 tagA 0 5 9
    let g := assignFrame 4 tagA 33 5 9
    let mine : Await := ⟨tagA, 0, 0, some 560000, none⟩
    let won : Round := { round .won none with occupancy := some 1 }
    let s : State := { stays [{ stay 1 7 .booked with origin := some tagA }] with
      bal := { live.bal with rounds := [won], await := some mine } }
    let q := berthRequestFrame 3 17 asked
    (heard f s).takeRx 14 .line = some (f, none, s) ∧ s.powered = true ∧ s.bal.await = some mine ∧
    mine.tag = ⟨f.num 0 1, f.num 1 1⟩ ∧ mine.best = none ∧ s.round? tagA = some won ∧
    won.ownKey = some ⟨32, 3⟩ ∧ (f.num 2 2, f.sender) = (0, 4) ∧ g.num 2 2 = 33 ∧
    (∀ st ∈ [RoundState.waiting, .lost], let w := rounds [round st none]
      (heard f w).takeRx 14 .line = some (f, none, w) ∧ w.round? tagA = some (round st none)) ∧
    s.occ? 1 = some { stay 1 7 .booked with origin := some tagA } ∧ live.round? tagA = none ∧
    (∀ sent ∈ [true, false], takeFirst (fun x => x.frame.kind == 15) (reported q sent s).lif.reports =
      some (⟨0, q, sent⟩, [])) ∧ mine.frame = 0 ∧ mine.deadline = some 560000 := by decide

theorem witness_BookCreatesTheStay :
    let v : BookParams := ⟨7, 365, 366, 110, 35, 15, 3, 1, 1, 0⟩
    let s := stays [stay 2 7 .booked]
    Takes 19 s ∧ (1 ≤ v.berth ∧ v.berth ≤ 48 ∧ v.offset ≤ 365 ∧ 1 ≤ v.nights ∧ v.nights ≤ 366 ∧
      30 ≤ v.length ∧ v.length ≤ 600 ∧ 10 ≤ v.beam ∧ v.beam ≤ 150 ∧ 5 ≤ v.draft ∧ v.draft ≤ 60 ∧
      1 ≤ v.cls ∧ v.cls ≤ 3 ∧ v.power ≤ 1 ∧ v.rating ≤ 3 ∧ v.three ≤ 1) ∧ ¬ 366 ≤ 365 ∧
    s.berth? 48 = none ∧ (s.berth? 7).isSome = true ∧ s.occ.records.length < 64 ∧
    (∀ x ∈ s.occ.records, ¬ (x.berth = 7 ∧ x.arrival < 20215 + 366 ∧ 20215 < x.arrival + x.nights)) ∧
    (∃ x ∈ s.occ.records, x.berth = 7 ∧ x.arrival < 19851 + 1 ∧ 19851 < x.arrival + x.nights) ∧
    64 ≤ (stays ((List.range 64).map fun n => stay (n + 1) 20 .booked)).occ.records.length ∧
    s.berthPoint 7 = some 3 ∧ (s.point? 3).isSome = true ∧ s.berthPoint 20 = none := by decide

theorem witness_StaysCancelArriveDepart :
    let s := stays [stay 1 7 .booked, stay 2 12 .alongside, stay 3 20 .alongside]
    let full : State := { s with occ := { s.occ with closures := (List.range 8).map closure } }
    let early := stays [{ stay 64 7 .booked with arrival := 19851 }]
    (∀ k ∈ [20, 21, 22], Takes k s ∧ Takes k full ∧ Takes k early) ∧ 64 < 65 ∧ s.occ? 64 = none ∧
    s.occ? 1 = some (stay 1 7 .booked) ∧ (19850 ≤ s.today ∧ s.today < 19850 + 2) ∧
    early.today < 19851 ∧ s.occ? 2 = some (stay 2 12 .alongside) ∧ s.berthPoint 12 ≠ none ∧
    s.berthPoint 20 = none ∧ s.occ.closures.length < 8 ∧ 8 ≤ full.occ.closures.length := by decide

theorem witness_CollectsTakeTheOldest :
    let s : State := { stays [stay 2 4 .departing, stay 5 7 .alongside] with
      occ := { Occ.cold with records := [stay 2 4 .departing, stay 5 7 .alongside], closures := [closure 9] } }
    let j : State := { live with fdc := { live.fdc with
      journal := [record 210 false none none none, record 211 true none (some 0) none] } }
    Takes 25 live ∧ live.occ.closures = [] ∧ Takes 25 s ∧ s.occ.closures = [closure 9] ∧
    s.occ.records = [] ++ stay 2 4 .departing :: [stay 5 7 .alongside] ∧ OccupancySound s ∧
    ((stay 2 4 .departing).state = .departing ∧ (stay 2 4 .departing).awaiting = false) ∧
    Takes 54 j ∧ live.fdc.journal = [] ∧
    j.fdc.journal = [record 210 false none none none] ++ record 211 true none (some 0) none :: [] := by
  unfold OccupancySound; decide

theorem witness_CredentialRequests :
    let s := stays [stay 1 7 .alongside, { stay 2 12 .alongside with
      credential := some (cred card1 (some [1, 2, 3, 4]) 2) },
      { stay 3 20 .booked with credential := some { cred 6 (some [1, 2, 3, 4]) 3 with locked := true } },
      { stay 4 20 .booked with credential := some (cred 7 none 0) }]
    let f : Frame := mkFrame 16 [(5, 3), (7, 1)] 4 (beBytes 5 1099511627775)
    let g : Frame := mkFrame 16 [(5, 3), (7, 1)] 4 (beBytes 5 card1)
    (∀ k ∈ [26, 27, 28, 29, 30], Takes k s) ∧ s.powered = true ∧
    (s.cardHolder card1).map Occupancy.number = some 2 ∧ s.cardHolder 1099511627775 = none ∧
    s.gtc.staff = [] ∧ s.occ? 64 = none ∧ (s.occ? 1).map Occupancy.credential = some none ∧
    (heard f s).takeRx 16 .line = some (f, none, s) ∧ f.keyField 5 7 = 1 ∧ f.num 0 5 ≠ 0 ∧
    (heard g s).takeRx 16 .line = some (g, none, s) ∧ g.num 0 5 = card1 ∧
    pinDigits ⟨3, [1, 2, 3, 0, 0, 0]⟩ = none ∧ pinDigits ⟨6, [1, 2, 3, 4, 5, 9]⟩ = some [1, 2, 3, 4, 5, 9] ∧
    pinDigits ⟨4, [1, 2, 3, 4, 0, 0]⟩ = some [1, 2, 3, 4] ∧
    (after (.changePin 2 ⟨4, [1, 2, 3, 5, 0, 0]⟩ ⟨4, [0, 0, 0, 0, 0, 0]⟩) s).hasFlag .lockout = true := by
  decide

theorem witness_AccountRequests :
    let s (st : AccountState) (b : Int) : State := stays [{ stay 11 7 .alongside with
      account := ⟨b, 20000, 1000, st, none, false⟩ }]
    let late := stays [{ stay 11 7 .alongside with
      account := ⟨-30000, 20000, 1000, .overdue, some ⟨1715000000, 0⟩, false⟩ }]
    (∀ k ∈ [31, 32, 33, 34], Takes k (s .open_ 3500) ∧ Takes k late) ∧
    ((s .open_ 3500).occ? 11).isSome = true ∧ 64 < 65 ∧ late.occ? 64 = none ∧
    (1 ≤ 1 ∧ 1 ≤ 99999999 ∧ (3500 : Int) + 1 ≤ 99999999) ∧ (99999999 : Int) < 3500 + 99999999 ∧
    (-((20000 : Nat) : Int) ≤ 3500 + 1) ∧ ((-20014 : Int) + 20013 < 0 ∧ (0 : Int) ≤ -20014 + 20014) ∧
    ((s .barred (-20014)).occ? 11).map (fun r => r.account.state) = some .barred ∧
    (0 % 2 = 0 ∧ 10000000 < 10000001) ∧ (3 % 2 = 1 ∧ 3 / 2 % 2 = 1) ∧
    ((3500 : Int) < -((0 : Nat) : Int) ∨ -((0 : Nat) : Int) ≤ 3500) ∧ (-1 : Int) < -((0 : Nat) : Int) ∧
    (-20001 : Int) < -((20000 : Nat) : Int) ∧ -((20000 : Nat) : Int) ≤ (-20000 : Int) ∧
    1715000000000 + late.settings.overdueGrace * 3600000 < late.now.toMs ∧
    ((after (.topUp 11 1) late).occ? 11).map (fun r => r.account.state) = some .barred ∧
    ((after (.topUp 11 1) (s .open_ (-30000))).occ? 11).map (fun r => r.account.state) = some .overdue := by
  decide

theorem witness_HoldAsksAreAnswered :
    let r : Occupancy := { stay 11 7 .alongside with credential := some (cred card1 none 0) }
    let s := stays [r]
    let f := holdAskFrame 9 1 4 card1 23500
    let poor := holdAskFrame 9 1 4 card1 23501
    let again := stays [{ r with holds := [hold 42 9 (some 1)] }]
    let four := stays [{ r with holds := [hold 1 5 none, hold 2 5 none, hold 3 5 none,
      { hold 4 5 none with amount := 100 }], account := ⟨99999999, 20000, 1000, .open_, none, false⟩ }]
    (heard f s).takeRx 9 .line = some (f, none, s) ∧ s.powered = true ∧
    live.cardHolder card1 = none ∧ (holdAskFrame 9 1 4 card1 99).num 5 3 < 100 ∧
    500000 < (holdAskFrame 9 1 4 card1 500001).num 5 3 ∧ s.cardHolder (f.num 0 5) = some r ∧
    s.occ? 11 = some r ∧ (100 ≤ f.num 5 3 ∧ f.num 5 3 ≤ 500000) ∧
    ¬ r.available < ((f.num 5 3 : Nat) : Int) ∧ r.available < ((poor.num 5 3 : Nat) : Int) ∧
    ((hold 42 9 (some 1)).station = f.sender ∧ (hold 42 9 (some 1)).pump = some (f.keyField 0 2) ∧
      (hold 42 9 (some 1)).ask = some (f.keyField 2 8)) ∧
    (again.occ? 11).map (fun r => r.holds.length) = some 1 ∧
    (four.occ? 11).map (fun r => (r.holds.length, decide (r.available < 100))) = some (4, false) ∧
    (1 ≤ 255 ∧ 255 ≤ 255 ∧ 255 ∉ s.holdIds) ∧ s.lif.state = .onLine ∧ s.lif.tx.length < 12 := by decide

/-- 64 records that hold every hold id from 1 to 255, the last of them with three of its own, and card 1. -/
def heldFull : State := stays ((List.range 64).map fun i => { stay (i + 1) 7 .alongside with
  credential := if i = 63 then some (cred card1 none 0) else none
  holds := (List.range (if i = 63 then 3 else 4)).map fun k => { hold (4 * i + k + 1) 5 none with amount := 100 } })

theorem heldFull_ids : heldFull.holdIds = (List.range 255).map (· + 1) := by decide +kernel

/-- With every hold id in use an ask is answered HOLDS, though its record has three holds (R40, R41). -/
theorem witness_HoldAsksAreAnswered_noId :
    let f := holdAskFrame 9 1 4 card1 100
    (∀ i, 1 ≤ i → i ≤ 255 → i ∈ heldFull.holdIds) ∧ heldFull.cardHolder card1 = heldFull.occ? 64 ∧
    (heldFull.occ? 64).map (fun r => (r.holds.length, r.state, r.closureDue, decide (r.available < 100))) =
      some (3, .alongside, none, false) ∧
    (after (.holdAskFrame .line) (heard f heldFull)).lif.tx.map TxFrame.frame =
      [holdRefusedFrame 3 9 1 4 .holds] := by
  refine ⟨fun i h1 h2 => ?_, by decide +kernel⟩
  rw [heldFull_ids, List.mem_map]
  exact ⟨i - 1, List.mem_range.2 (by omega), by omega⟩

theorem witness_SettlesAndLapses :
    let s := stays [{ stay 11 7 .alongside with
      holds := [hold 42 9 (some 1)], receipts := [⟨9, 40, 208, .applied⟩] }]
    let f := settleFrame 9 3 42 14812 11 211
    let late := settleFrame 9 3 43 0 11 211
    let again := settleFrame 9 3 40 500 11 208
    (∀ g ∈ [f, late, again], (heard g s).takeRx 11 .line = some (g, none, s)) ∧ s.powered = true ∧
    (settleFrame 9 3 42 14812 12 211).num 3 1 = 12 ∧ s.occ? 12 = none ∧ (s.occ? 11).isSome = true ∧
    (f.keyField 5 8, f.num 3 1, f.num 4 2, f.sender) = (42, 11, 211, 9) ∧
    (late.keyField 5 8, late.num 0 3) = (43, 0) ∧ (again.keyField 5 8, again.num 4 2) = (40, 208) ∧
    s.lif.state ≠ .unconfigured ∧ s.lif.state = .onLine ∧ s.lif.tx.length < 12 ∧
    (s.occ? 11).bind (fun r => r.holds.find? fun x => x.id == 42) = some (hold 42 9 (some 1)) := by decide

/-- The last hold of a DEPARTING record, and the hold of one with closure due, settled or lapsed with room
in the closure list and with none. -/
theorem witness_SettlesAndLapses_closes :
    let leaving : Occupancy := { stay 11 7 .departing with holds := [hold 42 9 (some 1)] }
    let due : Occupancy := { stay 11 7 .alongside with
      holds := [hold 42 9 (some 1), hold 43 9 none], closureDue := some .departed }
    let full (s : State) : State := { s with occ := { s.occ with closures := (List.range 8).map closure } }
    let f := settleFrame 9 3 42 14812 11 211
    let gone (c : Instr) (s : State) : Bool × List Int := let t := after c s
      ((t.occ? 11).isNone, t.occ.closures.map Closure.balance)
    (∀ r ∈ [leaving, due], let s := stays [r]
      (heard f s).takeRx 11 .line = some (f, none, s) ∧ s.occ? 11 = some r ∧ s.lif.state = .onLine ∧
      (r.holds.find? fun x => x.id == 42) = some (hold 42 9 (some 1)) ∧ s.occ.closures.length < 8 ∧
      8 ≤ (full s).occ.closures.length ∧
      gone (.settleFrame .line) (heard f s) = (true, [-11312]) ∧
      gone (.holdExpiry 11 42) s = (true, [3500]) ∧
      (gone (.settleFrame .line) (heard f (full s))).1 = false ∧
      (gone (.holdExpiry 11 42) (full s)).1 = false) ∧
    leaving.awaiting = false ∧ (leaving.holds.filter fun x => x.id != 42) = [] ∧
    (after (.holdExpiry 11 42) (full (stays [leaving]))).hasFlag .closureWaiting = true ∧
    (after (.settleFrame .line) (heard f (full (stays [leaving])))).hasFlag .closureWaiting = true := by decide

/-- An outlet of each class of R54: an OVERDUE account's, a VISITOR's and another's; C is 160 A. -/
def crowded : State :=
  let s := budget [] [] [⟨9, 100, 1⟩, ⟨3, 50, 2⟩, ⟨7, 61, 3⟩]
  { s with
    occ := { Occ.cold with records :=
      [{ stay 1 7 .alongside with cls := .seasonal, account := ⟨-30000, 20000, 0, .overdue, none, false⟩ },
       stay 2 12 .alongside, { stay 3 20 .alongside with cls := .seasonal }] }
    spc := { s.spc with points := [pt 3 1 false .on (some 1), pt 7 2 false .on (some 2),
      pt 9 3 true .on (some 3)] } }

theorem witness_PassesAndTheHeadDemand :
    let tight := budget [] [] [⟨7, 140, 1⟩, ⟨3, 32, 2⟩]
    let shed : State := { live with pwb := { Pwb.start with shed := [⟨3, 160, 2⟩, ⟨7, 1, 3⟩] } }
    ((live.load : Int) ≤ live.ceiling) ∧ tight.ceiling < tight.load ∧
    (crowded.pwb.energised.map OutletLoad.point).Nodup ∧ crowded.pwb.shed = [] ∧
    crowded.shedPass.pwb.energised.map OutletLoad.point = [9] ∧
    crowded.shedPass.pwb.shed.map OutletLoad.point = [3, 7] ∧
    (shed.pwb.shed.map OutletLoad.point).Nodup ∧
    shed.restorePass.pwb.shed = [⟨7, 1, 3⟩] ∧ shed.restorePass.load = 160 ∧
    live.pwb.demands = [] ∧ live.ceiling ≤ live.ceiling ∧ live.load ≤ live.load ∧
    shed.settleSince live = shed ∧ live.ceiling < (budget [⟨2, false, 8, .active, 5, none, none, none⟩] [] []).ceiling ∧
    shed.settle.pwb.demands = [] ∧ shed.settle.pwb.shed = [⟨7, 1, 3⟩] := by decide

/-- Heads of every kind that fit, and heads that do not, in every case of R58 to R60. -/
theorem witness_PassesAndTheHeadDemand_heads :
    let d (k : DemandKind) (source need : Nat) : Demand := ⟨1, k, source, need, false, []⟩
    let s (l : List Loan) (d : Demand) : State := budget l [d] [⟨7, 140, 1⟩]
    let out (k : LoanState) (a : Option Nat) : Loan := ⟨5, true, 8, k, 9, a, none, none⟩
    let asks (d : Demand) (a : Bool) : State → State := fun x => { x with pwb := { x.pwb with
      collection := if a then some ⟨1, 12, 0, d.id, none, []⟩ else none } }
    let e := d .energise 3 20
    let big := d .energise 3 21
    ((e.need : Int) ≤ (s [] e).ceiling - (s [] e).load) ∧
    ((d .pump 1 20).need : Int) ≤ (s [] e).ownCeiling - (s [] e).pumpLoads ∧
    (∀ k ∈ [DemandKind.energise, .raise, .pump], (s [] (d k 1 20)).settle.pwb.demands = []) ∧
    (¬ (big.need : Int) ≤ (s [] big).ceiling - (s [] big).load) ∧
    (asks big true (s [] big)).pwb.collection.isSome = true ∧
    (let w := s [out .recalled none] { big with recalls := [5] }
     (∃ l ∈ w.pwb.loans, l.lent = true ∧ l.state = .recalled ∧ l.partner ∈ [5]) ∧ w.settle = w) ∧
    (let r := s [out .active none, { out .active none with lent := false, pledge := 3 }] { big with need := 29 }
     (∃ l ∈ r.pwb.loans, mayRecall l = true) ∧
     r.pwb.loans.Pairwise (fun a b => a.lent = b.lent → a.partner ≠ b.partner) ∧
     r.settle.pwb.demands.map Demand.recalls = [[5]]) ∧
    mayRecall (out .active (some 8)) = false ∧
    (let b := s [out .active (some 8)] (d .pump 1 152)
     (b.ownCeiling - b.pumpLoads < 153 ∧ (budget [out .active (some 8)] [d .pump 1 153] []).settle.pwb.demands = []) ∧
     ((budget [] [d .pump 1 161] []).ownCeiling < 161)) ∧
    ((s [] big).settle.pwb.demands.map Demand.asked = [true]) ∧
    (max 4 (((big.need - ((s [] big).ceiling - (s [] big).load)).toNat + 3) / 4 * 4) = 4) ∧
    ((s [] { big with asked := true }).settle.pwb.shed.map OutletLoad.point = [3]) ∧
    1023 < 160 + 0 + 864 ∧ 16 ≤ (List.replicate 16 (out .pledged none)).length := by decide

/-- A lender with one loan record of each kind out to stations 5, 6 and 8. -/
def lender : State := budget
  [⟨5, true, 12, .pledged, 9, none, some 2000000, some 0⟩,
   ⟨6, true, 8, .active, 10, some 8, some 2000000, some 0⟩,
   ⟨8, true, 8, .recalled, 11, none, some 30000000, none⟩,
   ⟨2, false, 8, .active, 5, none, none, none⟩] [] [⟨7, 100, 1⟩]

theorem witness_LendingPledgesAndTakes :
    let f := loanAskFrame 5 1 12
    let out := loanAskFrame 2 1 12
    let g : Loan := ⟨5, true, 12, .active, 9, none, none, none⟩
    (heard f live).takeRx 4 .line = some (f, none, live) ∧ live.powered = true ∧ f.sender ≠ live.me ∧
    live.pwb.collection = none ∧ live.pwb.loans = [] ∧
    (4 ≤ (min (f.num 0 2 : Int) (min (live.ceiling - live.load - live.settings.keepMargin)
      (live.ownCeiling - live.pumpLoads))).toNat / 4 * 4) ∧
    (∃ l ∈ lender.pwb.loans, l.lent = false ∧ l.partner = out.sender) ∧
    (budget [g] [] []).pwb.loans = [] ++ g :: [] ∧ g.addition = none := by decide

theorem witness_LendingPledgesAndTakes_takes :
    let take := loanTakeFrame 5 3 9 12
    let void := loanTakeFrame 5 3 9 3
    let add := loanTakeFrame 6 3 10 8
    let late := loanTakeFrame 8 3 11 4
    let none_ := loanTakeFrame 5 3 99 12
    (∀ x ∈ [take, void, add, late, none_], (heard x lender).takeRx 6 .line = some (x, none, lender)) ∧
    (take.num 0 2, void.num 0 2, add.num 0 2, late.num 0 2) = (12, 3, 8, 4) ∧
    (∀ l ∈ lender.pwb.loans, l.lent = true ∧ l.partner = none_.sender →
      l.pledge ≠ none_.keyField 5 8) := by decide

theorem witness_LendingPledgesAndTakes_ends :
    let dec := loanDeclineFrame 5 3 9
    let off := loanOfferFrame 3 5 1 12 9
    (heard dec lender).takeRx 7 .line = some (dec, none, lender) ∧
    (lender.loan? true dec.sender (dec.keyField 5 8)).isSome = true ∧ lender.loan? true 5 99 = none ∧
    takeFirst (fun x => x.frame.kind == 5) (reported off false lender).lif.reports =
      some (⟨0, off, false⟩, []) ∧
    (lender.pwb.loans.find? (fun l => l.lent && l.offerFrame == some 0)).isSome = true ∧
    (lender.pwb.loans.find? (fun l => l.lent && l.partner == 6 && l.state != .recalled)).map Loan.deadline =
      some (some 2000000) := by decide

theorem witness_VoidsRecallsAndReturns :
    let void := loanVoidFrame 2 3 5
    let called := loanRecallFrame 2 3 5 8
    let ret := loanReturnFrame 8 3 11 8
    let early := loanReturnFrame 5 3 9 12
    lender.powered = true ∧ (heard void lender).takeRx 8 .line = some (void, none, lender) ∧
    (lender.loan? false void.sender (void.keyField 5 8)).isSome = true ∧ live.loan? false 2 5 = none ∧
    (heard called lender).takeRx 2 .line = some (called, none, lender) ∧
    (lender.loan? false called.sender (called.keyField 5 8)).map Loan.amount = some 8 ∧
    (heard ret lender).takeRx 3 .line = some (ret, none, lender) ∧
    (lender.loan? true ret.sender (ret.keyField 5 8)).map Loan.state = some .recalled ∧
    (heard early lender).takeRx 3 .line = some (early, none, lender) ∧
    (lender.loan? true early.sender (early.keyField 5 8)).map Loan.state = some .pledged ∧
    (lender.pwb.loans.find? (fun l => l.lent && l.partner == 8 && l.state == .recalled)).map Loan.deadline =
      some (some 30000000) := by decide

/-- A station whose head demand of 32 A has asked for 12 A. -/
def asking (offers : List Offer) : State :=
  let s := budget [] [⟨1, .energise, 3, 32, true, []⟩] [⟨7, 140, 1⟩]
  { s with pwb := { s.pwb with collection := some ⟨1, 12, 0, 1, some 300000, offers⟩ } }

theorem witness_AskingCollectsAndTakes :
    let f := loanAskFrame 3 1 12
    let o := loanOfferFrame 2 3 1 8 5
    let stale := loanOfferFrame 2 3 2 8 5
    let t := loanTakeFrame 3 2 5 4
    (∀ sent ∈ [true, false], takeFirst (fun x => x.frame.kind == 4) (reported f sent (asking [])).lif.reports =
      some (⟨0, f, sent⟩, [])) ∧ (asking []).powered = true ∧
    (asking []).pwb.demands.map Demand.id = [1] ∧
    (heard o (asking [])).takeRx 5 .line = some (o, none, asking []) ∧ o.keyField 5 8 = 1 ∧
    (heard stale (asking [])).takeRx 5 .line = some (stale, none, asking []) ∧ stale.keyField 5 8 ≠ 1 ∧
    12 ≤ ([⟨2, 8, 5⟩, ⟨7, 4, 9⟩].map Offer.amount).sum ∧
    ((asking [⟨2, 12, 5⟩]).load : Int) ≤ (asking [⟨2, 12, 5⟩]).ceiling ∧
    (asking [⟨2, 12, 5⟩]).pwb.collection = some ⟨1, 12, 0, 1, some 300000, [⟨2, 12, 5⟩]⟩ ∧ 11 < 12 ∧
    takeFirst (fun x => x.frame.kind == 6) (reported t false lender).lif.reports = some (⟨0, t, false⟩, []) ∧
    (lender.loan? false (t.keyField 0 5) (t.keyField 5 8)).map Loan.amount = some 8 ∧
    (t.num 0 2 < 8 ∧ 8 ≤ (loanTakeFrame 3 2 5 8).num 0 2) := by decide

/-- A close with a stale record of lender 2, a record of lender 5 and offers of 2, 5 and 7: short of its
ask, enough for it, and with the asking demand gone. -/
theorem witness_AskingCollectsAndTakes_close :
    let loans : List Loan := [⟨2, false, 8, .active, 4, none, none, none⟩,
      ⟨5, false, 8, .active, 6, none, none, none⟩]
    let s (a b : Nat) : State :=
      let x := asking [⟨2, 4, 5⟩, ⟨5, a, 6⟩, ⟨7, b, 9⟩]
      { x with pwb := { x.pwb with loans := loans } }
    let gone : State := { s 4 4 with pwb := { (s 4 4).pwb with demands := [⟨2, .energise, 3, 32, true, []⟩] } }
    (∀ x ∈ [s 4 4, s 4 3, gone], x.powered = true ∧
      (x.pwb.collection.map fun c => (c.closeAt, decide ((c.offers.map Offer.lender).Nodup))) =
        some (some 300000, true) ∧
      x.pwb.loans.Pairwise (fun a b => a.lent = b.lent → a.partner ≠ b.partner)) ∧
    (s 4 4).pwb.demands.map Demand.id = [1] ∧ gone.pwb.demands.map Demand.id = [2] ∧
    ((after .collectionClose (s 4 4)).pwb.loans.map fun l => (l.partner, l.amount, l.pledge)) =
      [(5, 12, 6), (2, 4, 5), (7, 4, 9)] ∧
    (after .collectionClose (s 4 3)).hasFlag .askShort = true ∧
    (after .collectionClose (s 4 3)).lif.tx.map TxFrame.frame =
      [loanDeclineFrame 3 2 5, loanDeclineFrame 3 5 6, loanDeclineFrame 3 7 9] := by decide

/-- The moment of the change that a notice of these tests tells. -/
def entry : FinalMark := ⟨0, ⟨1715100000, 0⟩⟩

/-- Occupancy 6 at point 3 with one notice outstanding. -/
def noticed (k : NoticeKind) (st : OccState) (ac : AccountState) (o : OutletState) (ch : Option Nat) : State :=
  { live with
    occ := { Occ.cold with
      records := [{ stay 6 7 st with account := ⟨0, 20000, 0, ac, none, false⟩ }], notices := [⟨k, 6, entry⟩] }
    spc := { live.spc with points := [pt 3 1 false o ch, pt 7 2 false .off none] } }

theorem witness_NoticesActOnOutletAndTap :
    let a := noticed .alongside .alongside .open_ .off none
    let b := noticed .alongside .alongside .barred .off (some 6)
    let w := noticed .alongside .alongside .open_ .on (some 2)
    let d := noticed .departing .departing .open_ .on (some 6)
    let c := noticed .barred .alongside .barred .shed (some 6)
    let u := noticed .unbarred .alongside .open_ .heldOff (some 6)
    (∀ s ∈ [a, b, w, d, c, u], s.powered = true ∧ s.lif.state ≠ .unconfigured ∧ (s.occ? 6).isSome = true ∧
      s.berthPoint 7 = some 3 ∧ (s.point? 3).isSome = true ∧ s.pwb.demands = [] ∧ s.pwb.shed = []) ∧
    takeFirst (fun x => x.occ == 6) a.occ.notices = some (⟨.alongside, 6, entry⟩, []) ∧
    takeFirst (fun x => x.occ == 6) d.occ.notices = some (⟨.departing, 6, entry⟩, []) ∧
    takeFirst (fun x => x.occ == 6) c.occ.notices = some (⟨.barred, 6, entry⟩, []) ∧
    takeFirst (fun x => x.occ == 6) u.occ.notices = some (⟨.unbarred, 6, entry⟩, []) ∧
    a.postDown 3 = false ∧ (((⟨1, false, true⟩ : Profile).figure : Int) ≤ a.ceiling - a.load) ∧
    ((after (.alongsideNotice 6) a).point? 3).map (fun p => (p.outlet, p.tapOpen)) = some (.on, true) ∧
    ((after (.alongsideNotice 6) b).point? 3).map (fun p => p.outlet) = some .heldOff ∧
    ((after (.alongsideNotice 6) w).point? 3).map (fun p => p.arrivals) = some [6] := by decide

/-- The mark of a departure is its moment of entry, and an account barred at an OFF outlet holds it off. -/
theorem witness_NoticesActOnOutletAndTap_marks :
    let d := noticed .departing .departing .open_ .on (some 6)
    let c := noticed .barred .alongside .barred .off (some 6)
    ((after (.departingNotice 6) d).point? 3).map (fun p => (p.outlet, p.finalMark)) = some (.off, some entry) ∧
    (c.demandQueued 3 = false ∧ (c.point? 3).map Point.outlet = some .off) ∧
    ((after (.barredNotice 6) c).point? 3).map Point.outlet = some .heldOff := by decide

/-- Occupancy 6 at point 3, drawing 100 A of 160 A, with point 7's demand of 120 A queued or shed. -/
def crowding (k : NoticeKind) (st : OccState) (ac : AccountState) (o : OutletState) (d : List Demand)
    (shed : Bool) : State :=
  let s := noticed k st ac o (some 6)
  { s with
    spc := { s.spc with points := [{ pt 3 1 false o (some 6) with
      raisePending := if o = .on then some ⟨2, false, true⟩ else none },
      pt 7 2 false (if shed then .shed else .off) none] }
    pwb := { Pwb.start with
      demands := d
      energised := if o = .on then [⟨3, 100, 1⟩] else [⟨9, 50, 1⟩]
      shed := if shed then [⟨7, 120, 2⟩] else [] } }

/-- Both outlets with point 3's raise, and what waits and is shed. -/
def bothOutlets (s : State) : List (OutletState × RaiseOutcome) × List Nat × List Nat :=
  (s.spc.points.map fun p => (p.outlet, p.raiseLast), s.pwb.demands.map Demand.source, s.pwb.shed.map OutletLoad.point)

/-- An outlet that departs or is barred leaves the queue, its raise ends BUDGET, and the fall of G brings back
what was shed or serves what waits (R55, R56, R57, R79, R80, R98). -/
theorem witness_NoticesActOnOutletAndTap_goesOn :
    let raise_ : Demand := ⟨1, .raise, 3, 16, false, []⟩
    let next : Demand := ⟨2, .energise, 7, 120, false, []⟩
    let d (l : List Demand) (b : Bool) := crowding .departing .departing .open_ .on l b
    (∀ s ∈ [d [raise_] true, d [raise_, next] false], s.powered = true ∧ s.lif.state ≠ .unconfigured ∧
      takeFirst (fun x => x.occ == 6) s.occ.notices = some (⟨.departing, 6, entry⟩, []) ∧
      (s.point? 3).map Point.charging = some (some 6) ∧ s.berthPoint 7 = some 3 ∧
      s.pwb.demands ≠ []) ∧
    bothOutlets (after (.departingNotice 6) (d [raise_] true)) = ([(.off, .budget), (.on, .none)], [], []) ∧
    bothOutlets (after (.departingNotice 6) (d [] true)) = ([(.off, .budget), (.on, .none)], [], []) ∧
    bothOutlets (after (.departingNotice 6) (d [raise_, next] false)) = ([(.off, .budget), (.on, .none)], [], []) := by
  decide

theorem witness_NoticesActOnOutletAndTap_barred :
    let raise_ : Demand := ⟨1, .raise, 3, 16, false, []⟩
    let own : Demand := ⟨1, .energise, 3, 16, false, []⟩
    let next : Demand := ⟨2, .energise, 7, 120, false, []⟩
    let c (l : List Demand) (o : OutletState) := crowding .barred .alongside .barred o l false
    (c [own, next] .off).demandQueued 3 = true ∧
    bothOutlets (after (.barredNotice 6) (c [own] .off)) = ([(.heldOff, .none), (.off, .none)], [], []) ∧
    bothOutlets (after (.barredNotice 6) (c [next, own] .off)) = ([(.heldOff, .none), (.off, .none)], [7], []) ∧
    bothOutlets (after (.barredNotice 6) (c [raise_, next] .on)) = ([(.heldOff, .budget), (.on, .none)], [], []) := by
  decide

/-- Barring a DEPARTING occupancy commands nothing (R80). -/
theorem test_barred_departing :
    let c := noticed .barred .departing .barred .off (some 6)
    ((after (.barredNotice 6) c).point? 3).map Point.outlet = some .off ∧ (after (.barredNotice 6) c).occ.notices = [] := by
  decide

/-- An arrival behind a queue of one demand, and one at a full queue. -/
theorem witness_NoticesActOnOutletAndTap_queue :
    let a := noticed .alongside .alongside .open_ .off none
    let q (n : Nat) : State := { a with pwb := { a.pwb with
      demands := List.replicate n ⟨1, .pump, 1, 200, true, []⟩ } }
    (∀ n ∈ [1, 8], (q n).powered = true ∧ (∀ d ∈ (q n).pwb.demands, d.kind = .pump ∨ d.source ≠ 3) ∧
      takeFirst (fun x => x.occ == 6) (q n).occ.notices = some (⟨.alongside, 6, entry⟩, [])) ∧
    ((after (.alongsideNotice 6) (q 1)).pwb.demands.map Demand.kind = [.pump, .energise]) ∧
    ((after (.alongsideNotice 6) (q 8)).point? 3).map Point.outlet = some .shed := by decide

def poll (all : Bool) : OpenPoll := ⟨2, 0, 1, 0, 0, false, false, all⟩

/-- A good report of post 2 (side A is point 3). -/
def postReport (energyA : Nat) : PostReport :=
  let r : PostReport := ⟨2#8, BitVec.ofNat 32 energyA, 0, 0, 0, 0#8, 0#8⟩
  { r with check := 0#8 - (reportBytes r).foldl (fun a b => a + b) 0#8 }

def polling (all : Bool) (st : PostState) (bad : Nat) : State := { live with spc := { live.spc with
  poll := some (poll all)
  posts := [⟨2, st, bad, if st = .fault then some 5 else none⟩]
  points := [pt 3 1 false .on none] } }

theorem witness_PollsAndPostFaults :
    let s := polling false .good 4
    let late : State := { s with elapsed := 50001 }
    live.powered = true ∧ live.spc.poll = none ∧ live.spc.toPoll = [] ∧ live.lif.state ≠ .unconfigured ∧
    live.configuredPosts = [2, 4] ∧ unset.lif.state = .unconfigured ∧
    ({ live with spc := { live.spc with points := [] } } : State).configuredPosts = [] ∧
    live.point? 4 = none ∧
    ((noticed .alongside .alongside .open_ .on (some 6)).charged 3).map Occupancy.profile =
      some (some ⟨1, false, true⟩) ∧
    s.spc.poll = some (poll false) ∧ s.post? 2 = some ⟨2, .good, 4, none⟩ ∧ s.elapsed ≤ 0 + 50000 ∧
    reportCheckOk { postReport 5 with check := 0 } = false ∧ 0 + 50000 < late.elapsed ∧
    (polling true .good 0).spc.poll.map OpenPoll.allOff = some true ∧
    (polling false .fault 5).post? 2 = some ⟨2, .fault, 5, some 5⟩ ∧ live.pwb.demands = [] ∧
    live.pwb.shed = [] ∧
    (let f := polling false .fault 5
     let one : State := { f with
       spc := { f.spc with points := [pt 3 1 false .shed none, pt 4 1 false .on none] }
       pwb := { f.pwb with energised := [⟨4, 150, 1⟩], shed := [⟨3, 16, 2⟩] } }
     (∀ e ∈ one.pwb.shed, (e.point = 2 * 2 - 1 ∨ e.point = 2 * 2) ∧
       (one.point? e.point).map Point.outlet = some .shed) ∧
     ((after (.faultGraceEnd 2) one).spc.points.map fun p => (p.outlet, p.interval)) =
       [(.faultOff, 0), (.faultOff, 0)]) ∧
    ((after .pollTimeout s).post? 2).map Post.state = some .fault ∧
    ((after (.faultGraceEnd 2) (polling false .fault 5)).point? 3).map Point.outlet = some .faultOff := by
  decide

/-- A post that becomes DOWN takes the outlet with a demand queued too, and what was shed elsewhere comes back
(R85, R75, R55). -/
theorem witness_PollsAndPostFaults_goesOn :
    let f := polling false .fault 5
    let s : State := { f with
      spc := { f.spc with points := [{ pt 3 1 false .on none with raisePending := some ⟨2, false, true⟩ },
        pt 4 1 false .off none, pt 7 2 false .shed none] }
      pwb := { f.pwb with
        demands := [⟨1, .energise, 4, 90, false, []⟩, ⟨2, .raise, 3, 16, false, []⟩]
        energised := [⟨3, 100, 1⟩]
        shed := [⟨7, 160, 2⟩] } }
    let t := after (.faultGraceEnd 2) s
    s.powered = true ∧ s.post? 2 = some ⟨2, .fault, 5, some 5⟩ ∧ s.demandQueued 4 = true ∧
    (t.spc.points.map fun p => (p.outlet, p.raiseLast)) =
      [(.faultOff, .budget), (.faultOff, .none), (.on, .none)] ∧
    t.pwb.demands = [] ∧ t.pwb.shed = [] := by decide

/-- 11: the bytes of a report after noise end the poll; 19 of them leave it unanswered. The next poll goes to
the next post, and after the last the cycle ends. -/
theorem witness_PollsAndPostFaults_next :
    let bytes := reportBytes (postReport 0x01020304)
    let s : State := { live with spc := { live.spc with toPoll := [4] } }
    0x5A#8 ∉ [0xA5#8, 0#8] ∧ bytes.take 6 = [0x5A#8, 2#8, 1#8, 2#8, 3#8, 4#8] ∧
    decodePoll ([0xA5#8, 0#8] ++ bytes ++ [7#8]) = .postReport (postReport 0x01020304) ∧
    decodePoll (0#8 :: bytes.take 19) = .pollTimeout ∧
    s.nextPoll.spc.poll.map OpenPoll.post = some 4 ∧ s.nextPoll.spc.toPoll = [] ∧
    live.nextPoll.spc.poll = none := by decide

theorem witness_GoodReportsMeter :
    let off : State := { polling false .good 1 with spc := { (polling false .good 1).spc with
      points := [pt 3 1 false .off none] } }
    off.powered = true ∧ off.spc.poll = some (poll false) ∧ off.elapsed ≤ 0 + 50000 ∧
    (postReport 5).post.toNat = 2 ∧ reportCheckOk (postReport 5) = true ∧
    off.post? 2 = some ⟨2, .good, 1, none⟩ ∧ off.point? 3 = some (pt 3 1 false .off none) ∧
    off.point? 4 = none ∧ off.spc.toPoll = [] := by decide

/-- A post in FAULT or DOWN is GOOD again, and its FAULT-OFF outlet goes to the state of each occupancy. -/
theorem witness_GoodReportsMeter_returns :
    let back (k : NoticeKind) (st : OccState) (a : AccountState) (n : Option Nat) (d : Nat) (q : PostState) :
        State :=
      let s := noticed k st a .faultOff n
      { s with
        spc := { s.spc with posts := [⟨2, q, 5, some 5⟩] }
        pwb := { s.pwb with demands := List.replicate d ⟨1, .pump, 1, 200, true, []⟩ } }
    let outlet (s : State) : Option OutletState := ((s.postGood 2).point? 3).map Point.outlet
    let open_ (d : Nat) := back .alongside .alongside .open_ (some 6) d .fault
    (∀ d ∈ [0, 1, 8], (open_ d).post? 2 = some ⟨2, .fault, 5, some 5⟩ ∧
      ((open_ d).point? 3).map Point.outlet = some .faultOff ∧ (open_ d).postDown 3 = false ∧
      ((open_ d).charged 3).map (fun r => (r.state, r.profile)) = some (.alongside, some ⟨1, false, true⟩) ∧
      (∀ x ∈ (open_ d).pwb.demands, x.kind = .pump ∨ x.source ≠ 3) ∧ (open_ d).pwb.shed = [] ∧
      (((⟨1, false, true⟩ : Profile).figure : Int) ≤ (open_ d).ceiling - (open_ d).load)) ∧
    outlet (open_ 0) = some .on ∧ outlet (open_ 1) = some .off ∧ outlet (open_ 8) = some .shed ∧
    outlet (back .barred .alongside .barred (some 6) 0 .down) = some .heldOff ∧
    outlet (back .departing .departing .open_ (some 6) 0 .down) = some .off ∧
    outlet (back .alongside .alongside .open_ none 0 .down) = some .off ∧
    (((open_ 0).postGood 2).post? 2) = some ⟨2, .good, 0, none⟩ ∧
    outlet (back .alongside .alongside .open_ none 0 .good) = some .faultOff := by decide

/-- A trip ends a raise and brings back what was shed; a FAULT-OFF outlet that comes back is served before the
shed list (R92, R85, R55, R57). -/
theorem witness_GoodReportsMeter_goesOn :
    let s := crowding .alongside .alongside .open_ .on [⟨1, .raise, 3, 16, false, []⟩] true
    let b : State := { crowding .alongside .alongside .open_ .faultOff [] true with
      settings := { live.settings with baseShare := 180 } }
    (s.point? 3).map Point.outlet = some .on ∧ (s.point? 3).map Point.tripAck = some false ∧
    bothOutlets (s.takeTrip 3 true false) = ([(.tripped, .budget), (.on, .none)], [], []) ∧
    b.pwb.demands = [] ∧ (b.point? 3).map Point.outlet = some .faultOff ∧ b.postDown 3 = false ∧
    bothOutlets (b.returnOutlet 3) = ([(.on, .none), (.shed, .none)], [], [7]) := by decide

/-- Point 3 with its bases, charging occupancy 6, which is DEPARTING. -/
def metering (o : OutletState) (f : Nat) (tap : Bool) : State :=
  let s := noticed .departing .departing .open_ o (some 6)
  { s with
    elapsed := 2000000
    spc := { s.spc with
      points := [{ pt 3 1 false o (some 6) with
        energyBase := some 4294967290, waterBase := some 0, lastAccept := some 0, interval := f,
        tapMark := tap, finalMark := some ⟨1, ⟨1715103000, 0⟩⟩ }]
      links := [⟨6, 3, 0, 0, 0, 0⟩] } }

theorem witness_GoodReportsMeter_charges :
    let s := metering .on 16 true
    let p (f : Nat) : Point := { pt 3 1 false .on (some 6) with
      energyBase := some 4294967290, waterBase := some 0, lastAccept := some 0, interval := f,
      tapMark := true, finalMark := some ⟨1, ⟨1715103000, 0⟩⟩ }
    s.point? 3 = some (p 16) ∧ (metering .on 0 true).point? 3 = some (p 0) ∧
    (4294967290 < 4294967296 ∧ 9 < 4294967296) ∧ ¬ 4294967290 ≤ 9 ∧
    9 + 4294967296 - 4294967290 = 15 ∧ (15 ≤ 5 + 10 ∧ (5 - 1) * 3600000 < 16 * 250 * 2000 * 2) ∧
    ¬ (5 * 3600000 < 16 * 250 * 2000 * 2) ∧ s.link? 6 = some ⟨6, 3, 0, 0, 0, 0⟩ ∧
    (0 < 200 ∧ 200 ≤ 200 ∧ 200 < 201) ∧ ((metering .on 16 false).point? 3).map Point.tapMark = some false ∧
    (s.charged 3).map (fun r => (r.state, r.closureDue)) = some (.departing, none) ∧ (1 ≤ 1 ∧ 1 < 2) ∧
    s.pwb.demands = [] ∧ s.pwb.shed = [] ∧ (p 16).raisePending = none ∧
    ((metering .tripped 0 true).point? 3).map Point.outlet = some .tripped ∧
    ((metering .off 0 true).point? 3).map Point.outlet = some .off := by decide

/-- Point 3 charged to occupancy 6 with occupancy 7 waiting, retained or to come next. -/
def waiting (a : Occupancy) (ret : List RetainedFinal) : State :=
  let s := metering .off 16 true
  { s with
    occ := { s.occ with records := [{ stay 6 7 .departing with holds := [hold 42 9 none] }, a] }
    spc := { s.spc with points := s.spc.points.map fun p => { p with arrivals := [7], retained := ret } } }

theorem witness_GoodReportsMeter_readings :
    let d : Occupancy := { stay 7 7 .departing with arrival := 19840, awaiting := true }
    let b : Occupancy := { stay 7 7 .alongside with
      arrival := 19840, account := ⟨0, 0, 0, .barred, none, false⟩ }
    let m : FinalMark := ⟨1, ⟨1715103000, 0⟩⟩
    let r := waiting d [⟨7, m⟩]
    (∀ x ∈ [waiting d [], waiting b []], (x.point? 3).map (fun p => (p.finalMark, p.arrivals)) =
        some (some m, [7]) ∧ (x.charged 3).map (fun r => (r.number, r.state, r.closureDue)) =
        some (6, .departing, none) ∧ (x.occ? 7).isSome = true ∧ 7 ≠ 6) ∧
    (((waiting b []).takeFinal 3 2).point? 3).map (fun p => (p.charging, p.outlet)) = some (some 7, .heldOff) ∧
    r.occ? 7 = some d ∧ (d.state = .departing ∧ d.closureDue = none ∧ d.holds = []) ∧
    (r.point? 3).map (fun p => p.retained.map fun x => decide (x.mark.moment < 2)) = some [true] ∧
    (r.point? 3).map (fun p => p.retained.map fun x => decide (x.mark.moment < 1)) = some [false] ∧
    (r.takeRetained 3 2).occ? 7 = none ∧ ((r.takeRetained 3 2).point? 3).map Point.arrivals = some [] := by
  decide

/-- Who holds point 3, who waits there, its outlet and whether it has a final-reading mark. -/
def atPoint3 (s : State) : Option (Option Nat × List Nat × OutletState × Bool) :=
  (s.point? 3).map fun p => (p.charging, p.arrivals, p.outlet, p.finalMark.isSome)

/-- Stay 7 waits at point 3 for stay 6 to be read, held back since a start or not. -/
def turning (st : StationState) (held : List Nat) : State :=
  let w := waiting (stay 7 7 .alongside) []
  { w with
    lif := { w.lif with state := st }
    spc := { w.spc with heldBack := held } }

theorem witness_GoodReportsMeter_turns :
    (∀ s ∈ [turning .onLine [], turning .lineOff [7]], (s.occ? 7).map (fun r => (r.state, r.account.state)) =
      some (.alongside, .open_) ∧ s.postDown 3 = false ∧ s.pwb.demands = [] ∧ s.pwb.shed = []) ∧
    atPoint3 ((turning .onLine []).takeFinal 3 2) = some (some 7, [], .on, false) ∧
    atPoint3 ((turning .lineOff [7]).takeFinal 3 2) = some (some 7, [], .on, false) := by decide

theorem witness_GoodReportsMeter_heldBack :
    atPoint3 ((turning .joining [7]).takeFinal 3 2) = some (some 7, [], .off, false) ∧
    (((turning .joining [7]).takeFinal 3 2).point? 3).map Point.tapOpen = some true := by decide

theorem witness_GoodReportsMeter_removed :
    atPoint3 ((turning .onLine []).removeOcc 6) = some (none, [7], .off, false) ∧
    atPoint3 (((turning .onLine []).removeOcc 6).takeFinal 3 1) = some (some 7, [], .on, false) := by decide

/-- A poll sent while the outlet was TRIPPED acknowledges the trip after a departure too (R92). -/
theorem test_trip_acknowledged :
    ((State.takeTrip 3 false true (noticed .departing .departing .open_ .off (some 6))).point? 3).map
      (fun p => (p.outlet, p.tripAck)) = some (.off, true) := by decide

/-- Occupancy 14 at the three-phase point 3, its outlet as given and drawing as its profile says. -/
def profiled (o : OutletState) (q : Profile) (d : List Demand) : State := { live with
  occ := { Occ.cold with records := [{ stay 14 7 .alongside with profile := some q }] }
  pwb := { Pwb.start with
    demands := d
    energised := if o = .on then [⟨3, q.figure, 1⟩] else []
    shed := if o = .shed then [⟨3, q.figure, 1⟩] else [] }
  settings := { live.settings with baseShare := 200 }
  spc := { live.spc with points := [pt 3 3 true o (some 14)] } }

theorem witness_ProfileSetAndOutletReset :
    let s := profiled .on ⟨1, false, true⟩ []
    let low := profiled .on ⟨3, true, true⟩ []
    let d : Demand := ⟨1, .pump, 1, 16, false, []⟩
    let queued := profiled .on ⟨1, false, true⟩ [d]
    let full := profiled .on ⟨1, false, true⟩ (List.replicate 8 d)
    let away := stays [stay 14 7 .booked]
    let trip : State := { live with spc := { live.spc with
      points := [{ pt 3 1 false .tripped none with tripAck := true }] } }
    (∀ x ∈ [s, low, queued, full, away], Takes 43 x) ∧ s.occ? 13 = none ∧ s.berthPoint 7 = some 3 ∧
    (stays [stay 14 20 .booked]).berthPoint 20 = none ∧ (s.point? 3).map Point.maxRating = some 3 ∧
    ((⟨3, true, true⟩ : Profile).figure = 189 ∧ (⟨1, false, true⟩ : Profile).figure = 16) ∧
    ((189 - 16 : Nat) : Int) ≤ s.ceiling - s.load ∧
    ((away.occ? 14).map Occupancy.state ≠ some .alongside) ∧ 8 ≤ full.pwb.demands.length ∧
    queued.pwb.demands.length < 8 ∧ s.pwb.demands = [] ∧ s.pwb.shed = [] ∧
    (answer (.profileSet 14 3 1 15) s).1 = .accepted ∧
    (answer (.profileSet 14 1 0 15) low).1 = .done ∧ (after (.profileSet 14 1 0 15) low).load + 173 = low.load ∧
    answer (.profileSet 14 4 15 15) s = (.refused, some .range, [⟨1, 15⟩, ⟨1, 0⟩, ⟨1, 0⟩]) ∧
    Takes 44 trip ∧ trip.point? 32 = none ∧
    (trip.point? 3).map (fun p => (p.outlet, p.tripAck)) = some (.tripped, true) ∧
    trip.charged 3 = none ∧ (after (.outletReset 3) trip).pnp.answer.result = .done := by decide

/-- A lowered figure lets the RAISE of another point's occupancy fit. -/
theorem witness_ProfileSetAndOutletReset_raise :
    let low := profiled .on ⟨3, true, true⟩ [⟨1, .raise, 7, 16, false, []⟩]
    let s : State := { low with
      occ := { low.occ with records := [stay 5 12 .alongside] ++ low.occ.records }
      spc := { low.spc with points := low.spc.points ++
        [{ pt 7 2 false .on (some 5) with raisePending := some ⟨2, false, true⟩ }] } }
    let t := after (.profileSet 14 1 0 15) s
    Takes 43 s ∧ (s.point? 7).map (fun x => (x.charging, x.raisePending.isSome)) = some (some 5, true) ∧
    t.occ.records.map Occupancy.profile = [some ⟨2, false, true⟩, some ⟨1, false, true⟩] := by decide

/-- A lowered figure brings back what was shed, or lets the head be served (R97, R55, R57); a raise behind a
shed list, and a reset outlet at an empty, a short and a full queue (R98, R93, R56). -/
theorem witness_ProfileSetAndOutletReset_goesOn :
    let low := profiled .on ⟨3, true, true⟩ [⟨1, .energise, 7, 90, false, []⟩]
    let more (o : OutletState) (l : List OutletLoad) (s : State) : State := { s with
      spc := { s.spc with points := s.spc.points ++ [pt 7 2 false o none] }
      pwb := { s.pwb with shed := s.pwb.shed ++ l } }
    let a := more .shed [⟨7, 150, 2⟩] (profiled .on ⟨3, true, true⟩ [])
    let b := more .off [] low
    let c := more .shed [⟨7, 190, 2⟩] (profiled .on ⟨1, false, true⟩ [])
    let r (n : Nat) : State :=
      let s := profiled .tripped ⟨1, false, true⟩ (List.replicate n ⟨1, .pump, 1, 300, true, []⟩)
      { s with spc := { s.spc with points := [{ pt 3 3 true .tripped (some 14) with tripAck := true }] } }
    let fig (s : State) : List (Nat × Nat) := s.pwb.energised.map fun e => (e.point, e.figure)
    (∀ x ∈ [a, b, c], Takes 43 x ∧ (x.point? 3).map Point.charging = some (some 14) ∧
      (∀ d ∈ x.pwb.demands, d.kind = .pump ∨ d.source ≠ 3) ∧ ∀ e ∈ x.pwb.shed, e.point ≠ 3) ∧
    (a.pwb.energised.find? fun e => e.point == 3).map OutletLoad.figure = some 189 ∧
    fig (after (.profileSet 14 1 0 15) a) = [(3, 16), (7, 150)] ∧
    fig (after (.profileSet 14 1 0 15) b) = [(3, 16), (7, 90)] ∧
    fig (after (.profileSet 14 2 15 15) c) = [(3, 32)] ∧ (after (.profileSet 14 2 15 15) c).pwb.shed = [⟨7, 190, 2⟩] ∧
    (∀ n ∈ [0, 1, 8], Takes 44 (r n) ∧ (r n).postDown 3 = false ∧ ((r n).charged 3).isSome = true ∧
      ((r n).point? 3).map (fun p => (p.outlet, p.tripAck)) = some (.tripped, true)) ∧
    ([0, 1, 8].map fun n => ((after (.outletReset 3) (r n)).point? 3).map Point.outlet) =
      [some .on, some .off, some .shed] := by decide

theorem witness_PumpAuthoriseBeginsTheSale :
    let d : Demand := ⟨1, .energise, 3, 32, false, []⟩
    let busy := budget [] [d] []
    let full : State := { live with fdc := { live.fdc with
      journal := (List.range 64).map fun n => record n true none (some 0) none } }
    let near : State := { live with fdc := { live.fdc with
      saleNo := 65535, journal := (List.range 59).map fun n => record (n + 1) true none (some 0) none } }
    let stop : State := { live with fdc := { live.fdc with emergency := true } }
    let off : State := { live with lif := { live.lif with state := .lineOff } }
    (∀ x ∈ [live, busy, full, near, stop, off], Takes 48 x) ∧
    ((1 = 1 ∨ 1 = 2) ∧ 100 ≤ 100 ∧ (1 = 2 ∨ (1 = 1 ∧ 1 ≤ card1 ∧ card1 ≤ 1099511627775))) ∧ ¬ 100 ≤ 99 ∧
    live.pump? 1 = some live.fdc.pump1 ∧ live.fdc.pump1.config = some pumpCfg ∧
    live.fdc.pump2.config = none ∧ live.fdc.pump1.sale = none ∧ live.fdc.emergency = false ∧
    stop.fdc.emergency = true ∧ (selling (sale .settling .released none none)).fdc.pump1.sale.isSome = true ∧
    off.lif.state ≠ .onLine ∧ 64 ≤ full.fdc.journal.length ∧
    8 ≤ (budget [] (List.replicate 8 d) []).pwb.demands.length ∧
    (near.fdc.saleNo ≤ 65535 ∧ ∀ r ∈ near.fdc.journal, r.number ≠ (65535 + 1) % 65536) ∧
    59 ≤ near.fdc.journal.length ∧ busy.pwb.demands ≠ [] ∧ live.pwb.demands = [] ∧
    (live.pwb.shed = [] ∧ ((16 : Nat) : Int) ≤ live.ceiling - live.load ∧
      ((16 : Nat) : Int) ≤ live.ownCeiling - live.pumpLoads) ∧ live.lif.tx.length < 12 := by decide

theorem witness_PumpRequestsActOnTheSale :
    (∀ st ∈ [SaleState.authorising, .authorised, .delivering, .suspended, .finishing, .settling],
      let x := sale st .held none none
      (selling x).pump? 1 = some { live.fdc.pump1 with sale := some x } ∧
      (∀ k ∈ [49, 50, 51], Takes k (selling x)) ∧
      ((selling x).pwb.shed = [] ∧ (selling x).pwb.demands = [])) ∧
    live.fdc.pump1.config = some pumpCfg ∧ live.fdc.emergency = false ∧ live.fdc.pump1.sale = none ∧
    live.pump? 2 = some live.fdc.pump2 ∧ live.fdc.pump2.config = none := by decide

/-- A sale at pump 1 of a load, with point 7 shed at 16 A and not yet brought back. -/
def sellingShed (x : Sale) (load : Nat) : State :=
  let s := selling x
  { s with
    spc := { s.spc with points := [pt 3 1 false .off none, pt 7 2 false .shed none] }
    fdc := { s.fdc with pump1 := { s.fdc.pump1 with config := some { pumpCfg with load := load } } }
    pwb := { s.pwb with shed := [⟨7, 16, 1⟩] } }

/-- Stopping an authorisation releases its load, of 0 A too, and the restore pass runs; a QUEUED demand that is
withdrawn has the next one examined (R110, R55, R57). -/
theorem witness_PumpRequestsActOnTheSale_goesOn :
    let x := sale .authorised .held none (some 2000000)
    let q : State := { selling (sale .authorising .queued none none) with
      pwb := { Pwb.start with demands := [⟨1, .pump, 1, 161, false, []⟩, ⟨2, .energise, 7, 32, false, []⟩] } }
    (∀ n ∈ [0, 16], Takes 51 (sellingShed x n) ∧ ((sellingShed x n).sale? 1).isSome = true) ∧ Takes 51 q ∧
    (∀ n ∈ [0, 16], ((after (.pumpStop 1) (sellingShed x n)).point? 7).map Point.outlet = some .on) ∧
    ((after (.pumpStop 1) q).point? 7).map Point.outlet = some .on ∧ (after (.pumpStop 1) q).pwb.demands = [] := by
  decide

theorem witness_PulsesAndNozzleEdges :
    (∀ st ∈ [SaleState.authorising, .authorised, .delivering, .suspended, .finishing, .settling],
      let x := sale st .held none none
      (selling x).powered = true ∧ (selling x).pump? 1 = some { live.fdc.pump1 with sale := some x } ∧
      x.pulses + 1 < 4294967296) ∧ (4294967295 + 1) % 4294967296 = 0 ∧
    live.pump? 1 = some live.fdc.pump1 ∧ live.fdc.pump1.sale = none ∧
    (31543 + 1) * 100 / 400 = 7886 ∧ (7885 + 50 < 7936 ∧ ¬ 7886 + 50 < 7936 ∧ 7886 < 7936 ∧ 7936 ≤ 7936) := by
  decide

theorem witness_SaleTimersAndEmergency :
    (∀ st ∈ [SaleState.authorised, .suspended, .finishing],
      let x := sale st .held none (some 2000000)
      (selling x).powered = true ∧ (selling x).pump? 1 = some { live.fdc.pump1 with sale := some x } ∧
      x.timer = some 2000000 ∧ (selling x).pwb.demands = [] ∧ (selling x).pwb.shed = []) ∧
    (let x : Sale := { sale .finishing .held (some card1) (some 2000000) with hold := some ⟨6, 57, 18⟩ }
     x.card.isSome = true ∧ (selling x).lif.state = .onLine ∧
     (lookupKey JournalRecord.number x.number (selling x).fdc.journal).isSome = true ∧
     x.number ∈ (selling x).fdc.journal.map JournalRecord.number) ∧
    (live.sale? 1 = none ∧ live.sale? 2 = none) ∧
    (selling (sale .delivering .held none none)).sale? 2 = none := by decide

/-- The timeout and the run-on's end release the load, of 0 A too, and the restore pass runs; an emergency press
acts at pump 1 and then at pump 2, whose QUEUED demand the first end may have served (R110, R116, R120, R55). -/
theorem witness_SaleTimersAndEmergency_goesOn :
    let a := sale .authorised .held none (some 2000000)
    let f := sale .finishing .held none (some 2000000)
    let b : Sale := { sale .authorising .queued none none with number := 212 }
    let both (x y : Sale) : State :=
      let s := sellingShed x 16
      { s with
        fdc := { s.fdc with pump2 := { s.fdc.pump1 with sale := some y } }
        pwb := { s.pwb with demands := [⟨1, .pump, 2, 150, false, []⟩] } }
    let e := after .emergencyPress (both a b)
    (∀ n ∈ [0, 16], (sellingShed a n).powered = true ∧ (sellingShed a n).pwb.shed ≠ [] ∧
      ((after (.authorisationTimeout 1) (sellingShed a n)).point? 7).map Point.outlet = some .on ∧
      ((after (.runOnEnd 1) (sellingShed f n)).point? 7).map Point.outlet = some .on ∧
      (∀ d ∈ (sellingShed f n).pwb.demands, d.kind ≠ .pump ∨ d.source ≠ 1)) ∧
    (both a b).powered = true ∧ ((both a b).sale? 2).map Sale.state = some .authorising ∧
    (e.fdc.pump1.last, e.fdc.pump2.last, e.fdc.emergency) = (.lapsed .emergency, .lapsed .emergency, true) ∧
    (e.point? 7).map Point.outlet = some .on ∧ e.pwb.demands = [] ∧
    ((after .emergencyPress (both { f with state := .suspended } b)).fdc.pump1.sale.map Sale.state) =
      some .finishing := by decide

/-- An ACCOUNT sale waiting for its answer, its ask 4 sent under note 0. -/
def holding (attempt : Nat) : State :=
  let s := selling { sale .authorising .queued (some card1) none with card := some card1 }
  { s with
    fdc := { s.fdc with pump1 := { s.fdc.pump1 with
      askSeq := 4, ask := some ⟨4, ⟨attempt, some 401000, 0⟩⟩ } }
    pwb := { s.pwb with demands := [⟨1, .pump, 1, 16, false, []⟩] } }

/-- An ACCOUNT sale in SETTLING, its SETTLE sent under note 0. -/
def settling (attempt : Nat) : State := selling { sale .settling .released (some card1) none with
  hold := some ⟨6, 57, 18⟩, settle := some ⟨attempt, some 401000, 0⟩ }

theorem witness_HoldAsksAndSettlements :
    let f := holdAskFrame 3 1 4 card1 15000
    let ok := holdOkFrame 6 3 1 4 57 18
    let no := holdRefusedFrame 6 3 1 4 .funds
    (∀ k ∈ [1, 2], (holding k).powered = true ∧ (holding k).pump? 1 = some (holding k).fdc.pump1 ∧
      (holding k).fdc.pump1.ask = some ⟨4, ⟨k, some 401000, 0⟩⟩ ∧
      (holding k).fdc.pump1.sale.map Sale.state = some .authorising) ∧
    (∀ sent ∈ [true, false], takeFirst (fun y => y.frame.kind == 9) (reported f sent (holding 1)).lif.reports =
      some (⟨0, f, sent⟩, [])) ∧
    ((holding 1).pwb.shed = [] ∧ ∀ d ∈ (holding 1).pwb.demands, d.kind = .pump ∧ d.source = 1) ∧
    (heard ok (holding 1)).takeRx 10 .line = some (ok, none, holding 1) ∧ ok.keyField 5 2 = 1 ∧
    ok.keyField 7 8 = 4 ∧ (ok.num 0 1, ok.num 1 1) = (1, 0) ∧
    (heard no (holding 1)).takeRx 10 .line = some (no, none, holding 1) ∧
    (no.num 0 1, no.num 1 1) = (2, 3) := by decide

/-- The second attempt unanswered, or a refusal: the demand is withdrawn and the next one served (R107, R110). -/
theorem witness_HoldAsksAndSettlements_goesOn :
    let no := holdRefusedFrame 6 3 1 4 .funds
    let f := holdAskFrame 3 1 4 card1 15000
    let s : State := { holding 2 with pwb := { Pwb.start with
      demands := [⟨1, .pump, 1, 161, false, []⟩, ⟨2, .energise, 7, 32, false, []⟩] } }
    (heard no s).takeRx 10 .line = some (no, none, s) ∧
    takeFirst (fun y => y.frame.kind == 9) (reported f false s).lif.reports = some (⟨0, f, false⟩, []) ∧
    (∀ t ∈ [after (.holdAnswerFrame .line) (heard no s), after (.holdAskWaitEnd 1) s,
        after .holdAskReport (reported f false s)],
      t.fdc.pump1.sale = none ∧ (t.point? 7).map Point.outlet = some .on ∧ t.pwb.demands = []) := by decide

theorem witness_HoldAsksAndSettlements_settles :
    let g := settleFrame 3 6 57 15000 18 211
    (∀ k ∈ [1, 2], (settling k).powered = true ∧ (settling k).pump? 1 = some (settling k).fdc.pump1 ∧
      ((settling k).sale? 1).map (fun x => (x.state, x.settle, x.hold)) =
        some (.settling, some ⟨k, some 401000, 0⟩, some ⟨6, 57, 18⟩)) ∧
    (∀ sent ∈ [true, false], takeFirst (fun y => y.frame.kind == 11) (reported g sent (settling 1)).lif.reports =
      some (⟨0, g, sent⟩, [])) := by decide

/-- A later OK of the closed ask 4 gives its hold back by a SETTLE of amount 0. -/
theorem witness_HoldAsksAndSettlements_answers :
    let second := holdOkFrame 4 3 1 4 7 20
    let s : State := { live with fdc := { live.fdc with pump1 := { live.fdc.pump1 with
      closedAsk := some ⟨4, 211, some ⟨6, 57, 18⟩⟩ } } }
    (heard second s).takeRx 10 .line = some (second, none, s) ∧ s.fdc.pump1.ask = none ∧
    ((6, 57) ≠ (second.sender, second.num 2 1)) ∧ s.lif.state = .onLine ∧
    (after (.holdAnswerFrame .line) (heard second s)).lif.tx.map TxFrame.frame = [settleFrame 3 4 7 0 20 211] ∧
    (∀ r ∈ [SettleResult.applied, .lateApplied, .unknown],
      let a := settleAnswerFrame 6 3 57 r
      (heard a (settling 1)).takeRx 12 .line = some (a, none, settling 1) ∧ a.sender = 6 ∧
      a.keyField 5 8 = 57 ∧ (after (.settleAnswerFrame .line) (heard a (settling 1))).fdc.pump1.sale = none) := by
  decide

/-- A frame on the wire. -/
def wire (f : Frame) : CanFrame := ⟨true, false, f.ident, f.data⟩

theorem witness_FramesHeardAndSent :
    let f := bidFrame 4 32 tagA
    let full : State := { live with lif := { live.lif with rx := List.replicate 16 f } }
    let t : TxFrame := ⟨5, bidFrame 3 32 tagA⟩
    let s : State := { live with lif := { live.lif with tx := [t], serial := 6 } }
    let tried : State := { s with lif := { s.lif with attempt := some 5 } }
    let worn : State := { tried with lif := { tried.lif with failed := 127 } }
    let packed : State := { live with lif := { live.lif with
      tx := (List.range 12).map (fun n => ⟨n, assignFrame 3 ⟨6, 77 + n⟩ 1 7 1⟩), serial := 12 } }
    live.powered = true ∧ kindLength f.kind = some f.data.length ∧ f.sender ≠ live.me ∧
    f.addressee = none ∧ (live.lif.state = .onLine ∧ 2 ≤ f.kind ∧ f.kind ≤ 18) ∧
    (wire f).extended = true ∧ (wire f).remote = false ∧ (bidFrame 3 0 tagA).sender = live.me ∧
    (loanDeclineFrame 4 9 5).addressee = some 9 ∧ live.lif.rx.length < 16 ∧ 16 ≤ full.lif.rx.length ∧
    s.lif.tx = [] ++ t :: [] ∧ s.lif.attempt = none ∧ tried.lif.attempt = some t.serial ∧
    tried.lif.failed < 127 ∧ 127 ≤ worn.lif.failed ∧ (1 ≤ f.kind ∧ f.kind ≤ 16) ∧
    live.lif.tx.length < 12 ∧ 12 ≤ packed.lif.tx.length ∧ packed.lif.highest.isSome = true ∧
    (after .txError worn).lif.state = .lineOff ∧
    (after .txSent tried).lif.loop = [t] := by decide

/-- The 128th error with an await, a mark, two BIDs queued, pump 1 asking for a hold and pump 2 settling; and
with a collection open for the PUMP demand of pump 1. -/
theorem witness_FramesHeardAndSent_lineOff :
    let x := sale .authorising .held (some card1) none
    let y : Sale := { sale .settling .released (some card1) none with number := 212, hold := some ⟨6, 57, 18⟩ }
    let p : Pump := { live.fdc.pump1 with sale := some x, ask := some ⟨4, 1, none, 0⟩ }
    let q : Pump := { live.fdc.pump2 with config := some pumpCfg, sale := some y }
    let r := record 212 false (some card1) (some 15000) none
    let worn : State := { live with
      lif := { live.lif with
        tx := [⟨0, bidFrame 3 32 tagA⟩, ⟨1, joinFrame 3 160 .line⟩], serial := 2, attempt := some 0, failed := 127 }
      bal := { live.bal with
        rounds := [round .bidQueued none], await := some ⟨tagA, 0, 0, none, none⟩
        berths := [{ berth 7 130 45 25 (some 3) with mark := some tagA }] }
      fdc := { live.fdc with pump1 := p, pump2 := q, journal := [record 211 false (some card1) none none, r] } }
    let asking : State := { worn with
      pwb := { Pwb.start with
        demands := [⟨9, .pump, 1, 16, true, []⟩], collection := some ⟨1, 16, 0, 9, none, []⟩ }
      fdc := { worn.fdc with pump1 := { p with sale := some { x with load := .queued } } } }
    let t := after .txError worn
    let u := after .txError asking
    worn.powered = true ∧ 127 ≤ worn.lif.failed ∧ worn.lif.attempt.isSome = true ∧ worn.bal.await.isSome = true ∧
    worn.pump? 1 = some p ∧ worn.pump? 2 = some q ∧ worn.pwb.demands = [] ∧ r ∈ worn.fdc.journal ∧
    (t.bal.rounds, t.bal.await, t.bal.berths.map Berth.mark, t.bal.result) = ([], none, [none], .noLine) ∧
    t.lif.reports.map (fun x => (x.serial, x.sent)) = [(0, false)] ∧
    t.fdc.pump1.last = .refused .noLine ∧ t.fdc.journal.map (fun r => (r.number, r.closed, r.flags.unsettled)) =
      [(212, true, true)] ∧
    asking.pwb.collection.map Collection.demand = some 9 ∧ asking.sale? 1 = some { x with load := .queued } ∧
    u.pwb.demands = [] ∧ u.sale? 1 = none ∧ u.fdc.pump1.last = .refused .noLine := by decide

theorem witness_ListenSilenceAndJoins :
    let l : State := { live with lif := { live.lif with state := .joining, listenEnd := some 200000 } }
    let q : State := { live with lif := { live.lif with state := .lineOff, silenceEnd := some 1000000 } }
    let f := joinFrame 5 100 .line
    l.powered = true ∧ (l.lif.state = .joining ∧ l.lif.listenEnd = some 200000) ∧
    live.lif.state ≠ .joining ∧ (q.lif.state = .lineOff ∧ q.lif.silenceEnd = some 1000000 ∧ q.lif.tx = []) ∧
    live.lif.state ≠ .lineOff ∧ (heard f lender).takeRx 17 .line = some (f, none, lender) ∧
    f.sender ≠ lender.me ∧ (1 ≤ f.num 2 1 ∧ f.num 2 1 ≤ 3) ∧ (mkFrame 17 [] 5 [0#8, 0#8, 4#8]).num 2 1 = 4 ∧
    (after (.joinFrame .line) (heard f lender)).pwb.loans.map Loan.partner = [6, 8, 2] := by decide

/-- The first ON LINE with a stay charged at point 3, its post good or DOWN. -/
theorem witness_ListenSilenceAndJoins_energise :
    let w := noticed .alongside .alongside .open_ .off (some 6)
    let l : State := { w with
      lif := { w.lif with state := .joining, listenEnd := some 200000 }
      spc := { w.spc with energiseDue := true } }
    let down : State := { l with spc := { l.spc with posts := [⟨2, .down, 5, some 5⟩] } }
    (∀ x ∈ [l, down], x.powered = true ∧ x.lif.state = .joining ∧ x.lif.listenEnd = some 200000 ∧
      x.spc.energiseDue = true ∧ x.berthPoint 7 = some 3 ∧
      (x.point? 3).map (fun p => (p.charging, p.outlet)) = some (some 6, .off) ∧
      (x.occ? 6).map (fun r => (r.state, r.account.state, r.profile.isSome)) =
        some (.alongside, .open_, true) ∧ x.pwb.demands = []) ∧
    l.postDown 3 = false ∧ down.postDown 3 = true ∧
    ((after .listenEnd l).point? 3).map Point.outlet = some .on ∧
    ((after .listenEnd down).point? 3).map Point.outlet = some .faultOff := by decide

/-- A JOIN of a station whose offer stands in the collection and whose round's BID is queued. -/
theorem witness_ListenSilenceAndJoins_joins :
    let f := joinFrame 2 100 .cold
    let a := asking [⟨2, 8, 5⟩, ⟨7, 4, 9⟩]
    let s : State := { a with
      bal := { a.bal with
        rounds := [round .bidQueued none]
        berths := [{ berth 7 130 45 25 (some 3) with mark := some tagA }] }
      lif := { a.lif with tx := [⟨0, bidFrame 3 32 tagA⟩], serial := 1 } }
    (heard f s).takeRx 17 .line = some (f, none, s) ∧ s.powered = true ∧ f.sender = 2 ∧ f.num 2 1 = 1 ∧
    (∀ l ∈ s.pwb.loans, l.partner ≠ 2) ∧ tagA.station = 2 ∧
    ((round .bidQueued none).bidFrame = some 0 ∧ 0 < s.lif.serial ∧ s.lif.attempt ≠ some 0) ∧
    (let t := after (.joinFrame .line) (heard f s)
     t.lif.tx = [] ∧ t.bal.rounds = [] ∧ t.bal.berths.map Berth.mark = [none] ∧
     t.pwb.collection.map (fun c => c.offers.map Offer.lender) = some [7]) := by decide

theorem witness_AttentionFollowsThePendingFlags :
    AttentionSound live ∧ ∃ t, step live = .next t := by
  refine ⟨?_, _, rfl⟩
  unfold AttentionSound
  decide

theorem witness_LineStaysSoundAndMovesByItsEvents :
    LineSound unset ∧ exec .join unset = .next (after .join unset) ∧
    (after .join unset).lif.state ≠ unset.lif.state := by
  refine ⟨⟨by decide, by decide, by decide, by decide, by decide, ?_, by decide⟩, rfl, by decide⟩
  intro n h
  cases h

theorem witness_OccupancyStaysSound : OccupancySound rolled ∧ ∃ t, step rolled = .next t := by
  refine ⟨?_, _, rfl⟩
  unfold OccupancySound
  decide

theorem witness_TablesAndPumpsStaySound :
    (TablesSound lender ∧ FuelSound lender ∧ ClockSound lender) ∧ ∃ t, step lender = .next t := by
  refine ⟨⟨by unfold TablesSound; decide, ?_, by unfold ClockSound; decide⟩, _, rfl⟩
  refine ⟨⟨by decide, ?_, ?_⟩, ⟨by decide, ?_, ?_⟩⟩ <;> intro h <;> cases h

theorem witness_TablesAndPumpsStaySound_rounds :
    let s : State := { rounds [round .waiting none] with pending := [.requestBerth asked] }
    RoundsApart s ∧ s.pending = [.requestBerth asked] ∧ s.round? ⟨s.me, (s.bal.seq + 1) % 256⟩ = none ∧
    ∃ t, step s = .next t ∧ (t.bal.rounds.map Round.tag) = [tagA, ⟨3, 1⟩] := by
  refine ⟨by unfold RoundsApart; decide, rfl, by decide, _, rfl, by decide⟩

end Sys2Proof.Tests
end

section
/-! PROOFS. Berths and the contest (01): the grounds of feasibility (R5, R6), the score (R7, R8), and the
choice of the candidate, a least element of the lexicographic order of score and berth number (R8). -/

namespace Sys2Proof.Machine

/-! ### Feasibility (R5, R6) -/

theorem Berth.allows_iff (b : Berth) (cls : Nat) :
    b.allows cls = true ↔ (cls = 1 ∧ b.visitor = true) ∨ (cls = 2 ∧ b.member = true) := by
  unfold Berth.allows
  split
  next visitor => simp [visitor]
  next notVisitor =>
    split
    next member => simp [member]
    next notMember => simp [notVisitor, notMember]

theorem Point.meets_iff (p : Point) (r : BerthRequest) :
    p.meets r = true ↔ r.rating ≤ p.maxRating ∧ p.three = r.three ∧ p.outlet ≠ .tripped ∧
      p.outlet ≠ .faultOff := by
  simp [Point.meets, and_assoc]

theorem berthFree_iff (s : State) (berth day nights : Nat) :
    s.berthFree berth day nights = true ↔ ∀ x ∈ s.occ.records, x.berth = berth →
      ¬ (x.arrival < day + nights ∧ day < x.arrival + x.nights) := by
  simp [State.berthFree, shareNight, Decidable.imp_iff_not_or]

/-- R6 as one test: power is not wanted, or the berth's service point is there and meets the request. -/
def State.powerMet (s : State) (r : BerthRequest) (b : Berth) : Bool :=
  !r.power || (b.point.bind s.point?).any fun p => p.meets r

theorem powerMet_iff (s : State) (r : BerthRequest) (b : Berth) :
    s.powerMet r b = true ↔ (r.power = true → ∃ n p, b.point = some n ∧ s.point? n = some p ∧
      r.rating ≤ p.maxRating ∧ p.three = r.three ∧ p.outlet ≠ .tripped ∧ p.outlet ≠ .faultOff) := by
  have served : (b.point.bind s.point?).any (fun p => p.meets r) = true ↔
      ∃ n p, b.point = some n ∧ s.point? n = some p ∧ p.meets r = true := by
    simp only [Option.any_eq_true, Option.bind_eq_some_iff]
    exact ⟨fun ⟨p, ⟨n, hn, hp⟩, hm⟩ => ⟨n, p, hn, hp, hm⟩,
      fun ⟨n, p, hn, hp, hm⟩ => ⟨p, ⟨n, hn, hp⟩, hm⟩⟩
  simp only [Point.meets_iff] at served
  rw [← served]
  cases h : r.power <;> simp [State.powerMet, h]

theorem feasible_eq (s : State) (r : BerthRequest) (day : Nat) (b : Berth) :
    s.feasible r day b = (r.length ≤ b.length && r.beam + s.settings.fender ≤ b.width &&
      r.draft + s.settings.keel ≤ b.depth + r.lowWater && b.allows r.cls && !b.reserved &&
      b.mark.isNone && s.berthFree b.number day r.nights && s.powerMet r b) := by
  unfold State.feasible State.powerMet
  cases b.point.bind s.point? <;> rfl

theorem feasible_iff (s : State) (r : BerthRequest) (day : Nat) (b : Berth) :
    s.feasible r day b = true ↔
      r.length ≤ b.length ∧ r.beam + s.settings.fender ≤ b.width ∧
      r.draft + s.settings.keel ≤ b.depth + r.lowWater ∧ b.allows r.cls = true ∧
      b.reserved = false ∧ b.mark = none ∧ s.berthFree b.number day r.nights = true ∧
      s.powerMet r b = true := by
  simp [feasible_eq, and_assoc]

/-! ### The score (R7, R8) -/

/-- The clipped excesses of length, width and depth, weighed (R7). -/
def State.marginScore (s : State) (r : BerthRequest) (b : Berth) : Nat :=
  4 * min (b.length - r.length) 100 + 2 * min (b.width - (r.beam + s.settings.fender)) 40 +
    min (b.depth + r.lowWater - (r.draft + s.settings.keel)) 60

/-- The rating steps of the outlet beyond the one asked for, where power is wanted (R7). -/
def State.oversize (s : State) (r : BerthRequest) (b : Berth) : Nat :=
  if r.power then ((b.point.bind s.point?).map fun p => p.maxRating - r.rating).getD 0 else 0

/-- A score after the preference (R8). -/
def State.preferred (s : State) (r : BerthRequest) (n : Nat) : Nat :=
  if r.preferred ≠ 0 ∧ r.preferred = s.me then n - 64 else n

theorem score_eq (s : State) (r : BerthRequest) (b : Berth) :
    s.score r b = s.preferred r (s.marginScore r b + 16 * s.oversize r b) := by
  unfold State.score State.preferred State.marginScore State.oversize
  cases b.point.bind s.point? <;> simp [Nat.sub_sub, and_comm]

theorem oversize_of_no_power {s : State} {r : BerthRequest} {b : Berth} (h : r.power = false) :
    s.oversize r b = 0 := by
  simp [State.oversize, h]

theorem oversize_of_point {s : State} {r : BerthRequest} {b : Berth} {n : Nat} {p : Point}
    (h : r.power = true) (hn : b.point = some n) (hp : s.point? n = some p) :
    s.oversize r b = p.maxRating - r.rating := by
  simp [State.oversize, h, hn, hp]

/-! ### The candidate (R8) -/

/-- The better of two fits is the lesser in the lexicographic order of score and berth number. -/
theorem toLex_betterFit (a b : Nat × Nat) : toLex (betterFit a b) = min (toLex a) (toLex b) := by
  have less : toLex b < toLex a ↔ b.1 < a.1 ∨ b.1 = a.1 ∧ b.2 < a.2 := Prod.Lex.toLex_lt_toLex
  by_cases h : toLex b < toLex a
  · rw [min_eq_right h.le]
    simp [betterFit, less.mp h]
  · rw [min_eq_left (not_lt.mp h)]
    simp [betterFit, mt less.mpr h]

/-- The best of a list of fits; none of the empty list. -/
def bestFit : List (Nat × Nat) → Option (Nat × Nat)
  | [] => none
  | a :: l => some (l.foldl betterFit a)

theorem bestFit_eq_none {l : List (Nat × Nat)} : bestFit l = none ↔ l = [] := by
  cases l <;> simp [bestFit]

theorem foldl_betterFit_mem (l : List (Nat × Nat)) (a : Nat × Nat) :
    l.foldl betterFit a ∈ a :: l := by
  induction l generalizing a with
  | nil => simp
  | cons b l ih =>
    have one : betterFit a b = a ∨ betterFit a b = b := by unfold betterFit; split <;> simp
    rw [List.foldl_cons]
    rcases List.mem_cons.mp (ih (betterFit a b)) with h | h
    · rcases one with e | e <;> rw [h, e] <;> simp
    · simp [h]

theorem toLex_foldl_betterFit_le (l : List (Nat × Nat)) (a : Nat × Nat) :
    ∀ x ∈ a :: l, toLex (l.foldl betterFit a) ≤ toLex x := by
  induction l generalizing a with
  | nil => simp
  | cons b l ih =>
    obtain ⟨first, later⟩ := List.forall_mem_cons.mp (ih (betterFit a b))
    rw [toLex_betterFit, le_min_iff] at first
    obtain ⟨leA, leB⟩ := first
    exact List.forall_mem_cons.mpr ⟨leA, List.forall_mem_cons.mpr ⟨leB, later⟩⟩

theorem bestFit_least {l : List (Nat × Nat)} {m : Nat × Nat} (h : bestFit l = some m) :
    m ∈ l ∧ ∀ x ∈ l, toLex m ≤ toLex x := by
  cases l with
  | nil => simp [bestFit] at h
  | cons a l =>
    obtain rfl : l.foldl betterFit a = m := Option.some.inj h
    exact ⟨foldl_betterFit_mem l a, toLex_foldl_betterFit_le l a⟩

/-- The scores and numbers of the feasible berths. -/
def State.feasibleFits (s : State) (r : BerthRequest) (day : Nat) : List (Nat × Nat) :=
  (s.bal.berths.filter (s.feasible r day)).map fun b => (s.score r b, b.number)

theorem candidate_eq_bestFit (s : State) (r : BerthRequest) (day : Nat) :
    s.candidate r day = bestFit (s.feasibleFits r day) := by
  unfold State.candidate State.feasibleFits
  cases (s.bal.berths.filter (s.feasible r day)).map fun b => (s.score r b, b.number) with
  | nil => rfl
  | cons a l =>
    rw [List.foldl_cons]
    induction l generalizing a with
    | nil => rfl
    | cons b l ih => exact ih (betterFit a b)

theorem mem_feasibleFits {s : State} {r : BerthRequest} {day : Nat} {x : Nat × Nat} :
    x ∈ s.feasibleFits r day ↔
      ∃ b ∈ s.bal.berths, s.feasible r day b = true ∧ (s.score r b, b.number) = x := by
  simp [State.feasibleFits, and_assoc]

theorem candidate_least {s : State} {r : BerthRequest} {day score n : Nat}
    (h : s.candidate r day = some (score, n)) :
    (∃ b ∈ s.bal.berths, s.feasible r day b = true ∧ s.score r b = score ∧ b.number = n) ∧
    ∀ b ∈ s.bal.berths, s.feasible r day b = true →
      score < s.score r b ∨ (score = s.score r b ∧ n ≤ b.number) := by
  obtain ⟨chosen, least⟩ := bestFit_least ((candidate_eq_bestFit s r day).symm.trans h)
  constructor
  · simpa [mem_feasibleFits] using chosen
  · intro b hb feasible
    exact Prod.Lex.toLex_le_toLex.mp (least _ (mem_feasibleFits.mpr ⟨b, hb, feasible, rfl⟩))

theorem candidate_eq_none_iff (s : State) (r : BerthRequest) (day : Nat) :
    s.candidate r day = none ↔ ∀ b ∈ s.bal.berths, s.feasible r day b = false := by
  simp [candidate_eq_bestFit, bestFit_eq_none, State.feasibleFits]

/-- Settles O28: feasibility ground by ground, the score by its terms, and the candidate as a least of the
feasible fits. -/
theorem candidateIsTheBestFeasibleBerth : Obligations.CandidateIsTheBestFeasibleBerth := by
  refine ⟨fun s r day b => ?_, fun s r day b _ => ⟨fun off => ?_, fun n p on hn hp => ?_⟩,
    fun _ _ _ _ _ => candidate_least, candidate_eq_none_iff⟩
  · rw [feasible_iff, Berth.allows_iff, berthFree_iff, powerMet_iff]
  · rw [score_eq, oversize_of_no_power off]
    rfl
  · rw [score_eq, oversize_of_point on hn hp]
    rfl

end Sys2Proof.Machine
end

section
/-! PROOFS. Capture (07): an edge is stored once in its own record (R158, R159), the block that takes the
edge works on from there without touching CAP, and READ CAPTURE reads a record back and re-arms it (R160). -/

namespace Sys2Proof.Machine

/-! ### The capture records -/

@[simp] theorem Cap.get_set_same (c : Cap) (e : Edge) (r : Capture) : (c.set e r).get e = r := by
  cases e <;> rfl

theorem Cap.get_set_of_ne (c : Cap) {e e' : Edge} (r : Capture) (h : e' ≠ e) :
    (c.set e r).get e' = c.get e' := by
  revert h
  cases e <;> cases e' <;> simp [Cap.get, Cap.set]

/-! ### What an edge stores (R159) -/

theorem Capture.store_continuous {c : Capture} (t : Time) (h : c.single = false) :
    c.store t = ({ c with time := some t }, false) := by
  simp [Capture.store, h]

theorem Capture.store_single_unmarked {c : Capture} (t : Time) (h : c.single = true)
    (unmarked : c.mark = false) : c.store t = ({ c with time := some t, mark := true }, true) := by
  simp [Capture.store, h, unmarked]

theorem Capture.store_single_marked {c : Capture} (t : Time) (h : c.single = true)
    (marked : c.mark = true) : c.store t = ({ c with missed := min 255 (c.missed + 1) }, false) := by
  simp [Capture.store, h, marked]

theorem capture_cap (s : State) (e : Edge) :
    (s.capture e).cap = s.cap.set e ((s.cap.get e).store s.now).1 :=
  setFlagIf_cap _ _ _

theorem Flag.bit_ne_zero (f : Flag) : f.bit ≠ 0 := by
  cases f <;> decide

theorem hasFlag_setFlag (s : State) (f : Flag) : (s.setFlag f).hasFlag f = true := by
  have kept : (s.pnp.flags ||| f.bit) &&& f.bit = f.bit := by
    ext i; simpa using Or.inr
  have nonzero := f.bit_ne_zero
  simpa [State.hasFlag, kept] using nonzero

theorem capture_flags {s : State} {e : Edge} (h : ((s.cap.get e).store s.now).2 = true) :
    (s.capture e).hasFlag .captureTaken = true := by
  simp [State.capture, h, hasFlag_setFlag]

/-! ### What the taking of an edge does besides (R102, R103, R111, R114, R116, R144, R145)

All of it stays within GTC and the parts PWB's work can change; CAP is not among them. -/

theorem Within.cap {ps : List Part} {s t : State} (h : Within ps s t)
    (hp : Part.cap ∉ ps := by decide) : t.cap = s.cap :=
  h.frame .cap (by simp [hp])

/-- The parts an edge's taking may change beside CAP and the flags. -/
def edgeParts : List Part := .gtc :: pwbParts

section
variable (s : State)

theorem within_lift (n : Nat) (p : Pump) : Within [.fdc] s (s.lift n p) := by
  have up := within_modPump s n fun p => { p with nozzleUp := true }
  unfold State.lift
  dsimp only
  split
  · split
    · exact up.trans (within_startDelivery _ _ _)
    · split
      · exact up
      · exact up.andThen (within_setFlag _ _)
  · exact up.andThen (within_setFlag _ _)

theorem within_hang (n : Nat) (p : Pump) : Within [.fdc] s (s.hang n p) := by
  have down := within_modPump s n fun p => { p with nozzleUp := false }
  unfold State.hang
  dsimp only
  split
  · exact .ite (down.trans (within_toFinishing _ _)) down
  · exact down

theorem exec_nozzleLift (n : Nat) : exec (.nozzleLift n) s = execNozzleLift n s := rfl
theorem exec_nozzleHang (n : Nat) : exec (.nozzleHang n) s = execNozzleHang n s := rfl
theorem exec_emergencyPress : exec .emergencyPress s = execEmergencyPress s := rfl
theorem exec_emergencyRelease : exec .emergencyRelease s = execEmergencyRelease s := rfl
theorem exec_doorOpenEdge : exec .doorOpenEdge s = execDoorOpenEdge s := rfl
theorem exec_doorShutEdge : exec .doorShutEdge s = execDoorShutEdge s := rfl
theorem exec_readCapture (channel edge : Nat) :
    exec (.readCapture channel edge) s = execReadCapture channel edge s := rfl

end

/-- A command captures an edge: it completes, and what follows the capture stays within `edgeParts`. -/
def Captures (c : Instr) (e : Edge) (s : State) : Prop :=
  ∃ t, exec c s = .next t ∧ Within edgeParts (s.capture e) t

section
variable {s : State}

theorem nozzleLift_captures {n : Nat} {p : Pump} (on : s.powered = true) (pump : s.pump? n = some p) :
    Captures (.nozzleLift n) (if n = 1 then .lift1 else .lift2) s := by
  refine ⟨_, ?_, (within_lift _ n p).mono (by decide)⟩
  rw [exec_nozzleLift, execNozzleLift, State.event_on on, pump]

theorem nozzleHang_captures {n : Nat} {p : Pump} (on : s.powered = true) (pump : s.pump? n = some p) :
    Captures (.nozzleHang n) (if n = 1 then .hang1 else .hang2) s := by
  refine ⟨_, ?_, (within_hang _ n p).mono (by decide)⟩
  rw [exec_nozzleHang, execNozzleHang, State.event_on on, pump]

theorem doorOpenEdge_captures (on : s.powered = true) : Captures .doorOpenEdge .doorOpen s := by
  refine ⟨_, by rw [exec_doorOpenEdge, execDoorOpenEdge, State.event_on on], ?_⟩
  have opening : Within edgeParts (s.capture .doorOpen) (s.capture .doorOpen).openDoor :=
    (within_gtc _ _).mono (by decide)
  refine .ite (.refl _ _) (.ite opening ?_)
  exact (opening.andThen (within_setFlag _ _) : Within edgeParts _ _).andThen (within_alarm _ _ _ _)

theorem doorShutEdge_captures (on : s.powered = true) : Captures .doorShutEdge .doorShut s := by
  refine ⟨_, by rw [exec_doorShutEdge, execDoorShutEdge, State.event_on on], ?_⟩
  exact .ite ((within_gtc _ _).mono (by decide)) (.refl _ _)

theorem emergencyPress_captures (on : s.powered = true) : Captures .emergencyPress .press s := by
  refine ⟨_, by rw [exec_emergencyPress, execEmergencyPress, State.event_on on], ?_⟩
  have pressed : Within pwbParts (s.capture .press)
      (({ s.capture .press with fdc := { (s.capture .press).fdc with emergency := true } } :
        State).setFlag .emergencyStop) := (within_fdc _ _).andThen (within_setFlag _ _)
  have alarmed := pressed.andThen (rs := pwbParts)
    (within_alarm _ .emergencyStop 0 (s.capture .press).sch.sec)
  exact ((alarmed.trans (within_pumpEmergency _ 1)).trans (within_pumpEmergency _ 2)).mono (by decide)

theorem emergencyRelease_captures (on : s.powered = true) :
    Captures .emergencyRelease .released s := by
  refine ⟨_, by rw [exec_emergencyRelease, execEmergencyRelease, State.event_on on], ?_⟩
  exact (within_fdc _ _).mono (by decide)

theorem Captures.stores {c : Instr} {e : Edge} (h : Captures c e s) :
    ∃ t, exec c s = .next t ∧ t.cap = s.cap.set e ((s.cap.get e).store s.now).1 ∧
      (((s.cap.get e).store s.now).2 = true → t.hasFlag .captureTaken = true) := by
  obtain ⟨t, runs, within⟩ := h
  exact ⟨t, runs, within.cap.trans (capture_cap s e), fun takes => within.hasFlag (capture_flags takes)⟩

/-! ### READ CAPTURE (R160, R211) -/

theorem Capture.reread_eq (c : Capture) :
    c.reread = if c.single = true ∧ c.mark = true then { c with mark := false, missed := 0 } else c := by
  simp [Capture.reread]

theorem Capture.datum_of_time {c : Capture} {x : Time} (h : c.time = some x) :
    c.datum = [⟨1, if c.single = true then 2 else 1⟩, ⟨1, 1⟩, ⟨4, x.sec⟩, ⟨2, x.ms⟩,
      ⟨1, c.mark.toNat⟩, ⟨1, c.missed⟩] := by
  simp [Capture.datum, captureModeD, optD, timeD, yn, u8, u16, u32, h]

theorem Capture.datum_of_no_time {c : Capture} (h : c.time = none) :
    c.datum = [⟨1, if c.single = true then 2 else 1⟩, ⟨1, 0⟩, ⟨4, 0⟩, ⟨2, 0⟩,
      ⟨1, c.mark.toNat⟩, ⟨1, c.missed⟩] := by
  simp [Capture.datum, captureModeD, optD, timeD, yn, u8, u16, u32, h]

theorem edgeOf_eq_none {channel edge : Nat}
    (h : channel = 0 ∨ 4 < channel ∨ edge = 0 ∨ 2 < edge) : edgeOf channel edge = none := by
  unfold edgeOf
  split
  case h_9 => rfl
  all_goals omega

theorem readCapture_named {channel edge : Nat} {e : Edge} (taken : Takes 58 s)
    (named : edgeOf channel edge = some e) :
    exec (.readCapture channel edge) s =
      .next { s with pnp := s.pnp.answered 58 (.done (s.cap.get e).datum),
                     cap := s.cap.set e (s.cap.get e).reread } := by
  rw [exec_readCapture, execReadCapture, State.request_taken taken, named]
  rfl

theorem readCapture_unnamed {channel edge : Nat} (taken : Takes 58 s)
    (unnamed : edgeOf channel edge = none) :
    exec (.readCapture channel edge) s =
      .next { s with pnp := s.pnp.answered 58 (.refused .range) } := by
  rw [exec_readCapture, execReadCapture, State.request_taken taken, unnamed]
  rfl

end

/-- Settles O21: the eight edge commands each capture their edge and then leave CAP alone, so the record
is what `Capture.store` makes of it; READ CAPTURE answers the record and puts back what `Capture.reread`
leaves. -/
theorem captureStoresAndReadRearms : Obligations.CaptureStoresAndReadRearms := by
  refine ⟨fun c e s on listed => ?_, fun channel edge s taken => ⟨fun e listed => ?_, fun outside =>
    readCapture_unnamed taken (edgeOf_eq_none outside)⟩⟩
  · have captured : Captures c e s := by
      simp only [List.mem_cons, Prod.mk.injEq, List.not_mem_nil, or_false] at listed
      obtain ⟨rfl, rfl⟩ | ⟨rfl, rfl⟩ | ⟨rfl, rfl⟩ | ⟨rfl, rfl⟩ | ⟨rfl, rfl⟩ | ⟨rfl, rfl⟩ |
        ⟨rfl, rfl⟩ | ⟨rfl, rfl⟩ := listed
      · exact doorOpenEdge_captures on
      · exact doorShutEdge_captures on
      · exact nozzleLift_captures on rfl
      · exact nozzleHang_captures on rfl
      · exact nozzleLift_captures on rfl
      · exact nozzleHang_captures on rfl
      · exact emergencyPress_captures on
      · exact emergencyRelease_captures on
    obtain ⟨t, runs, stored, flagged⟩ := captured.stores
    refine ⟨t, runs, fun continuous => ?_, fun single unmarked => ⟨?_, ?_⟩, fun single marked => ?_,
      fun e' other => ?_⟩
    · rw [stored, Cap.get_set_same, Capture.store_continuous _ continuous]
    · rw [stored, Cap.get_set_same, Capture.store_single_unmarked _ single unmarked]
    · exact flagged (by rw [Capture.store_single_unmarked _ single unmarked])
    · rw [stored, Cap.get_set_same, Capture.store_single_marked _ single marked]
    · rw [stored, Cap.get_set_of_ne _ _ other]
  · have named : edgeOf channel edge = some e := by
      simp only [List.mem_cons, Prod.mk.injEq, List.not_mem_nil, or_false] at listed
      obtain ⟨rfl, rfl, rfl⟩ | ⟨rfl, rfl, rfl⟩ | ⟨rfl, rfl, rfl⟩ | ⟨rfl, rfl, rfl⟩ | ⟨rfl, rfl, rfl⟩ |
        ⟨rfl, rfl, rfl⟩ | ⟨rfl, rfl, rfl⟩ | ⟨rfl, rfl, rfl⟩ := listed <;> rfl
    refine ⟨_, readCapture_named taken named, ?_, fun e' other => Cap.get_set_of_ne _ _ other, ?_, ?_⟩
    · exact (Cap.get_set_same _ _ _).trans (Capture.reread_eq _)
    · cases time : (s.cap.get e).time with
      | some x => rw [Capture.datum_of_time time]; rfl
      | none => rw [Capture.datum_of_no_time time]; rfl
    · have answered := (onlyChanges_pnp s (s.pnp.answered 58 (.done (s.cap.get e).datum))).mono
        (qs := [.pnp, .cap]) (by decide)
      exact answered.trans (within_cap _ (s.cap.set e (s.cap.get e).reread)).frame

end Sys2Proof.Machine
end

section
/-! PROOFS. The flags of PNP (R189 to R192): what FLAGS READ answers, and what FLAGS CLEAR and FLAGS SETUP
leave of the flags, the levels and the attention line. -/

namespace Sys2Proof.Machine

set_option Elab.async false

/-! ### The lowest pending flag (R189) -/

theorem lowestFlag_zero : lowestFlag 0 = 0 := by decide

/-- The search of `lowestFlag` finds the first of the 64 bits set. -/
theorem lowestFlag_eq_succ {m : BitVec 64} (h : m ≠ 0) : ∃ i, lowestFlag m = i + 1 ∧ i < 64 ∧
    m.getLsbD i = true ∧ ∀ j, j < i → m.getLsbD j = false := by
  unfold lowestFlag
  cases found : (List.range 64).find? fun i => m.getLsbD i with
  | some i =>
    obtain ⟨one, place, below⟩ := List.find?_range_eq_some.mp found
    exact ⟨i, rfl, List.mem_range.mp place, one, fun j hj => by simpa using below j hj⟩
  | none =>
    rw [List.find?_range_eq_none] at found
    exact absurd (BitVec.eq_of_getLsbD_eq fun i hi => by simpa using found i hi) h

/-! ### FLAGS SETUP (R191) -/

theorem levelOk_iff (n : Nat) : levelOk n = true ↔ n ≤ 3 ∨ n = 15 := by
  simp [levelOk]

/-- The values FLAGS SETUP takes: a keep mark 0 or 1, levels 0-3 or 15, a threshold 1-3 or 15. -/
theorem setupInRange_iff (keep : Nat) (l : Levels) (threshold : Nat) :
    setupInRange keep l threshold = true ↔ keep ≤ 1 ∧
      (∀ n ∈ [l.berth, l.occupancy, l.power, l.fuel, l.gate, l.line, l.station], n ≤ 3 ∨ n = 15) ∧
      ((1 ≤ threshold ∧ threshold ≤ 3) ∨ threshold = 15) := by
  simp [setupInRange, levelOk_iff, within, and_assoc]

section
variable {s : State}

theorem exec_flagsRead (taken : Takes 7 s) :
    exec .flagsRead s = .next { s with pnp := s.pnp.answered 7 (.done s.pnp.flagsAnswer) } :=
  congrArg _ (State.readRequest_taken taken)

theorem exec_flagsClear (mask : BitVec 64) (taken : Takes 8 s) :
    exec (.flagsClear mask) s = .next (((s.takeFrame 8).clearFlags mask).writeAnswer 8
      (.done (mask8 (s.clearFlags mask).pnp.flags ++ yn (s.clearFlags mask).pnp.attention))) :=
  congrArg _ (State.request_taken taken)

/-- In range, the values are written together and the line is examined with them (R191, R192). -/
theorem exec_flagsSetup_done {enables : BitVec 64} {keep : Nat} {l : Levels} {threshold : Nat}
    (taken : Takes 9 s) (inRange : setupInRange keep l threshold = true) :
    let p := (s.pnp.setup enables keep l threshold).examine
    let d := mask8 p.enables ++ levelsD p.levels ++ u8 p.threshold ++ yn p.attention
    exec (.flagsSetup enables keep l threshold) s =
      .next { s with pnp := p.answered 9 (.done d) } := by
  refine congrArg Host.Outcome.next ((State.request_taken taken).trans ?_)
  rw [if_pos inRange]
  rfl

theorem exec_flagsSetup_refused {enables : BitVec 64} {keep : Nat} {l : Levels} {threshold : Nat}
    (taken : Takes 9 s) (outside : setupInRange keep l threshold ≠ true) :
    exec (.flagsSetup enables keep l threshold) s =
      .next { s with pnp := s.pnp.answered 9 (.refused .range) } := by
  refine congrArg Host.Outcome.next ((State.request_taken taken).trans ?_)
  rw [if_neg outside]
  rfl

end

/-- Settles O10: FLAGS READ by the lowest bit of the pending mask, FLAGS CLEAR by what the request writes,
FLAGS SETUP by whether its values are in range. -/
theorem flagsReadClearAndSetup : Obligations.FlagsReadClearAndSetup := by
  refine ⟨⟨fun s taken => ⟨lowestFlag s.pnp.pendingMask, exec_flagsRead taken, fun none => ?_,
    fun some => ?_⟩, fun mask s taken => exec_flagsClear mask taken⟩,
    fun enables keep l threshold s taken => ⟨fun keeps levels reach => ?_, fun outside => ?_⟩⟩
  · rw [none, lowestFlag_zero]
  · obtain ⟨i, lowest, place, one, below⟩ := lowestFlag_eq_succ some
    rw [lowest]
    exact ⟨Nat.le_add_left 1 i, place, one, below⟩
  · have inRange := (setupInRange_iff keep l threshold).mpr ⟨keeps, levels, reach⟩
    exact ⟨_, exec_flagsSetup_done taken inRange, rfl, rfl, rfl, rfl, rfl, rfl, onlyChanges_pnp s _⟩
  · refine exec_flagsSetup_refused taken fun inRange => ?_
    obtain ⟨-, levels, reach⟩ := (setupInRange_iff keep l threshold).mp inRange
    obtain ⟨n, listed, above, notKept⟩ | outside := outside
    · have := levels n listed
      omega
    · omega

end Sys2Proof.Machine
end

section
/-! PROOFS. The frame laws of the operations that the commands are made of, block by block: beside those
under Laws/, which parts each can change, PNP at most by flags set. -/

namespace Sys2Proof.Machine

set_option Elab.async false

theorem Within.widen {ps qs : List Part} {s t : State} (h : Within ps s t)
    (hs : ps ⊆ qs := by decide) : Within qs s t := h.mono hs

/-- A decision by cases, each of which leaves its state within the parts. -/
theorem Within.decision {ps : List Part} {s : State} {x y : State × Reply} {c : Prop} [Decidable c]
    (h : Within ps s x.1) (g : Within ps s y.1) : Within ps s (if c then x else y).1 := by
  split
  · exact h
  · exact g

section
variable (s : State)

/-! ### Berths and the contest (01) -/

theorem within_originate (t : Sys2Proof.Tag) (r : BerthRequest) :
    Within [.bal, .lif] s (s.originate t r) :=
  ((within_bal s _).andThen (within_queueFrame _ _) : Within [.bal, .lif] s _).trans
    (within_openRound _ _ _ _)

theorem within_takeBerthRequest (t : Sys2Proof.Tag) (r : BerthRequest) :
    Within [.bal, .lif] s (s.takeBerthRequest t r) :=
  .ite (.refl _ s) (.ite (within_setFlag s _).widen (within_openRound s _ _ _))

theorem within_assignRound (t : Sys2Proof.Tag) (k : BidKey) :
    Within [.lif, .bal, .occ, .spc] s (s.assignRound t k) := by
  unfold State.assignRound
  split
  · exact .refl _ s
  · split
    · split
      · exact .ite (within_loseDouble s _) (.refl _ s)
      · exact .refl _ s
    · exact (within_hearKey s _ _).widen

theorem within_bidOutcome (r : Round) (sent : Bool) : Within [.bal] s (s.bidOutcome r sent) :=
  .ite (.refl _ s) (.ite (within_modRound s _ _) ((within_modRound s _ _).trans (within_clearMark _ _)))

theorem within_endWindow (r : Round) : Within [.lif, .bal, .occ] s (s.endWindow r) :=
  .ite (within_winRound s _) (within_discardRound s _).widen

/-! ### Stays, accounts, holds (02) -/

theorem within_modAccount (n : Nat) (f : Account → Account) : Within [.occ] s (s.modAccount n f) :=
  within_modOcc s _ _

theorem within_modCredential (n : Nat) (f : Credential → Credential) :
    Within [.occ] s (s.modCredential n f) := within_modOcc s _ _

theorem within_topUp (n amount : Nat) (r : Occupancy) : Within [.occ] s (s.topUp n amount r) := by
  have credited := (within_modAccount s n fun a => { a with balance := r.account.balance + amount }).trans
    (within_computeStanding _ n)
  exact .ite (credited.trans (within_leaveBarred _ _)) credited

theorem within_answerHold (r : Occupancy) (station pump ask amount : Nat) :
    Within [.occ, .lif] s (s.answerHold r station pump ask amount) := by
  unfold State.answerHold
  split
  · exact (within_queueFrame s _).widen
  · split
    · exact (within_queueFrame s _).widen
    · exact (within_placeHold s _ _ _ _ _ _).andThen (within_queueFrame _ _)

theorem within_giveReceipt (n : Nat) (rc : Receipt) : Within [.occ] s (s.giveReceipt n rc) :=
  within_modOcc s _ _

theorem within_settleRecord (r : Occupancy) (station hold sale amount : Nat) :
    Within [.occ, .spc] s (s.settleRecord r station hold sale amount).1 := by
  unfold State.settleRecord
  split
  · exact (((within_debit s _ _).trans (within_dropHold _ _ _)).trans (within_giveReceipt _ _ _)).andThen
      (within_testRemoval _ _)
  · have charged : Within [.occ] s (((s.debit r.number amount).modAccount r.number fun a =>
        { a with late := true }).setFlag .lateSettle) :=
      ((within_debit s _ _).trans (within_modAccount _ _ _)).andThen (within_setFlag _ _)
    exact (Within.ite (.refl _ s) charged).andThen (within_giveReceipt _ _ _)

theorem within_settleCase (occ station hold sale amount : Nat) :
    Within [.occ, .spc] s (s.settleCase occ station hold sale amount).1 := by
  unfold State.settleCase
  split
  · exact .refl _ s
  · split
    · exact .refl _ s
    · exact within_settleRecord s _ _ _ _ _

theorem within_receiptsOnJoin (n : Nat) : Within [.occ] s (s.receiptsOnJoin n) := within_occ s _

/-! ### Loans (03) -/

theorem within_makeOffer (asker seq amount : Nat) :
    Within [.pwb, .lif] s (s.makeOffer asker seq amount) := by
  unfold State.makeOffer
  dsimp only
  split
  · exact (within_modLoan s _ _ _).andThen (within_queueFrame _ _)
  · exact (within_pwb s _).andThen (within_queueFrame _ _)

theorem within_endPledge (l : Loan) : Within pwbParts s (s.endPledge l) :=
  .ite ((within_dropLoans s _).andThen (within_settle _))
    (.ite ((within_modLoan s _ _ _).andThen (within_settle _)) (.refl _ s))

theorem within_voidTake (partner pledge : Nat) : Within pwbParts s (s.voidTake partner pledge) :=
  (((within_dropLoans s _).andThen (within_queueFrame _ _) : Within [.pwb, .lif] s _).andThen
    (within_setFlag _ _) : Within [.pwb, .lif] s _).andThen (within_settleSince _ _)

theorem within_takeLoan (partner pledge taken : Nat) :
    Within pwbParts s (s.takeLoan partner pledge taken) := by
  unfold State.takeLoan
  split
  · exact within_voidTake s _ _
  · exact .ite ((within_modLoan s _ _ _).andThen (within_settleSince _ _))
      (.ite ((within_modLoan s _ _ _).andThen (within_settleSince _ _)) (within_voidTake s _ _))

theorem within_undoTake (lender pledge taken : Nat) :
    Within pwbParts s (s.undoTake lender pledge taken) := by
  unfold State.undoTake
  split
  · exact .refl _ s
  · exact (Within.ite (within_dropLoans s _) (within_modLoan s _ _ _)).andThen (within_ceilingFell _)

/-! ### Service points (04) -/

theorem within_takeReport (p : OpenPoll) (r : PostReport) : Within pwbParts s (s.takeReport p r) :=
  .ite (.refl _ s) (.ite (within_acceptReport s _ _) (within_badPoll s _).widen)

theorem within_postFails (n : Nat) : Within pwbParts s (s.postFails n) :=
  ((((within_modPost s _ _).andThen (within_faultOutlet _ _) : Within [.pwb, .spc] s _).trans
    (within_faultOutlet _ _)).andThen (within_settleSince _ _) : Within pwbParts s _).andThen
    (within_setFlag _ _)

theorem within_resetOutlet (n : Nat) : Within pwbParts s (s.resetOutlet n) := by
  unfold State.resetOutlet
  split
  · exact .ite (.ite (within_setOutlet s _ _).widen (within_callEnergise s _ _))
      (within_setOutlet s _ _).widen
  · exact (within_setOutlet s _ _).widen

theorem within_tellFigure (p : Point) (figure : Nat) : Within pwbParts s (s.tellFigure p figure) :=
  .ite (.ite ((within_pwb s _).andThen (within_settle _)) (within_pwb s _).widen)
    (.ite (within_pwb s _).widen (.refl _ s))

theorem within_applyProfile (occ : Nat) (p : Point) (q : Profile) :
    Within pwbParts s (s.applyProfile occ p q) :=
  .ite (((within_modOcc s _ _).andThen (within_tellFigure _ _ _) : Within pwbParts s _).andThen
    (within_followTap _ _)) (within_modOcc s _ _).widen

theorem within_beginRaise (p : Point) (q : Profile) (need : Nat) :
    Within pwbParts s (s.beginRaise p q need) := by
  have joined := (within_modPoint s p.number fun x =>
    { x with raisePending := some q, raiseLast := .none }).andThen (rs := pwbParts)
    (within_appendDemand _ .raise p.number need)
  exact .ite (joined.trans (within_settle _)) joined

theorem within_setProfile (occ : Nat) (p : Point) (old new : Profile) :
    Within pwbParts s (s.setProfile occ p old new).1 :=
  .decision (.decision (.refl _ s) (within_beginRaise s _ _ _)) (within_applyProfile s _ _ _)

/-! ### The fuel dock (05) -/

theorem within_authorise (n number preset : Nat) (card : Option Nat) (c : PumpConfig) :
    Within pwbParts s (s.authorise n number preset card c) := by
  have stands : Within pwbParts s (((s.appendDemand .pump n c.load).reserve number n preset card c).modPump n
      fun p => { p with sale := some (newSale number preset card), last := .pending }) :=
    ((within_appendDemand s _ _ _).andThen (within_reserve _ _ _ _ _ _) : Within pwbParts s _).andThen
      (within_modPump _ _ _)
  have asked := stands.trans (.ite (c := card.isSome = true) (within_beginAsk _ n).widen (.refl _ _))
  exact .ite (asked.trans (within_settle _)) asked

theorem within_strayPulse (n : Nat) : Within [.fdc] s (s.strayPulse n) :=
  (within_modPump s _ _).andThen (within_setFlag _ _)

theorem within_pulse (n : Nat) (p : Pump) : Within [.fdc] s (s.pulse n p) := by
  unfold State.pulse
  split
  · split
    · exact (within_countPulse s _ _).trans (within_checkVolume _ _)
    · exact (within_countPulse s _ _).trans (within_checkVolume _ _)
    · exact within_countPulse s _ _
    all_goals exact within_strayPulse s _
  · exact within_strayPulse s _

theorem within_answerOpen (n : Nat) (ok : Bool) (cause : AuthCause) (h : HoldRef) :
    Within pwbParts s (s.answerOpen n ok cause h) := by
  unfold State.answerOpen
  split
  · split
    · exact ((within_modPump s _ _).trans (within_modRecord _ _ _)).andThen (within_tryAuthorise _ _)
    · exact .refl _ s
  · exact within_endUnused s _ _ _

theorem within_answerClosed (a : ClosedAsk) (ok : Bool) (h : HoldRef) :
    Within [.lif] s (s.answerClosed a ok h) :=
  .ite (within_zeroSettle s _ _) (.refl _ s)

theorem within_takeAnswer (n seq : Nat) (ok : Bool) (cause : AuthCause) (h : HoldRef) :
    Within pwbParts s (s.takeAnswer n seq ok cause h) := by
  unfold State.takeAnswer
  split
  · exact .refl _ s
  · refine .ite (within_answerOpen s _ _ _ _) ?_
    split
    · exact .ite (within_answerClosed s _ _ _).widen (.refl _ s)
    · exact .refl _ s

theorem within_settleAnswered (n : Nat) (r : SettleResult) : Within [.fdc] s (s.settleAnswered n r) := by
  unfold State.settleAnswered
  split
  · exact .refl _ s
  · exact (within_modRecord s _ _).trans (within_closeSale _ _)

/-- A sale's timer lets time run on to its end, and then does what follows it (log 2). -/
theorem within_saleTimer {ps : List Part} (n : Nat) (st : SaleState) {body : State → State}
    (h : ∀ u, Within ps u (body u)) : Within (.elapsed :: .sch :: ps) s (s.saleTimer n st body) := by
  refine State.event_frame s fun u => ?_
  split
  · split
    · exact .ite (((within_advanceTo u _).mono (by simp)).trans ((h _).mono (by simp))) (.refl _ u)
    · exact .refl _ u
  · exact .refl _ u

/-! ### The gate (06) -/

theorem within_gateMode (mode : Nat) : Within [.gtc] s (s.gateMode mode) :=
  .ite ((within_setNight s _).trans (within_setLockdown _ _))
    (.ite ((within_setNight s _).trans (within_setLockdown _ _)) (within_setLockdown s _))

theorem within_takeRead (card : Nat) (suspect : Bool) : Within [.occ, .gtc] s (s.takeRead card suspect) :=
  .ite (within_setFlag s _).widen ((within_setFlagIf s _ _).andThen (within_decideRead _ _ _))

theorem within_takeKey (e : PinEntry) (code : Nat) : Within [.occ, .gtc] s (s.takeKey e code) :=
  .ite (within_editEntry s _ _).widen (.ite (within_editEntry s _ _).widen
    (.ite (within_editEntry s _ _).widen (within_judgeEntry s _)))

theorem within_holdDoor (t : Nat) : Within [.elapsed, .sch, .gtc, .lif] s (s.holdDoor t) :=
  (((within_advanceTo s _).andThen (within_gtc _ _) : Within [.elapsed, .sch, .gtc] s _).andThen
    (within_setFlag _ _) : Within [.elapsed, .sch, .gtc] s _).andThen (within_alarm _ _ _ _)

/-! ### Station time and schedules (07) -/

theorem within_useTariff (set : Nat) : Within [.sch] s (s.useTariff set) := within_sch s _

theorem within_dueEntry (e : ScheduleEntry) (due : Nat) :
    Within [.elapsed, .sch] s (s.dueEntry e due) := by
  have fired := (within_advanceToTime s ⟨due, 0⟩).andThen (rs := [.elapsed, .sch]) (within_fire _ e.kind)
  exact .ite (fired.andThen (within_expire _ _)) (fired.andThen (within_setDue _ _ _))

theorem within_takeAndFire {ps : List Part} (k : ScheduleKind) {act : State → State}
    (h : ∀ u, Within ps u (act u)) : Within (.sch :: ps) s (s.takeAndFire k act) :=
  State.event_frame s fun u => ((within_takeFiring u k).mono (by simp)).trans ((h _).mono (by simp))

/-! ### The pier line (08) -/

theorem within_receive (f : Frame) : Within [.lif] s (s.receive f) :=
  .ite (within_lif s _) ((within_lif s _).andThen (within_setFlag _ _))

theorem within_hear (f : Frame) : Within [.lif] s (s.hear f) :=
  .ite (within_setFlag s _).widen (.ite (within_receive s _) (.refl _ s))

theorem within_loopBack (f : TxFrame) : Within [.lif] s (s.loopBack f) :=
  .ite (within_lif s _) (.refl _ s)

theorem within_sent (f : TxFrame) : Within [.lif] s (s.sent f) :=
  ((within_lif s _).trans (within_giveReport _ _ _)).trans (within_loopBack _ _)

theorem within_countError : Within lineParts s s.countError :=
  .ite ((within_lif s _).andThen (within_enterLineOff _)) (within_lif s _).widen

/-! ### Configuration (10) -/

theorem within_writeStation (v : StationSection) : Within [.settings, .cap] s (s.writeStation v) :=
  .of (by intro p hp; cases p <;> simp_all [State.agree, State.writeStation]) rfl

theorem within_writeBerth (v : BerthSection) : Within [.bal] s (s.writeBerth v) := within_bal s _
theorem within_writePoint (v : PointSection) : Within [.spc] s (s.writePoint v) := within_spc s _
theorem within_writeTariff (set : Nat) (t : Tariff) : Within [.spc] s (s.writeTariff set t) :=
  within_spc s _
theorem within_writePump (v : PumpSection) : Within [.fdc] s (s.writePump v) :=
  .ite (within_modPump s _ _) (within_fdc s _)
theorem within_writeGate (v : GateSection) : Within [.gtc] s (s.writeGate v) := within_gtc s _
theorem within_writeStaff (staff card : Nat) (pin : List Nat) :
    Within [.gtc] s (s.writeStaff staff card pin) := within_gtc s _
theorem within_writeSchedule (v : ScheduleSection) (kind : ScheduleKind) :
    Within [.sch] s (s.writeSchedule v kind) := within_sch s _

end

end Sys2Proof.Machine
end

section
/-! PROOFS. The attention line (R188, R192): whatever only sets flags examines the line in the same step,
so that it stays at the pending flags; taking and answering a request touch neither the line nor the
registers it is driven from; FLAGS CLEAR and FLAGS SETUP examine it afresh; and a start enables no flag. -/

namespace Sys2Proof.Machine

set_option Elab.async false

/-! ### What keeps the line at the pending flags -/

theorem attentionSound_flagged {s t : State} {m : BitVec 64} (h : t.pnp = s.pnp.flagged m) :
    AttentionSound t := by
  unfold AttentionSound
  rw [h]
  rfl

theorem Within.attention {ps : List Part} {s t : State} (h : Within ps s t) (sound : AttentionSound s) :
    AttentionSound t := by
  obtain same | ⟨m, flagged⟩ := h.port
  · unfold AttentionSound
    rw [same]
    exact sound
  · exact attentionSound_flagged flagged

theorem attentionSound_examine (s : State) (p : Pnp) : AttentionSound { s with pnp := p.examine } := rfl

section
variable {s : State}

/-! The next four move the request, the transaction, the answer and the ready mark alone, so that the claim
about the result is the claim about `s`. -/

theorem AttentionSound.endTransaction (sound : AttentionSound s) : AttentionSound s.endTransaction := sound

theorem AttentionSound.takeFrame (sound : AttentionSound s) (code : Nat) :
    AttentionSound (s.takeFrame code) := sound

theorem AttentionSound.writeAnswer (sound : AttentionSound s) (code : Nat) (r : Reply) :
    AttentionSound (s.writeAnswer code r) := sound

theorem AttentionSound.refuseFrame (sound : AttentionSound s) (code : Nat) (r : Reply) :
    AttentionSound (s.refuseFrame code r) := sound

theorem AttentionSound.assert (sound : AttentionSound s) (decided : Bool) :
    AttentionSound { s with pnp := s.pnp.assert decided } := by
  unfold Pnp.assert
  split
  · exact sound
  · exact sound

theorem AttentionSound.request {code : Nat} {body : State → State × Reply} (sound : AttentionSound s)
    (h : ∀ u, AttentionSound u → AttentionSound (body u).1) : AttentionSound (s.request code body) := by
  unfold State.request
  split
  · exact sound.endTransaction
  · split
    · exact sound.endTransaction
    · split
      · exact sound.refuseFrame _ _
      · exact (h _ (sound.takeFrame code)).writeAnswer _ _

/-! ### Starts (R193, R203) -/

/-- No flag is enabled after a start, and so none is pending. -/
theorem attentionSound_started (k : StartKind) (inp : StartInputs) (sch : Sch) (s : State) :
    AttentionSound (s.started k inp sch) := by
  simp [AttentionSound, State.started, Pnp.start, Pnp.pendingMask]

theorem attentionSound_warmStart (inp : StartInputs) (s : State) : AttentionSound (s.warmStart inp) :=
  ((within_setFlagIf _ _ _).trans (within_setFlagIf _ _ _)).attention
    (attentionSound_started .warm inp (Sch.start s.sch.sec s.sch.ms s.sch.us) s)

theorem AttentionSound.keepTransaction (sound : AttentionSound s) (begun : Bool) :
    AttentionSound (s.keepTransaction begun) := sound

end

/-! ### Commands -/

/-- A command completes, and leaves the line at the pending flags if it finds it so. -/
def KeepsLine (c : Instr) (s : State) : Prop :=
  ∃ t, exec c s = .next t ∧ (AttentionSound s → AttentionSound t)

namespace KeepsLine

variable {ps : List Part} {c : Instr} {s : State}

theorem of_within {t : State} (runs : exec c s = .next t) (h : Within ps s t) : KeepsLine c s :=
  ⟨t, runs, h.attention⟩

/-! The kinds of request: `h` says what the deciding block does with one that is taken. -/

theorem request {code : Nat} {body : State → State × Reply}
    (runs : exec c s = .next (s.request code body)) (h : ∀ u, Within ps u (body u).1) : KeepsLine c s :=
  ⟨_, runs, fun sound => sound.request fun u => (h u).attention⟩

theorem read {code : Nat} {body : State → Reply} (runs : exec c s = .next (s.readRequest code body)) :
    KeepsLine c s :=
  request runs fun u => .refl [] u

theorem configure {ok clamped : Bool} {write : State → State}
    (runs : exec c s = .next (s.configure ok clamped write)) (h : ∀ u, Within ps u (write u)) :
    KeepsLine c s :=
  request runs fun u => .decision (.refl _ u) (.decision (.refl _ u) (h u))

theorem occRequest {code n : Nat} {body : Occupancy → State → State × Reply}
    (runs : exec c s = .next (s.occRequest code n body)) (h : ∀ r u, Within ps u (body r u).1) :
    KeepsLine c s := by
  refine request (ps := ps) runs fun u => .decision (.refl _ u) ?_
  split
  · exact .refl _ u
  · exact h _ u

theorem profileRequest {code n : Nat} {body : Occupancy → Point → Profile → State → State × Reply}
    (runs : exec c s = .next (s.profileRequest code n body)) (h : ∀ r p q u, Within ps u (body r p q u).1) :
    KeepsLine c s := by
  refine occRequest (ps := ps) runs fun r u => ?_
  split
  · exact h _ _ _ u
  · exact .refl _ u

theorem pumpRequest {code n : Nat} {body : Pump → PumpConfig → State → State × Reply}
    (runs : exec c s = .next (s.pumpRequest code n body)) (h : ∀ p k u, Within ps u (body p k u).1) :
    KeepsLine c s := by
  refine request (ps := ps) runs fun u => ?_
  split
  · exact .refl _ u
  · split
    · exact .refl _ u
    · exact h _ _ u

/-! The kinds of event: `h` says what the block that takes it does. -/

theorem event {body : State → State} (runs : exec c s = .next (s.event body))
    (h : ∀ u, Within ps u (body u)) : KeepsLine c s :=
  of_within runs (State.event_frame s h)

theorem frame {kind : Nat} {src : RxSource} {body : Frame → Option Nat → State → State}
    (runs : exec c s = .next (s.frameEvent kind src body)) (h : ∀ f n u, Within ps u (body f n u)) :
    KeepsLine c s :=
  of_within runs (State.frameEvent_frame (ps := .lif :: ps) s (by simp) fun f n u => (h f n u).mono (by simp))

theorem report {kind : Nat} {body : Report → State → State}
    (runs : exec c s = .next (s.reportEvent kind body)) (h : ∀ r u, Within ps u (body r u)) :
    KeepsLine c s :=
  of_within runs (State.reportEvent_frame (ps := .lif :: ps) s (by simp) fun r u => (h r u).mono (by simp))

theorem notice {k : NoticeKind} {occ : Nat} {body : FinalMark → Nat → Occupancy → State → State}
    (runs : exec c s = .next (s.noticeEvent k occ body)) (h : ∀ m n r u, Within pwbParts u (body m n r u)) :
    KeepsLine c s :=
  of_within runs (within_noticeEvent s k occ body h)

/-- An edge sets at most CAPTURE TAKEN where it is stored, and what follows it stays within `edgeParts`. -/
theorem edge {e : Edge} {body : State → State} (runs : exec c s = .next (s.event body))
    (captures : s.powered = true → Captures c e s) : KeepsLine c s := by
  cases power : s.powered with
  | true =>
    obtain ⟨t, runs, after⟩ := captures power
    exact ⟨t, runs, fun sound => after.attention ((within_capture s e).attention sound)⟩
  | false => exact ⟨s, runs.trans (congrArg _ (State.event_off power)), id⟩

end KeepsLine

section
variable (s : State)

/-! The panel port and the starts (09, 10). -/

theorem keepsLine_selectAssert (decided : Bool) : KeepsLine (.selectAssert decided) s := by
  refine ⟨_, rfl, fun sound => ?_⟩
  split
  · exact sound.assert decided
  · exact sound

theorem keepsLine_requestDiscarded : KeepsLine .requestDiscarded s := by
  refine ⟨_, rfl, fun sound => ?_⟩
  split
  · exact sound.endTransaction
  · exact sound

theorem keepsLine_null : KeepsLine .null s := by
  refine ⟨_, rfl, fun sound => ?_⟩
  split
  · exact sound.endTransaction
  · exact sound

theorem keepsLine_malformedRequest (code len received kind : Nat) :
    KeepsLine (.malformedRequest code len received kind) s := by
  refine ⟨_, rfl, fun sound => ?_⟩
  split
  · exact sound.endTransaction
  · split
    · exact sound
    · split
      · exact sound.refuseFrame _ _
      · exact sound.refuseFrame _ _

theorem keepsLine_flagsClear (mask : BitVec 64) : KeepsLine (.flagsClear mask) s :=
  ⟨_, rfl, fun sound => sound.request fun u _ => attentionSound_examine u _⟩

theorem keepsLine_flagsSetup (enables : BitVec 64) (keep : Nat) (l : Levels) (threshold : Nat) :
    KeepsLine (.flagsSetup enables keep l threshold) s := by
  refine ⟨_, rfl, fun sound => sound.request fun u still => ?_⟩
  split
  · exact attentionSound_examine u _
  · exact still

theorem keepsLine_join : KeepsLine .join s := by
  refine .request (ps := [.lif, .sch, .occ, .spc, .moments]) rfl fun u => .decision (.refl _ u) ?_
  split
  · exact .refl _ u
  · exact within_acceptJoin u

theorem keepsLine_restart (inp : StartInputs) : KeepsLine (.restart inp) s := by
  refine ⟨_, rfl, fun sound => ?_⟩
  split
  · exact sound.endTransaction
  · exact attentionSound_warmStart inp s

theorem keepsLine_powerUp (inp : StartInputs) (backupHeld storeAgrees : Bool) :
    KeepsLine (.powerUp inp backupHeld storeAgrees) s := by
  refine ⟨_, rfl, fun _ => AttentionSound.keepTransaction ?_ _⟩
  split
  · exact attentionSound_warmStart inp s
  · exact attentionSound_started .cold inp _ s

theorem keepsLine_powerFail : KeepsLine .powerFail s := ⟨_, rfl, id⟩

/-! Berths and the contest (01). -/

theorem keepsLine_requestBerth (r : BerthRequest) : KeepsLine (.requestBerth r) s :=
  .request (ps := [.bal, .lif]) rfl fun u => .decision (.refl _ u) <| .decision (.refl _ u) <|
    .decision (.refl _ u) <| .decision (.refl _ u) (within_originate u _ _)

theorem keepsLine_bidFrame (src : RxSource) : KeepsLine (.bidFrame src) s := by
  refine .frame (ps := [.bal, .lif]) rfl fun f note u => ?_
  split
  · exact .ite (within_hearKey u _ _) (.refl _ u)
  · exact .refl _ u

theorem keepsLine_assignFrame (src : RxSource) : KeepsLine (.assignFrame src) s :=
  .frame (ps := [.lif, .bal, .occ, .spc]) rfl fun _ _ u =>
    (within_assignRound u _ _).andThen (within_awaitHear _ _ _)

theorem keepsLine_bidReport : KeepsLine .bidReport s := by
  refine .report (ps := [.bal]) rfl fun rep u => ?_
  split
  · exact within_bidOutcome u _ _
  · exact .refl _ u

theorem keepsLine_berthRequestReport : KeepsLine .berthRequestReport s := by
  refine .report (ps := [.bal]) rfl fun rep u => ?_
  split
  · exact .ite (within_bal u _) (.refl _ u)
  · exact .refl _ u

theorem keepsLine_bidDelayEnd (t : Sys2Proof.Tag) : KeepsLine (.bidDelayEnd t) s := by
  refine .event (ps := [.elapsed, .sch, .bal, .lif]) rfl fun u => ?_
  split
  · split
    · exact (within_advanceTo u _).andThen (within_endDelay _ _)
    · exact .refl _ u
  · exact .refl _ u

theorem keepsLine_windowEnd (t : Sys2Proof.Tag) : KeepsLine (.windowEnd t) s := by
  refine .event (ps := [.elapsed, .sch, .lif, .bal, .occ]) rfl fun u => ?_
  split
  · exact .ite (.refl _ u) ((within_advanceTo u _).andThen (within_endWindow _ _))
  · exact .refl _ u

theorem keepsLine_watchEnd (t : Sys2Proof.Tag) : KeepsLine (.watchEnd t) s := by
  refine .event (ps := [.elapsed, .sch, .bal, .lif]) rfl fun u => ?_
  split
  · exact .ite ((within_advanceTo u _).andThen (within_discardRound _ _)) (.refl _ u)
  · exact .refl _ u

theorem keepsLine_awaitDeadline : KeepsLine .awaitDeadline s := by
  refine .event (ps := [.elapsed, .sch, .bal]) rfl fun u => ?_
  split
  · split
    · exact (within_advanceTo u _).andThen (within_endAwait _ _)
    · exact .refl _ u
  · exact .refl _ u

/-! Stays, accounts, credentials, holds (02). -/

theorem keepsLine_book (v : BookParams) : KeepsLine (.book v) s := by
  refine .request (ps := [.occ]) rfl fun u => .decision (.refl _ u) <| .decision (.refl _ u) <|
    .decision (.refl _ u) ?_
  split
  · exact .refl _ u
  · exact within_createOcc u ‹_›

theorem keepsLine_closureCollect : KeepsLine .closureCollect s := by
  refine .request (ps := [.occ, .spc]) rfl fun u => ?_
  split
  · exact .refl _ u
  · exact (within_occ u _).andThen (within_retryClosures _)

theorem keepsLine_setPin (occ : Nat) (pin : PinField) : KeepsLine (.setPin occ pin) s := by
  refine .occRequest (ps := [.occ]) rfl fun r u => ?_
  split
  · exact .refl _ u
  · split
    · exact .refl _ u
    · exact .decision (.refl _ u) (within_modCredential u _ _)

theorem keepsLine_changePin (occ : Nat) (old new : PinField) : KeepsLine (.changePin occ old new) s := by
  refine .occRequest (ps := [.occ]) rfl fun r u => ?_
  split
  · exact .refl _ u
  · split
    · exact .refl _ u
    · exact .decision (.refl _ u) <| .decision (.refl _ u) <|
        .decision (within_modCredential u _ _) (within_wrongPin u _)

theorem keepsLine_setLimit (occ keep limit : Nat) (warn : Int) :
    KeepsLine (.setLimit occ keep limit warn) s :=
  .occRequest (ps := [.occ]) rfl fun _ u => .decision (.refl _ u)
    ((within_modAccount u _ _).trans (within_computeStanding _ _))

theorem keepsLine_holdAskFrame (src : RxSource) : KeepsLine (.holdAskFrame src) s := by
  refine .frame (ps := [.occ, .lif]) rfl fun f note u => ?_
  split
  · exact .ite (within_answerHold u _ _ _ _ _) (.refl _ u)
  · exact .refl _ u

theorem keepsLine_settleFrame (src : RxSource) : KeepsLine (.settleFrame src) s :=
  .frame (ps := [.lif, .occ, .spc]) rfl fun _ _ u =>
    (within_settleCase u _ _ _ _ _).andThen (within_queueFrame _ _)

theorem keepsLine_holdExpiry (occ hold : Nat) : KeepsLine (.holdExpiry occ hold) s := by
  refine .event (ps := [.elapsed, .sch, .occ, .spc]) rfl fun u => .ite (.refl _ u) ?_
  split
  · exact (within_advanceToTime u _).andThen (within_lapseHold _ _ _)
  · exact .refl _ u

/-! The power budget and loans (03). -/

theorem keepsLine_loanAskFrame (src : RxSource) : KeepsLine (.loanAskFrame src) s :=
  .frame (ps := [.pwb, .lif]) rfl fun _ _ u =>
    .ite (.refl _ u) (.ite (within_makeOffer u _ _ _) (.refl _ u))

theorem keepsLine_loanOfferFrame (src : RxSource) : KeepsLine (.loanOfferFrame src) s := by
  refine .frame (ps := [.pwb, .lif]) rfl fun f note u => ?_
  dsimp only
  split
  · exact .ite (.ite (.refl _ u) (within_pwb u _).widen) (within_declineOffers u _).widen
  · exact (within_declineOffers u _).widen

theorem keepsLine_loanDeclineFrame (src : RxSource) : KeepsLine (.loanDeclineFrame src) s := by
  refine .frame (ps := pwbParts) rfl fun f note u => ?_
  split
  · exact within_endPledge u _
  · exact .refl _ u

theorem keepsLine_loanVoidFrame (src : RxSource) : KeepsLine (.loanVoidFrame src) s :=
  .frame (ps := pwbParts) rfl fun _ _ u => .ite
    (((within_dropLoans u _).andThen (within_ceilingFell _) : Within pwbParts u _).andThen
      (within_setFlag _ _)) (.refl _ u)

theorem keepsLine_loanRecallFrame (src : RxSource) : KeepsLine (.loanRecallFrame src) s := by
  refine .frame (ps := pwbParts) rfl fun f note u => ?_
  dsimp only
  split
  · exact (within_queueFrame u _).widen
  · exact (((within_dropLoans u _).andThen (within_shedIfShort _) : Within pwbParts u _).andThen
      (within_queueFrame _ _) : Within pwbParts u _).andThen (within_settleSince _ _)

theorem keepsLine_loanReturnFrame (src : RxSource) : KeepsLine (.loanReturnFrame src) s := by
  refine .frame (ps := pwbParts) rfl fun f note u => ?_
  split
  · exact .ite (.refl _ u) ((within_dropLoans u _).andThen (within_settle _))
  · exact .refl _ u

theorem keepsLine_loanAskReport : KeepsLine .loanAskReport s := by
  refine .report (ps := pwbParts) rfl fun rep u => ?_
  split
  · exact .ite (.ite (within_pwb u _).widen (within_askFailed u _)) (.refl _ u)
  · exact .refl _ u

theorem keepsLine_loanOfferReport : KeepsLine .loanOfferReport s := by
  refine .report (ps := pwbParts) rfl fun rep u => .ite (.refl _ u) ?_
  split
  · exact within_endPledge u _
  · exact .refl _ u

theorem keepsLine_pledgeDeadline (partner : Nat) : KeepsLine (.pledgeDeadline partner) s := by
  refine .event (ps := .elapsed :: .sch :: pwbParts) rfl fun u => ?_
  split
  · split
    · exact (within_advanceTo u _).andThen (within_endPledge _ _)
    · exact .refl _ u
  · exact .refl _ u

theorem keepsLine_recallDeadline (partner : Nat) : KeepsLine (.recallDeadline partner) s := by
  refine .event (ps := .elapsed :: .sch :: pwbParts) rfl fun u => ?_
  split
  · have lapsed (v : State) (drop : Loan → Bool) (f : Frame) : Within pwbParts v
        (((v.dropLoans drop).queueFrame f).setFlag .recallLapsed).settle :=
      (((within_dropLoans v _).andThen (within_queueFrame _ _) : Within [.pwb, .lif] v _).andThen
        (within_setFlag _ _) : Within [.pwb, .lif] v _).andThen (within_settle _)
    exact (within_advanceTo u _).andThen (lapsed _ _ _)
  · exact .refl _ u

theorem keepsLine_collectionClose : KeepsLine .collectionClose s := by
  refine .event (ps := .elapsed :: .sch :: pwbParts) rfl fun u => ?_
  split
  · split
    · exact (within_advanceTo u _).andThen (within_closeCollection _ _)
    · exact .refl _ u
  · exact .refl _ u

/-! Service points (04). -/

theorem keepsLine_profileSet (occ g1 g2 g3 : Nat) : KeepsLine (.profileSet occ g1 g2 g3) s := by
  refine .profileRequest (ps := pwbParts) rfl fun r p q u => .decision (.refl _ u) ?_
  split
  · exact .refl _ u
  · exact within_setProfile u _ _ _ _

theorem keepsLine_outletReset (point : Nat) : KeepsLine (.outletReset point) s := by
  refine .request (ps := pwbParts) rfl fun u => .decision (.refl _ u) ?_
  split
  · exact .refl _ u
  · exact .decision (within_resetOutlet u _) (.refl _ u)

theorem keepsLine_pollCycleStart : KeepsLine .pollCycleStart s :=
  .event (ps := [.elapsed, .sch, .moments, .spc]) rfl fun u =>
    .ite (.refl _ u) ((within_advanceTo u _).andThen (within_startCycle _))

theorem keepsLine_postReport (r : PostReport) : KeepsLine (.postReport r) s := by
  refine .event (ps := pwbParts) rfl fun u => ?_
  split
  · exact .ite ((within_takeReport u _ _).andThen (within_nextPoll _)) (.refl _ u)
  · exact .refl _ u

theorem keepsLine_pollTimeout : KeepsLine .pollTimeout s := by
  refine .event (ps := [.elapsed, .sch, .moments, .lif, .spc]) rfl fun u => ?_
  split
  · exact ((within_advanceTo u _).andThen (.ite (.refl _ _) (within_badPoll _ _)) :
      Within [.elapsed, .sch, .lif, .spc] u _).andThen (within_nextPoll _)
  · exact .refl _ u

theorem keepsLine_faultGraceEnd (post : Nat) : KeepsLine (.faultGraceEnd post) s := by
  refine .event (ps := .elapsed :: .sch :: pwbParts) rfl fun u => ?_
  split
  · split
    · exact (within_advanceTo u _).andThen (within_postFails _ _)
    · exact .refl _ u
  · exact .refl _ u

/-! The fuel dock (05). -/

theorem keepsLine_pumpAuthorise (pump preset payment card : Nat) :
    KeepsLine (.pumpAuthorise pump preset payment card) s := by
  refine .request (ps := pwbParts) rfl fun u => ?_
  split
  · refine .decision (.refl _ u) ?_
    split
    · exact .refl _ u
    · split
      · exact .refl _ u
      · exact within_authorise u _ _ _ _ _
  · exact .refl _ u

theorem keepsLine_pumpSuspend (pump : Nat) : KeepsLine (.pumpSuspend pump) s := by
  refine .pumpRequest (ps := [.fdc]) rfl fun p k u => ?_
  split
  · exact .decision ((within_shutValves u _).trans (within_modSale _ _ _)) (.refl _ u)
  · exact .refl _ u

theorem keepsLine_pumpResume (pump : Nat) : KeepsLine (.pumpResume pump) s := by
  refine .pumpRequest (ps := [.fdc]) rfl fun p k u => ?_
  split
  · exact .decision ((within_modSale u _ _).trans (within_openValves _ _)) (.refl _ u)
  · exact .refl _ u

theorem keepsLine_pumpStop (pump : Nat) : KeepsLine (.pumpStop pump) s := by
  refine .pumpRequest (ps := pwbParts) rfl fun p k u => ?_
  split
  · split
    · exact within_endUnused u _ _ _
    · exact within_endUnused u _ _ _
    · exact (within_toFinishing u _).widen
    · exact (within_toFinishing u _).widen
    · exact .refl _ u
    · exact .refl _ u
  · exact .refl _ u

theorem keepsLine_journalCollect : KeepsLine .journalCollect s := by
  refine .request (ps := [.fdc]) rfl fun u => ?_
  split
  · exact .refl _ u
  · exact within_fdc u _

theorem keepsLine_holdAnswerFrame (src : RxSource) : KeepsLine (.holdAnswerFrame src) s := by
  refine .frame (ps := pwbParts) rfl fun f note u =>
    .ite (.refl _ u) (.ite (within_takeAnswer u _ _ _ _ _) (.ite ?_ (.refl _ u)))
  split
  · exact within_takeAnswer u _ _ _ _ _
  · exact .refl _ u

theorem keepsLine_settleAnswerFrame (src : RxSource) : KeepsLine (.settleAnswerFrame src) s := by
  refine .frame (ps := [.fdc]) rfl fun f note u => ?_
  split
  · exact within_settleAnswered u _ _
  · exact .refl _ u

theorem keepsLine_holdAskReport : KeepsLine .holdAskReport s := by
  refine .report (ps := pwbParts) rfl fun rep u => ?_
  split
  · exact .ite (within_modPump u _ _).widen (within_askUnanswered u _)
  · exact .refl _ u

theorem keepsLine_settleReport : KeepsLine .settleReport s := by
  refine .report (ps := [.fdc, .lif]) rfl fun rep u => ?_
  split
  · exact .ite (within_modSale u _ _).widen (within_settleUnanswered u _)
  · exact .refl _ u

theorem keepsLine_pumpPulse (pump : Nat) : KeepsLine (.pumpPulse pump) s := by
  refine .event (ps := [.fdc]) rfl fun u => ?_
  split
  · exact within_pulse u _ _
  · exact .refl _ u

theorem keepsLine_nozzleLift (pump : Nat) : KeepsLine (.nozzleLift pump) s := by
  refine .event (ps := [.cap, .fdc]) rfl fun u => ?_
  split
  · exact (within_capture u _).andThen (within_lift _ _ _)
  · exact .refl _ u

theorem keepsLine_nozzleHang (pump : Nat) : KeepsLine (.nozzleHang pump) s := by
  refine .event (ps := [.cap, .fdc]) rfl fun u => ?_
  split
  · exact (within_capture u _).andThen (within_hang _ _ _)
  · exact .refl _ u

theorem keepsLine_holdAskWaitEnd (pump : Nat) : KeepsLine (.holdAskWaitEnd pump) s := by
  refine .event (ps := .elapsed :: .sch :: pwbParts) rfl fun u => ?_
  split
  · exact (within_advanceTo u _).andThen (within_askUnanswered _ _)
  · exact .refl _ u

theorem keepsLine_settleWaitEnd (pump : Nat) : KeepsLine (.settleWaitEnd pump) s := by
  refine .event (ps := [.elapsed, .sch, .fdc, .lif]) rfl fun u => ?_
  split
  · exact (within_advanceTo u _).andThen (within_settleUnanswered _ _)
  · exact .refl _ u

/-! The gate (06). -/

theorem keepsLine_key (code : Nat) : KeepsLine (.key code) s := by
  refine .event (ps := [.occ, .gtc]) rfl fun u => ?_
  split
  · exact .ite (.refl _ u) (within_takeKey u _ _)
  · exact .refl _ u

theorem keepsLine_pinEntryTimeout : KeepsLine .pinEntryTimeout s := by
  refine .event (ps := [.elapsed, .sch, .gtc]) rfl fun u => ?_
  split
  · exact ((within_advanceTo u _).andThen (within_closeEntry _) : Within [.elapsed, .sch, .gtc] u _).andThen
      (within_refuseRead _ _ _ _ _ _)
  · exact .refl _ u

theorem keepsLine_releaseEnd : KeepsLine .releaseEnd s := by
  refine .event (ps := [.elapsed, .sch, .gtc]) rfl fun u => ?_
  split
  · exact (within_advanceTo u _).andThen (within_gtc _ _)
  · exact .refl _ u

theorem keepsLine_heldLimitEnd : KeepsLine .heldLimitEnd s := by
  refine .event (ps := [.elapsed, .sch, .gtc, .lif]) rfl fun u => ?_
  split
  · exact .ite (within_holdDoor u _) (.refl _ u)
  · exact .refl _ u

/-! Station time, schedules, capture (07). -/

theorem keepsLine_readCapture (channel edge : Nat) : KeepsLine (.readCapture channel edge) s := by
  refine .request (ps := [.cap]) rfl fun u => ?_
  split
  · exact .refl _ u
  · exact within_cap u _

theorem keepsLine_scheduleDue (place : Nat) : KeepsLine (.scheduleDue place) s := by
  refine .event (ps := [.elapsed, .sch]) rfl fun u => ?_
  split
  · split
    · exact within_dueEntry u _ _
    · exact .refl _ u
  · exact .refl _ u

/-! The pier line (08). -/

theorem keepsLine_txAttemptStart : KeepsLine .txAttemptStart s := by
  refine .event (ps := [.lif]) rfl fun u => ?_
  split
  · exact .ite (within_lif u _) (.refl _ u)
  · exact .refl _ u

theorem keepsLine_txSent : KeepsLine .txSent s := by
  refine .event (ps := [.lif]) rfl fun u => ?_
  split
  · exact within_sent u _
  · exact .refl _ u

theorem keepsLine_listenEnd : KeepsLine .listenEnd s := by
  refine .event (ps := .elapsed :: .sch :: pwbParts) rfl fun u => ?_
  split
  · exact (within_advanceTo u _).andThen (within_enterOnLine _)
  · exact .refl _ u

theorem keepsLine_silenceWatchEnd : KeepsLine .silenceWatchEnd s := by
  refine .event (ps := [.elapsed, .sch, .lif]) rfl fun u => ?_
  split
  · exact (within_advanceTo u _).andThen (within_enterJoining _ _)
  · exact .refl _ u

theorem keepsLine_joinFrame (src : RxSource) : KeepsLine (.joinFrame src) s :=
  .frame (ps := lineParts) rfl fun _ _ u => .ite (.refl _ u)
    (((within_loansOnJoin u _).andThen (within_roundsOnJoin _ _) : Within lineParts u _).andThen
      (within_receiptsOnJoin _ _))

end

/-- The case split over the commands. -/
theorem exec_keepsLine (c : Instr) (s : State) : KeepsLine c s := by
  cases c with
  | selectAssert decided => exact keepsLine_selectAssert s decided
  | requestDiscarded => exact keepsLine_requestDiscarded s
  | null => exact keepsLine_null s
  | malformedRequest code len received kind => exact keepsLine_malformedRequest s code len received kind
  | configureStation v => exact .configure rfl fun u => within_writeStation u _
  | configureBerth v => exact .configure rfl fun u => within_writeBerth u _
  | configurePoint v => exact .configure rfl fun u => within_writePoint u _
  | configureTariff set energy water => exact .configure rfl fun u => within_writeTariff u _ _
  | configurePump v => exact .configure rfl fun u => within_writePump u _
  | configureGate v => exact .configure rfl fun u => within_writeGate u _
  | configureStaff staff card pin => exact .configure rfl fun u => within_writeStaff u _ _ _
  | configureSchedule v => exact .configure rfl fun u => within_writeSchedule u _ _
  | join => exact keepsLine_join s
  | restart inp => exact keepsLine_restart s inp
  | setClock sec ms => exact .request rfl fun u => .decision (.refl _ u) (within_setClock u _ _)
  | tariffSelect set => exact .request rfl fun u => .decision (within_useTariff u _) (.refl _ u)
  | readStation => exact .read rfl
  | flagsRead => exact .read rfl
  | flagsClear mask => exact keepsLine_flagsClear s mask
  | flagsSetup enables keep l threshold => exact keepsLine_flagsSetup s enables keep l threshold
  | requestBerth r => exact keepsLine_requestBerth s r
  | readRound n => exact .read rfl
  | readBerth berth night => exact .read rfl
  | book v => exact keepsLine_book s v
  | cancel occ => exact .occRequest rfl fun _ u => .decision (within_removeOcc u _) (.refl _ u)
  | arrive occ => exact .occRequest rfl fun _ u => .decision (within_toAlongside u _) (.refl _ u)
  | depart occ => exact .occRequest rfl fun _ u => .decision (within_toDeparting u _) (.refl _ u)
  | readOccupancy occ => exact .occRequest rfl fun _ u => .refl [] u
  | closureRead => exact .read rfl
  | closureCollect => exact keepsLine_closureCollect s
  | bindCard occ card =>
    exact .request rfl fun u => .decision (.refl _ u) <| .decision (.refl _ u) <|
      .decision (.refl _ u) (within_bindCard u _ _)
  | setPin occ pin => exact keepsLine_setPin s occ pin
  | changePin occ old new => exact keepsLine_changePin s occ old new
  | clearPin occ => exact .occRequest rfl fun _ u => .decision (.refl _ u) (within_modCredential u _ _)
  | unlock occ => exact .occRequest rfl fun _ u => .decision (.refl _ u) (within_modCredential u _ _)
  | topUp occ amount => exact .occRequest rfl fun _ u => .decision (.refl _ u) (within_topUp u _ _ _)
  | setLimit occ keep limit warn => exact keepsLine_setLimit s occ keep limit warn
  | bar occ => exact .occRequest rfl fun _ u => .decision (.refl _ u) (within_enterBarred u _)
  | unbar occ =>
    exact .occRequest rfl fun _ u => .decision (.refl _ u) <| .decision (.refl _ u) (within_leaveBarred u _)
  | readLoans => exact .read rfl
  | readPoint point => exact .read rfl
  | profileCheck occ g1 g2 g3 => exact .profileRequest rfl fun _ _ _ u => .refl [] u
  | profileSet occ g1 g2 g3 => exact keepsLine_profileSet s occ g1 g2 g3
  | outletReset point => exact keepsLine_outletReset s point
  | pumpAuthorise pump preset payment card => exact keepsLine_pumpAuthorise s pump preset payment card
  | pumpSuspend pump => exact keepsLine_pumpSuspend s pump
  | pumpResume pump => exact keepsLine_pumpResume s pump
  | pumpStop pump => exact keepsLine_pumpStop s pump
  | readPump pump => exact .pumpRequest rfl fun _ _ u => .refl [] u
  | journalRead => exact .read rfl
  | journalCollect => exact keepsLine_journalCollect s
  | gateOpen => exact .request rfl fun u => within_releaseLatch u
  | gateMode mode => exact .request rfl fun u => .decision (within_gateMode u _) (.refl _ u)
  | readCapture channel edge => exact keepsLine_readCapture s channel edge
  | frameHeard f => exact .event rfl fun u => .ite (within_hear u _) (.refl _ u)
  | txAttemptStart => exact keepsLine_txAttemptStart s
  | txSent => exact keepsLine_txSent s
  | txContentionLost => exact .event rfl fun u => within_lif u _
  | txError => exact .event rfl fun u => .ite (within_countError u) (.refl _ u)
  | lineActivity => exact .event rfl fun u => .ite (within_lif u _) (.refl _ u)
  | listenEnd => exact keepsLine_listenEnd s
  | silenceWatchEnd => exact keepsLine_silenceWatchEnd s
  | berthRequestFrame src => exact .frame rfl fun _ _ u => within_takeBerthRequest u _ _
  | bidFrame src => exact keepsLine_bidFrame s src
  | assignFrame src => exact keepsLine_assignFrame s src
  | loanAskFrame src => exact keepsLine_loanAskFrame s src
  | loanOfferFrame src => exact keepsLine_loanOfferFrame s src
  | loanTakeFrame src => exact .frame rfl fun _ _ u => within_takeLoan u _ _ _
  | loanDeclineFrame src => exact keepsLine_loanDeclineFrame s src
  | loanVoidFrame src => exact keepsLine_loanVoidFrame s src
  | loanRecallFrame src => exact keepsLine_loanRecallFrame s src
  | loanReturnFrame src => exact keepsLine_loanReturnFrame s src
  | holdAskFrame src => exact keepsLine_holdAskFrame s src
  | holdAnswerFrame src => exact keepsLine_holdAnswerFrame s src
  | settleFrame src => exact keepsLine_settleFrame s src
  | settleAnswerFrame src => exact keepsLine_settleAnswerFrame s src
  | cardBindFrame src =>
    exact .frame (ps := [.occ]) rfl fun _ _ u => .ite (.refl _ u) <|
      .ite (within_setFlag u _).widen (within_bindCard u _ _)
  | joinFrame src => exact keepsLine_joinFrame s src
  | timeFrame src => exact .frame rfl fun _ _ u => .ite (within_setClock u _ _) (.refl _ u)
  | bidReport => exact keepsLine_bidReport s
  | berthRequestReport => exact keepsLine_berthRequestReport s
  | assignReport => exact .report rfl fun _ u => .refl [] u
  | loanAskReport => exact keepsLine_loanAskReport s
  | loanOfferReport => exact keepsLine_loanOfferReport s
  | loanTakeReport => exact .report rfl fun _ u => .ite (.refl _ u) (within_undoTake u _ _ _)
  | holdAskReport => exact keepsLine_holdAskReport s
  | settleReport => exact keepsLine_settleReport s
  | bidDelayEnd tag => exact keepsLine_bidDelayEnd s tag
  | windowEnd tag => exact keepsLine_windowEnd s tag
  | watchEnd tag => exact keepsLine_watchEnd s tag
  | awaitDeadline => exact keepsLine_awaitDeadline s
  | holdExpiry occ hold => exact keepsLine_holdExpiry s occ hold
  | pledgeDeadline partner => exact keepsLine_pledgeDeadline s partner
  | recallDeadline partner => exact keepsLine_recallDeadline s partner
  | collectionClose => exact keepsLine_collectionClose s
  | pollCycleStart => exact keepsLine_pollCycleStart s
  | postReport r => exact keepsLine_postReport s r
  | pollTimeout => exact keepsLine_pollTimeout s
  | faultGraceEnd post => exact keepsLine_faultGraceEnd s post
  | alongsideNotice occ => exact .notice rfl fun _ n r u => within_spcArrive u n r
  | departingNotice occ => exact .notice rfl fun m n _ u => within_spcDepart u n occ m
  | barredNotice occ => exact .notice rfl fun _ n r u => within_spcBar u n r
  | unbarredNotice occ => exact .notice rfl fun _ n r u => within_spcUnbar u n r
  | pumpPulse pump => exact keepsLine_pumpPulse s pump
  | nozzleLift pump => exact keepsLine_nozzleLift s pump
  | nozzleHang pump => exact keepsLine_nozzleHang s pump
  | authorisationTimeout pump =>
    exact .of_within rfl (within_saleTimer s _ _ fun u => within_endUnused u _ _ _)
  | suspendLimitEnd pump =>
    exact .of_within rfl (within_saleTimer s _ _ fun u =>
      (within_flagRecord u _ _).trans (within_toFinishing _ _))
  | runOnEnd pump => exact .of_within rfl (within_saleTimer s _ _ fun u => within_finishSale u _)
  | holdAskWaitEnd pump => exact keepsLine_holdAskWaitEnd s pump
  | settleWaitEnd pump => exact keepsLine_settleWaitEnd s pump
  | emergencyPress => exact .edge rfl emergencyPress_captures
  | emergencyRelease => exact .edge rfl emergencyRelease_captures
  | cardRead card check => exact .event rfl fun u => .ite (.refl _ u) (within_takeRead u _ _)
  | key code => exact keepsLine_key s code
  | pinEntryTimeout => exact keepsLine_pinEntryTimeout s
  | readerFrameTimeout bytes => exact .of_within rfl (.refl [] s)
  | releaseEnd => exact keepsLine_releaseEnd s
  | exitButtonPress => exact .event rfl within_releaseLatch
  | doorOpenEdge => exact .edge rfl doorOpenEdge_captures
  | doorShutEdge => exact .edge rfl doorShutEdge_captures
  | heldLimitEnd => exact keepsLine_heldLimitEnd s
  | scheduleDue place => exact keepsLine_scheduleDue s place
  | nightOn => exact .of_within rfl (within_takeAndFire s _ fun u => within_setNight u _)
  | nightOff => exact .of_within rfl (within_takeAndFire s _ fun u => within_setNight u _)
  | lockdownOn => exact .of_within rfl (within_takeAndFire s _ fun u => within_setLockdown u _)
  | lockdownOff => exact .of_within rfl (within_takeAndFire s _ fun u => within_setLockdown u _)
  | tariff1 => exact .of_within rfl (within_takeAndFire s _ fun u => within_useTariff u _)
  | tariff2 => exact .of_within rfl (within_takeAndFire s _ fun u => within_useTariff u _)
  | dayRoll => exact .of_within rfl (within_takeAndFire s _ fun u => .ite (.refl _ u) (within_dayRoll u))
  | clockWrap => exact .of_within rfl (within_wrapClock s)
  | powerUp inp backupHeld storeAgrees => exact keepsLine_powerUp s inp backupHeld storeAgrees
  | powerFail => exact keepsLine_powerFail s

/-- Settles O56: a step takes the command at the front of the queue or lets a microsecond pass, and either
keeps the line at the pending flags. -/
theorem attentionFollowsThePendingFlags : Obligations.AttentionFollowsThePendingFlags := by
  intro s t sound steps
  unfold step at steps
  split at steps
  next c rest _ =>
    obtain ⟨u, runs, keeps⟩ := exec_keepsLine c { s with pending := rest }
    obtain rfl : u = t := Host.Outcome.next.inj (runs.symm.trans steps)
    exact keeps sound
  next =>
    obtain rfl : s.advance 1 = t := Host.Outcome.next.inj steps
    exact (within_advance s 1).attention sound

end Sys2Proof.Machine
end

section
/-! PROOFS. What every command comes to (R181, R185, R207): a request that PNP takes whole and one block
decides, an event that is taken with power alone, or one of the nine commands of the port and the supply. Each
lemma says what the deciding block can change and that its reply names a cause exactly where it refuses. -/

namespace Sys2Proof.Machine

set_option Elab.async false

/-! ### What a block's decision leaves of PNP -/

/-- A reply gives a cause exactly where it refuses (R185). -/
def Reply.Sound (r : Reply) : Prop := r.result = .refused ↔ r.cause.isSome = true

@[simp] theorem Reply.sound_done (d : List Datum) : (Reply.done d).Sound := by simp [Sound, done]
@[simp] theorem Reply.sound_doneClamped (b : Bool) : (Reply.doneClamped b).Sound := by
  simp [Sound, doneClamped]
@[simp] theorem Reply.sound_accepted (b : Bool) (d : List Datum) : (Reply.accepted b d).Sound := by
  simp [Sound, accepted]
@[simp] theorem Reply.sound_ignored : Reply.ignored.Sound := by simp [Sound, ignored]
@[simp] theorem Reply.sound_refused (c : Cause) : (Reply.refused c).Sound := by simp [Sound, refused]
@[simp] theorem Reply.sound_refusedWith (c : Cause) (d : List Datum) : (Reply.refusedWith c d).Sound := by
  simp [Sound, refusedWith]

/-- A decision that changes the parts listed, and of PNP neither the answer number nor the request held. -/
structure Decides (ps : List Part) (u : State) (x : State × Reply) : Prop where
  frame       : OnlyChanges (.pnp :: ps) u x.1
  answerNo    : x.1.pnp.answerNo = u.pnp.answerNo
  transaction : x.1.pnp.transaction = u.pnp.transaction
  held        : x.1.pnp.request = u.pnp.request
  reply       : x.2.Sound

namespace Decides

variable {ps : List Part} {u v : State} {x y : State × Reply}

theorem of {r : Reply} (h : Within ps u v) (hr : r.Sound := by simp) : Decides ps u (v, r) := by
  obtain same | ⟨m, flagged⟩ := h.port
  · exact ⟨h.frame, by rw [same], by rw [same], by rw [same], hr⟩
  · exact ⟨h.frame, by rw [flagged]; rfl, by rw [flagged]; rfl, by rw [flagged]; rfl, hr⟩

theorem stay {r : Reply} (hr : r.Sound := by simp) : Decides ps u (u, r) := of (.refl ps u) hr

theorem ite {c : Prop} [Decidable c] (h : Decides ps u x) (g : Decides ps u y) :
    Decides ps u (if c then x else y) := by
  split
  · exact h
  · exact g

end Decides

/-! ### Requests and events -/

/-- The commands of the port and the supply, which are neither a request a block decides nor an event. -/
def ofPortOrSupply : Instr → Bool
  | .selectAssert _ | .requestDiscarded | .null | .malformedRequest _ _ _ _ | .restart _
  | .readerFrameTimeout _ | .clockWrap | .powerUp _ _ _ | .powerFail => true
  | _ => false

/-- A command is a request that one block decides, or an event, within the parts it may change. -/
inductive Acts (c : Instr) (s : State) : Prop
  | asks (code : Nat) (ps : List Part) (body : State → State × Reply) (ofCode : requestCode c = some code)
      (runs : exec c s = .next (s.request code body)) (decides : ∀ u, Decides ps u (body u))
      (parts : .pnp :: ps ⊆ mayChange c)
  | happens (body : State → State) (noRequest : requestCode c = none)
      (runs : exec c s = .next (s.event body)) (frame : ∀ u, OnlyChanges (mayChange c) u (body u))

namespace Acts

variable {ps : List Part} {c : Instr} {s : State}

theorem request {code : Nat} {body : State → State × Reply} (runs : exec c s = .next (s.request code body))
    (h : ∀ u, Decides ps u (body u)) (ofCode : requestCode c = some code := by rfl)
    (parts : .pnp :: ps ⊆ mayChange c := by simp [mayChange, pwbParts]) : Acts c s :=
  .asks code ps body ofCode runs h parts

theorem read {code : Nat} {body : State → Reply} (runs : exec c s = .next (s.readRequest code body))
    (h : ∀ u, (body u).Sound) (ofCode : requestCode c = some code := by rfl)
    (parts : [.pnp] ⊆ mayChange c := by simp [mayChange]) : Acts c s :=
  request runs (fun u => .stay (h u)) ofCode parts

theorem configure {ok clamped : Bool} {write : State → State}
    (runs : exec c s = .next (s.configure ok clamped write)) (h : ∀ u, Within ps u (write u))
    (ofCode : requestCode c = some 1 := by rfl)
    (parts : .pnp :: ps ⊆ mayChange c := by simp [mayChange]) : Acts c s :=
  request runs (fun u => .ite .stay (.ite .stay (.of (h u)))) ofCode parts

theorem occRequest {code n : Nat} {body : Occupancy → State → State × Reply}
    (runs : exec c s = .next (s.occRequest code n body)) (h : ∀ r u, Decides ps u (body r u))
    (ofCode : requestCode c = some code := by rfl)
    (parts : .pnp :: ps ⊆ mayChange c := by simp [mayChange]) : Acts c s := by
  refine request runs (fun u => .ite .stay ?_) ofCode parts
  split
  · exact .stay
  · exact h _ u

theorem profileRequest {code n : Nat} {body : Occupancy → Point → Profile → State → State × Reply}
    (runs : exec c s = .next (s.profileRequest code n body)) (h : ∀ r p q u, Decides ps u (body r p q u))
    (ofCode : requestCode c = some code := by rfl)
    (parts : .pnp :: ps ⊆ mayChange c := by simp [mayChange]) : Acts c s := by
  refine occRequest (ps := ps) runs (fun r u => ?_) ofCode parts
  split
  · exact h _ _ _ u
  · exact .stay

theorem pumpRequest {code n : Nat} {body : Pump → PumpConfig → State → State × Reply}
    (runs : exec c s = .next (s.pumpRequest code n body)) (h : ∀ p k u, Decides ps u (body p k u))
    (ofCode : requestCode c = some code := by rfl)
    (parts : .pnp :: ps ⊆ mayChange c := by simp [mayChange]) : Acts c s := by
  refine request (ps := ps) runs (fun u => ?_) ofCode parts
  split
  · exact .stay
  · split
    · exact .stay
    · exact h _ _ u

/-! The kinds of event: `h` says what the block that takes it can change. -/

theorem event {body : State → State} (runs : exec c s = .next (s.event body))
    (h : ∀ u, Within ps u (body u)) (noRequest : requestCode c = none := by rfl)
    (parts : .pnp :: ps ⊆ mayChange c := by simp [mayChange, pwbParts, lineParts]) : Acts c s :=
  .happens body noRequest runs fun u => (h u).frame.mono parts

/-- An event that sets no flag. -/
theorem quietly {body : State → State} (runs : exec c s = .next (s.event body))
    (h : ∀ u, Within ps u (body u)) (pnp : ∀ u, (body u).pnp = u.pnp)
    (noRequest : requestCode c = none := by rfl)
    (parts : ps ⊆ mayChange c := by simp [mayChange]) : Acts c s := by
  refine .happens body noRequest runs fun u p hp => ?_
  by_cases port : p = .pnp
  · subst port
    exact pnp u
  · have outside : p ∉ ps := fun hq => hp (parts hq)
    exact (h u).frame p (by simp [port, outside])

theorem frame {kind : Nat} {src : RxSource} {body : Frame → Option Nat → State → State}
    (runs : exec c s = .next (s.frameEvent kind src body)) (h : ∀ f n u, Within ps u (body f n u))
    (noRequest : requestCode c = none := by rfl)
    (parts : .pnp :: .lif :: ps ⊆ mayChange c := by simp [mayChange, pwbParts, lineParts]) : Acts c s := by
  refine event (ps := .lif :: ps) runs (fun u => ?_) noRequest parts
  split
  · exact ((State.takeRx_frame ‹_›).mono (by simp)).trans ((h _ _ _).mono (by simp))
  · exact .refl _ u

theorem report {kind : Nat} {body : Report → State → State}
    (runs : exec c s = .next (s.reportEvent kind body)) (h : ∀ r u, Within ps u (body r u))
    (noRequest : requestCode c = none := by rfl)
    (parts : .pnp :: .lif :: ps ⊆ mayChange c := by simp [mayChange, pwbParts]) : Acts c s := by
  refine event (ps := .lif :: ps) runs (fun u => ?_) noRequest parts
  split
  · exact ((within_lif u _).mono (by simp)).trans ((h _ _).mono (by simp))
  · exact .refl _ u

theorem quietReport {kind : Nat} {body : Report → State → State}
    (runs : exec c s = .next (s.reportEvent kind body)) (h : ∀ r u, Within ps u (body r u))
    (pnp : ∀ r u, (body r u).pnp = u.pnp) (noRequest : requestCode c = none := by rfl)
    (parts : .lif :: ps ⊆ mayChange c := by simp [mayChange]) : Acts c s := by
  refine quietly (ps := .lif :: ps) runs (fun u => ?_) (fun u => ?_) noRequest parts
  · split
    · exact ((within_lif u _).mono (by simp)).trans ((h _ _).mono (by simp))
    · exact .refl _ u
  · split
    · exact pnp _ _
    · rfl

theorem notice {k : NoticeKind} {occ : Nat} {body : FinalMark → Nat → Occupancy → State → State}
    (runs : exec c s = .next (s.noticeEvent k occ body)) (h : ∀ m n r u, Within pwbParts u (body m n r u))
    (noRequest : requestCode c = none := by rfl)
    (parts : .pnp :: pwbParts ⊆ mayChange c := by simp [mayChange, pwbParts]) : Acts c s := by
  refine event (ps := pwbParts) runs (fun u => ?_) noRequest parts
  split
  · refine .ite ?_ (.refl _ u)
    dsimp only
    have dropped (o : Occ) : Within pwbParts u { u with occ := o } := (within_occ u o).widen
    split
    · split
      · exact (dropped _).trans (h _ _ _ _)
      · exact dropped _
    · exact dropped _
  · exact .refl _ u

/-- A sale's timer lets time run on to its end, and then does what follows it (log 2). -/
theorem saleTimer {n : Nat} {st : SaleState} {body : State → State}
    (runs : exec c s = .next (s.saleTimer n st body)) (h : ∀ u, Within ps u (body u))
    (noRequest : requestCode c = none := by rfl)
    (parts : .pnp :: .elapsed :: .sch :: ps ⊆ mayChange c := by simp [mayChange, pwbParts]) : Acts c s := by
  refine event (ps := .elapsed :: .sch :: ps) runs (fun u => ?_) noRequest parts
  split
  · split
    · exact .ite (((within_advanceTo u _).mono (by simp)).trans ((h _).mono (by simp))) (.refl _ u)
    · exact .refl _ u
  · exact .refl _ u

theorem firing {k : ScheduleKind} {act : State → State} (runs : exec c s = .next (s.takeAndFire k act))
    (h : ∀ u, Within ps u (act u)) (pnp : ∀ u, (act u).pnp = u.pnp)
    (noRequest : requestCode c = none := by rfl)
    (parts : .sch :: ps ⊆ mayChange c := by simp [mayChange]) : Acts c s := by
  refine quietly (ps := .sch :: ps) runs
    (fun u => ((within_takeFiring u k).mono (by simp)).trans ((h _).mono (by simp)))
    (fun u => (pnp _).trans ?_) noRequest parts
  unfold State.takeFiring
  split <;> rfl

end Acts

section
variable (s : State)

/-! ### Berths and the contest (01) -/

theorem acts_requestBerth (r : BerthRequest) : Acts (.requestBerth r) s :=
  .request (ps := [.bal, .lif]) rfl fun u => .ite .stay <| .ite .stay <| .ite .stay <| .ite .stay
    (.of (within_originate u _ _))

theorem acts_readRound (n : Nat) : Acts (.readRound n) s := by
  refine .read rfl fun u => ?_
  split
  · simp
  · split <;> simp

theorem acts_readBerth (berth night : Nat) : Acts (.readBerth berth night) s := by
  refine .read rfl fun u => ?_
  split
  · simp
  · split <;> simp

theorem acts_bidFrame (src : RxSource) : Acts (.bidFrame src) s := by
  refine .frame (ps := [.bal, .lif]) rfl fun f note u => ?_
  split
  · exact .ite (within_hearKey u _ _) (.refl _ u)
  · exact .refl _ u

theorem acts_assignFrame (src : RxSource) : Acts (.assignFrame src) s :=
  .frame (ps := [.lif, .bal, .occ, .spc]) rfl fun _ _ u =>
    (within_assignRound u _ _).andThen (within_awaitHear _ _ _)

theorem bidOutcome_pnp (r : Round) (sent : Bool) : (s.bidOutcome r sent).pnp = s.pnp := by
  unfold State.bidOutcome
  split
  · rfl
  · split <;> rfl

theorem acts_bidReport : Acts .bidReport s := by
  refine .quietReport (ps := [.bal]) rfl (fun rep u => ?_) fun rep u => ?_
  · split
    · exact within_bidOutcome u _ _
    · exact .refl _ u
  · split
    · exact bidOutcome_pnp u _ _
    · rfl

theorem acts_berthRequestReport : Acts .berthRequestReport s := by
  refine .quietReport (ps := [.bal]) rfl (fun rep u => ?_) fun rep u => ?_
  · split
    · exact .ite (within_bal u _) (.refl _ u)
    · exact .refl _ u
  · split
    · split <;> rfl
    · rfl

theorem acts_bidDelayEnd (t : Sys2Proof.Tag) : Acts (.bidDelayEnd t) s := by
  refine .event (ps := [.elapsed, .sch, .bal, .lif]) rfl fun u => ?_
  split
  · split
    · exact (within_advanceTo u _).andThen (within_endDelay _ _)
    · exact .refl _ u
  · exact .refl _ u

theorem acts_windowEnd (t : Sys2Proof.Tag) : Acts (.windowEnd t) s := by
  refine .event (ps := [.elapsed, .sch, .lif, .bal, .occ]) rfl fun u => ?_
  split
  · exact .ite (.refl _ u) ((within_advanceTo u _).andThen (within_endWindow _ _))
  · exact .refl _ u

theorem discardRound_pnp (r : Round) : (s.discardRound r).pnp = s.pnp := by
  have bid : (s.withdrawBid r).pnp = s.pnp := by
    unfold State.withdrawBid
    split
    · exact withdrawFrame_pnp s _
    · rfl
  simpa [State.discardRound] using bid

theorem acts_watchEnd (t : Sys2Proof.Tag) : Acts (.watchEnd t) s := by
  refine .quietly (ps := [.elapsed, .sch, .bal, .lif]) rfl (fun u => ?_) fun u => ?_
  · split
    · exact .ite ((within_advanceTo u _).andThen (within_discardRound _ _)) (.refl _ u)
    · exact .refl _ u
  · split
    · split
      · simp [discardRound_pnp]
      · rfl
    · rfl

theorem acts_awaitDeadline : Acts .awaitDeadline s := by
  refine .event (ps := [.elapsed, .sch, .bal]) rfl fun u => ?_
  split
  · split
    · exact (within_advanceTo u _).andThen (within_endAwait _ _)
    · exact .refl _ u
  · exact .refl _ u

/-! ### Stays, accounts, credentials, holds (02) -/

theorem acts_book (v : BookParams) : Acts (.book v) s := by
  refine .request (ps := [.occ]) rfl fun u => .ite .stay <| .ite .stay <| .ite .stay ?_
  split
  · exact .stay
  · exact .of (within_createOcc u ‹_›)

theorem acts_closureCollect : Acts .closureCollect s := by
  refine .request (ps := [.occ, .spc]) rfl fun u => ?_
  split
  · exact .stay
  · exact .of ((within_occ u _).andThen (within_retryClosures _))

theorem acts_setPin (occ : Nat) (pin : PinField) : Acts (.setPin occ pin) s := by
  refine .occRequest (ps := [.occ]) rfl fun r u => ?_
  split
  · exact .stay
  · split
    · exact .stay
    · exact .ite .stay (.of (within_modCredential u _ _))

theorem acts_changePin (occ : Nat) (old new : PinField) : Acts (.changePin occ old new) s := by
  refine .occRequest (ps := [.occ]) rfl fun r u => ?_
  split
  · exact .stay
  · split
    · exact .stay
    · exact .ite .stay <| .ite .stay <|
        .ite (.of (within_modCredential u _ _)) (.of (within_wrongPin u _))

theorem acts_setLimit (occ keep limit : Nat) (warn : Int) : Acts (.setLimit occ keep limit warn) s :=
  .occRequest (ps := [.occ]) rfl fun _ u => .ite .stay
    (.of ((within_modAccount u _ _).trans (within_computeStanding _ _)))

theorem acts_holdAskFrame (src : RxSource) : Acts (.holdAskFrame src) s := by
  refine .frame (ps := [.occ, .lif]) rfl fun f note u => ?_
  split
  · exact .ite (within_answerHold u _ _ _ _ _) (.refl _ u)
  · exact .refl _ u

theorem acts_settleFrame (src : RxSource) : Acts (.settleFrame src) s :=
  .frame (ps := [.lif, .occ, .spc]) rfl fun _ _ u =>
    (within_settleCase u _ _ _ _ _).andThen (within_queueFrame _ _)

theorem acts_holdExpiry (occ hold : Nat) : Acts (.holdExpiry occ hold) s := by
  refine .event (ps := [.elapsed, .sch, .occ, .spc]) rfl fun u => .ite (.refl _ u) ?_
  split
  · exact (within_advanceToTime u _).andThen (within_lapseHold _ _ _)
  · exact .refl _ u

/-! ### The power budget and loans (03) -/

theorem acts_loanAskFrame (src : RxSource) : Acts (.loanAskFrame src) s :=
  .frame (ps := [.pwb, .lif]) rfl fun _ _ u =>
    .ite (.refl _ u) (.ite (within_makeOffer u _ _ _) (.refl _ u))

theorem acts_loanOfferFrame (src : RxSource) : Acts (.loanOfferFrame src) s := by
  refine .frame (ps := [.pwb, .lif]) rfl fun f note u => ?_
  dsimp only
  split
  · exact .ite (.ite (.refl _ u) (within_pwb u _).widen) (within_declineOffers u _).widen
  · exact (within_declineOffers u _).widen

theorem acts_loanDeclineFrame (src : RxSource) : Acts (.loanDeclineFrame src) s := by
  refine .frame (ps := pwbParts) rfl fun f note u => ?_
  split
  · exact within_endPledge u _
  · exact .refl _ u

theorem acts_loanVoidFrame (src : RxSource) : Acts (.loanVoidFrame src) s :=
  .frame (ps := pwbParts) rfl fun _ _ u => .ite
    (((within_dropLoans u _).andThen (within_ceilingFell _) : Within pwbParts u _).andThen
      (within_setFlag _ _)) (.refl _ u)

theorem acts_loanRecallFrame (src : RxSource) : Acts (.loanRecallFrame src) s := by
  refine .frame (ps := pwbParts) rfl fun f note u => ?_
  dsimp only
  split
  · exact (within_queueFrame u _).widen
  · exact (((within_dropLoans u _).andThen (within_shedIfShort _) : Within pwbParts u _).andThen
      (within_queueFrame _ _) : Within pwbParts u _).andThen (within_settleSince _ _)

theorem acts_loanReturnFrame (src : RxSource) : Acts (.loanReturnFrame src) s := by
  refine .frame (ps := pwbParts) rfl fun f note u => ?_
  split
  · exact .ite (.refl _ u) ((within_dropLoans u _).andThen (within_settle _))
  · exact .refl _ u

theorem acts_loanAskReport : Acts .loanAskReport s := by
  refine .report (ps := pwbParts) rfl fun rep u => ?_
  split
  · exact .ite (.ite (within_pwb u _).widen (within_askFailed u _)) (.refl _ u)
  · exact .refl _ u

theorem acts_loanOfferReport : Acts .loanOfferReport s := by
  refine .report (ps := pwbParts) rfl fun rep u => .ite (.refl _ u) ?_
  split
  · exact within_endPledge u _
  · exact .refl _ u

theorem acts_pledgeDeadline (partner : Nat) : Acts (.pledgeDeadline partner) s := by
  refine .event (ps := .elapsed :: .sch :: pwbParts) rfl fun u => ?_
  split
  · split
    · exact (within_advanceTo u _).andThen (within_endPledge _ _)
    · exact .refl _ u
  · exact .refl _ u

theorem within_recallLapse (drop : Loan → Bool) (f : Frame) :
    Within pwbParts s (((s.dropLoans drop).queueFrame f).setFlag .recallLapsed).settle :=
  (((within_dropLoans s _).andThen (within_queueFrame _ _) : Within [.pwb, .lif] s _).andThen
    (within_setFlag _ _) : Within [.pwb, .lif] s _).andThen (within_settle _)

theorem acts_recallDeadline (partner : Nat) : Acts (.recallDeadline partner) s := by
  refine .event (ps := .elapsed :: .sch :: pwbParts) rfl fun u => ?_
  split
  · exact (within_advanceTo u _).andThen (within_recallLapse _ _ _)
  · exact .refl _ u

theorem acts_collectionClose : Acts .collectionClose s := by
  refine .event (ps := .elapsed :: .sch :: pwbParts) rfl fun u => ?_
  split
  · split
    · exact (within_advanceTo u _).andThen (within_closeCollection _ _)
    · exact .refl _ u
  · exact .refl _ u

/-! ### Service points (04) -/

theorem acts_readPoint (point : Nat) : Acts (.readPoint point) s := by
  refine .read rfl fun u => ?_
  split
  · simp
  · split <;> simp

theorem setProfile_decides (occ : Nat) (p : Point) (old new : Profile) :
    Decides pwbParts s (s.setProfile occ p old new) :=
  .ite (.ite .stay (.of (within_beginRaise s _ _ _))) (.of (within_applyProfile s _ _ _))

theorem acts_profileSet (occ g1 g2 g3 : Nat) : Acts (.profileSet occ g1 g2 g3) s := by
  refine .profileRequest (ps := pwbParts) rfl fun r p q u => .ite .stay ?_
  split
  · exact .stay
  · exact setProfile_decides u _ _ _ _

theorem acts_outletReset (point : Nat) : Acts (.outletReset point) s := by
  refine .request (ps := pwbParts) rfl fun u => .ite .stay ?_
  split
  · exact .stay
  · exact .ite (.of (within_resetOutlet u _)) .stay

theorem nextPoll_pnp : s.nextPoll.pnp = s.pnp := by
  unfold State.nextPoll
  split <;> rfl

theorem acts_pollCycleStart : Acts .pollCycleStart s := by
  refine .quietly (ps := [.elapsed, .sch, .moments, .spc]) rfl (fun u =>
    .ite (.refl _ u) ((within_advanceTo u _).andThen (within_startCycle _))) fun u => ?_
  split
  · rfl
  · exact (nextPoll_pnp _).trans (advanceTo_pnp u _)

theorem acts_postReport (r : PostReport) : Acts (.postReport r) s := by
  refine .event (ps := pwbParts) rfl fun u => ?_
  split
  · exact .ite ((within_takeReport u _ _).andThen (within_nextPoll _)) (.refl _ u)
  · exact .refl _ u

theorem acts_pollTimeout : Acts .pollTimeout s := by
  refine .event (ps := [.elapsed, .sch, .moments, .lif, .spc]) rfl fun u => ?_
  split
  · exact ((within_advanceTo u _).andThen (.ite (.refl _ _) (within_badPoll _ _)) :
      Within [.elapsed, .sch, .lif, .spc] u _).andThen (within_nextPoll _)
  · exact .refl _ u

theorem acts_faultGraceEnd (post : Nat) : Acts (.faultGraceEnd post) s := by
  refine .event (ps := .elapsed :: .sch :: pwbParts) rfl fun u => ?_
  split
  · split
    · exact (within_advanceTo u _).andThen (within_postFails _ _)
    · exact .refl _ u
  · exact .refl _ u

/-! ### The fuel dock (05) -/

theorem acts_pumpAuthorise (pump preset payment card : Nat) :
    Acts (.pumpAuthorise pump preset payment card) s := by
  refine .request (ps := pwbParts) rfl fun u => ?_
  split
  · refine .ite .stay ?_
    split
    · exact .stay
    · split
      · exact .stay
      · exact .of (within_authorise u _ _ _ _ _)
  · exact .stay

theorem acts_pumpSuspend (pump : Nat) : Acts (.pumpSuspend pump) s := by
  refine .pumpRequest (ps := [.fdc]) rfl fun p k u => ?_
  split
  · exact .ite (.of ((within_shutValves u _).trans (within_modSale _ _ _))) .stay
  · exact .stay

theorem acts_pumpResume (pump : Nat) : Acts (.pumpResume pump) s := by
  refine .pumpRequest (ps := [.fdc]) rfl fun p k u => ?_
  split
  · exact .ite (.of ((within_modSale u _ _).trans (within_openValves _ _))) .stay
  · exact .stay

theorem acts_pumpStop (pump : Nat) : Acts (.pumpStop pump) s := by
  refine .pumpRequest (ps := pwbParts) rfl (fun p k u => ?_) rfl (by simp [mayChange])
  split
  · split
    · exact .of (within_endUnused u _ _ _)
    · exact .of (within_endUnused u _ _ _)
    · exact .of (within_toFinishing u _).widen
    · exact .of (within_toFinishing u _).widen
    · exact .stay
    · exact .stay
  · exact .stay

theorem acts_journalCollect : Acts .journalCollect s := by
  refine .request (ps := [.fdc]) rfl fun u => ?_
  split
  · exact .stay
  · exact .of (within_fdc u _)

theorem acts_holdAnswerFrame (src : RxSource) : Acts (.holdAnswerFrame src) s := by
  refine .frame (ps := pwbParts) rfl fun f note u =>
    .ite (.refl _ u) (.ite (within_takeAnswer u _ _ _ _ _) (.ite ?_ (.refl _ u)))
  split
  · exact within_takeAnswer u _ _ _ _ _
  · exact .refl _ u

theorem acts_settleAnswerFrame (src : RxSource) : Acts (.settleAnswerFrame src) s := by
  refine .frame (ps := [.fdc]) rfl fun f note u => ?_
  split
  · exact within_settleAnswered u _ _
  · exact .refl _ u

theorem acts_holdAskReport : Acts .holdAskReport s := by
  refine .report (ps := pwbParts) rfl fun rep u => ?_
  split
  · exact .ite (within_modPump u _ _).widen (within_askUnanswered u _)
  · exact .refl _ u

theorem acts_settleReport : Acts .settleReport s := by
  refine .report (ps := [.fdc, .lif]) rfl fun rep u => ?_
  split
  · exact .ite (within_modSale u _ _).widen (within_settleUnanswered u _)
  · exact .refl _ u

theorem acts_pumpPulse (pump : Nat) : Acts (.pumpPulse pump) s := by
  refine .event (ps := [.fdc]) rfl fun u => ?_
  split
  · exact within_pulse u _ _
  · exact .refl _ u

theorem acts_nozzleLift (pump : Nat) : Acts (.nozzleLift pump) s := by
  refine .event (ps := [.cap, .fdc]) rfl fun u => ?_
  split
  · exact (within_capture u _).andThen (within_lift _ _ _)
  · exact .refl _ u

theorem acts_nozzleHang (pump : Nat) : Acts (.nozzleHang pump) s := by
  refine .event (ps := [.cap, .fdc]) rfl fun u => ?_
  split
  · exact (within_capture u _).andThen (within_hang _ _ _)
  · exact .refl _ u

theorem flagRecord_pnp (n : Nat) (f : SaleFlags → SaleFlags) : (s.flagRecord n f).pnp = s.pnp := by
  unfold State.flagRecord
  split <;> rfl

theorem toFinishing_pnp (n : Nat) : (s.toFinishing n).pnp = s.pnp := by
  simp [State.toFinishing, State.shutValves, State.modSale]

theorem acts_suspendLimitEnd (pump : Nat) : Acts (.suspendLimitEnd pump) s := by
  refine .quietly (ps := [.elapsed, .sch, .fdc]) rfl (fun u => ?_) fun u => ?_
  · split
    · split
      · exact .ite ((within_advanceTo u _).andThen ((within_flagRecord _ _ _).trans (within_toFinishing _ _)))
          (.refl _ u)
      · exact .refl _ u
    · exact .refl _ u
  · split
    · split
      · split
        · simp [toFinishing_pnp, flagRecord_pnp]
        · rfl
      · rfl
    · rfl

theorem acts_holdAskWaitEnd (pump : Nat) : Acts (.holdAskWaitEnd pump) s := by
  refine .event (ps := .elapsed :: .sch :: pwbParts) rfl fun u => ?_
  split
  · exact (within_advanceTo u _).andThen (within_askUnanswered _ _)
  · exact .refl _ u

theorem acts_settleWaitEnd (pump : Nat) : Acts (.settleWaitEnd pump) s := by
  refine .event (ps := [.elapsed, .sch, .fdc, .lif]) rfl fun u => ?_
  split
  · exact (within_advanceTo u _).andThen (within_settleUnanswered _ _)
  · exact .refl _ u

theorem acts_emergencyPress : Acts .emergencyPress s := by
  refine .event (ps := .cap :: pwbParts) rfl fun u => ?_
  have pressed (v : State) : Within pwbParts v
      (({ v with fdc := { v.fdc with emergency := true } } : State).setFlag .emergencyStop) :=
    (within_fdc _ _).andThen (within_setFlag _ _)
  have alarmed (v : State) (k : AlarmKind) (n x : Nat) :
      Within pwbParts v (((v.alarm k n x).pumpEmergency 1).pumpEmergency 2) :=
    ((within_alarm v k n x).andThen (within_pumpEmergency _ _) : Within pwbParts v _).trans
      (within_pumpEmergency _ _)
  exact (within_capture u _).andThen ((pressed _).trans (alarmed _ _ _ _))

theorem acts_emergencyRelease : Acts .emergencyRelease s :=
  .event (ps := [.cap, .fdc]) rfl fun u => (within_capture u _).andThen (within_fdc _ _)

/-! ### The gate (06) -/

theorem acts_key (code : Nat) : Acts (.key code) s := by
  refine .event (ps := [.occ, .gtc]) rfl fun u => ?_
  split
  · exact .ite (.refl _ u) (within_takeKey u _ _)
  · exact .refl _ u

theorem acts_pinEntryTimeout : Acts .pinEntryTimeout s := by
  refine .event (ps := [.elapsed, .sch, .gtc]) rfl fun u => ?_
  split
  · exact ((within_advanceTo u _).andThen (within_closeEntry _) : Within [.elapsed, .sch, .gtc] u _).andThen
      (within_refuseRead _ _ _ _ _ _)
  · exact .refl _ u

theorem acts_releaseEnd : Acts .releaseEnd s := by
  refine .quietly (ps := [.elapsed, .sch, .gtc]) rfl (fun u => ?_) fun u => ?_
  · split
    · exact (within_advanceTo u _).andThen (within_gtc _ _)
    · exact .refl _ u
  · split
    · exact advanceTo_pnp u _
    · rfl

theorem within_openDoor : Within [.gtc] s s.openDoor := within_gtc s _

theorem acts_doorOpenEdge : Acts .doorOpenEdge s := by
  refine .event (ps := [.cap, .gtc, .lif]) rfl fun u => ?_
  have forced (v : State) : Within [.gtc, .lif] v (if v.openDoor.gtc.release.isSome then v.openDoor
      else (v.openDoor.setFlag .gateForced).alarm .gateForced 0 v.openDoor.sch.sec) :=
    .ite (within_openDoor v).widen
      (((within_openDoor v).andThen (within_setFlag _ _) : Within [.gtc, .lif] v _).andThen
        (within_alarm _ _ _ _))
  exact (within_capture u _).andThen (.ite (.refl _ _) (forced _))

theorem acts_doorShutEdge : Acts .doorShutEdge s :=
  .event (ps := [.cap, .gtc]) rfl fun u => (within_capture u _).andThen
    (.ite (within_gtc _ _) (.refl _ _))

theorem acts_heldLimitEnd : Acts .heldLimitEnd s := by
  refine .event (ps := [.elapsed, .sch, .gtc, .lif]) rfl fun u => ?_
  split
  · exact .ite (within_holdDoor u _) (.refl _ u)
  · exact .refl _ u

/-! ### Station time, schedules, capture (07) -/

theorem acts_readCapture (channel edge : Nat) : Acts (.readCapture channel edge) s := by
  refine .request (ps := [.cap]) rfl fun u => ?_
  split
  · exact .stay
  · exact .of (within_cap u _)

theorem acts_scheduleDue (place : Nat) : Acts (.scheduleDue place) s := by
  refine .event (ps := [.elapsed, .sch]) rfl fun u => ?_
  split
  · split
    · exact within_dueEntry u _ _
    · exact .refl _ u
  · exact .refl _ u

theorem acts_dayRoll : Acts .dayRoll s :=
  .event (ps := [.sch, .occ, .spc]) rfl fun u => (within_takeFiring u _).andThen
    (.ite (.refl _ _) (within_dayRoll _))

/-! ### The pier line (08) -/

theorem acts_txAttemptStart : Acts .txAttemptStart s := by
  refine .quietly (ps := [.lif]) rfl (fun u => ?_) fun u => ?_
  · split
    · exact .ite (within_lif u _) (.refl _ u)
    · exact .refl _ u
  · split
    · split <;> rfl
    · rfl

theorem loopBack_pnp (f : TxFrame) : (s.loopBack f).pnp = s.pnp := by
  unfold State.loopBack
  split <;> rfl

theorem sent_pnp (f : TxFrame) : (s.sent f).pnp = s.pnp :=
  (loopBack_pnp _ f).trans (giveReport_pnp _ f true)

theorem acts_txSent : Acts .txSent s := by
  refine .quietly (ps := [.lif]) rfl (fun u => ?_) fun u => ?_
  · split
    · exact within_sent u _
    · exact .refl _ u
  · split
    · exact sent_pnp u _
    · rfl

theorem acts_lineActivity : Acts .lineActivity s := by
  refine .quietly (ps := [.lif]) rfl (fun u => .ite (within_lif u _) (.refl _ u)) fun u => ?_
  split <;> rfl

theorem acts_listenEnd : Acts .listenEnd s := by
  refine .event (ps := .elapsed :: .sch :: pwbParts) rfl fun u => ?_
  split
  · exact (within_advanceTo u _).andThen (within_enterOnLine _)
  · exact .refl _ u

theorem acts_silenceWatchEnd : Acts .silenceWatchEnd s := by
  refine .event (ps := [.elapsed, .sch, .lif]) rfl fun u => ?_
  split
  · exact (within_advanceTo u _).andThen (within_enterJoining _ _)
  · exact .refl _ u

theorem acts_joinFrame (src : RxSource) : Acts (.joinFrame src) s :=
  .frame (ps := lineParts) rfl fun _ _ u => .ite (.refl _ u)
    (((within_loansOnJoin u _).andThen (within_roundsOnJoin _ _) : Within lineParts u _).andThen
      (within_receiptsOnJoin _ _))

/-! ### The panel port and configuration (09, 10) -/

theorem acts_flagsClear (mask : BitVec 64) : Acts (.flagsClear mask) s :=
  .request (ps := []) rfl fun u => ⟨onlyChanges_pnp u _, rfl, rfl, rfl, by simp⟩

theorem acts_flagsSetup (enables : BitVec 64) (keep : Nat) (l : Levels) (threshold : Nat) :
    Acts (.flagsSetup enables keep l threshold) s :=
  .request (ps := []) rfl fun u => .ite ⟨onlyChanges_pnp u _, rfl, rfl, rfl, by simp⟩ .stay

theorem acts_join : Acts .join s := by
  refine .request (ps := [.lif, .sch, .occ, .spc, .moments]) rfl fun u => .ite .stay ?_
  split
  · exact .stay
  · exact .of (within_acceptJoin u)

end

/-- The case split over the commands. -/
theorem acts (c : Instr) (s : State) (block : ofPortOrSupply c = false) : Acts c s := by
  cases c with
  | selectAssert | requestDiscarded | null | malformedRequest | restart | readerFrameTimeout
  | clockWrap | powerUp | powerFail => cases block
  | configureStation v => exact .configure rfl fun u => within_writeStation u _
  | configureBerth v => exact .configure rfl fun u => within_writeBerth u _
  | configurePoint v => exact .configure rfl fun u => within_writePoint u _
  | configureTariff set energy water => exact .configure rfl fun u => within_writeTariff u _ _
  | configurePump v => exact .configure rfl fun u => within_writePump u _
  | configureGate v => exact .configure rfl fun u => within_writeGate u _
  | configureStaff staff card pin => exact .configure rfl fun u => within_writeStaff u _ _ _
  | configureSchedule v => exact .configure rfl fun u => within_writeSchedule u _ _
  | join => exact acts_join s
  | setClock sec ms => exact .request rfl fun u => .ite .stay (.of (within_setClock u _ _))
  | tariffSelect set => exact .request rfl fun u => .ite (.of (within_useTariff u _)) .stay
  | readStation => exact .read rfl fun _ => by simp
  | flagsRead => exact .read rfl fun _ => by simp
  | flagsClear mask => exact acts_flagsClear s mask
  | flagsSetup enables keep l threshold => exact acts_flagsSetup s enables keep l threshold
  | requestBerth r => exact acts_requestBerth s r
  | readRound n => exact acts_readRound s n
  | readBerth berth night => exact acts_readBerth s berth night
  | book v => exact acts_book s v
  | cancel occ => exact .occRequest rfl fun _ u => .ite (.of (within_removeOcc u _)) .stay
  | arrive occ => exact .occRequest rfl fun _ u => .ite (.of (within_toAlongside u _)) .stay
  | depart occ => exact .occRequest rfl fun _ u => .ite (.of (within_toDeparting u _)) .stay
  | readOccupancy occ => exact .occRequest (ps := []) rfl fun _ _ => .stay
  | closureRead => exact .read rfl fun _ => by simp
  | closureCollect => exact acts_closureCollect s
  | bindCard occ card =>
    exact .request rfl fun u => .ite .stay <| .ite .stay <| .ite .stay (.of (within_bindCard u _ _))
  | setPin occ pin => exact acts_setPin s occ pin
  | changePin occ old new => exact acts_changePin s occ old new
  | clearPin occ => exact .occRequest rfl fun _ u => .ite .stay (.of (within_modCredential u _ _))
  | unlock occ => exact .occRequest rfl fun _ u => .ite .stay (.of (within_modCredential u _ _))
  | topUp occ amount => exact .occRequest rfl fun _ u => .ite .stay (.of (within_topUp u _ _ _))
  | setLimit occ keep limit warn => exact acts_setLimit s occ keep limit warn
  | bar occ => exact .occRequest rfl fun _ u => .ite .stay (.of (within_enterBarred u _))
  | unbar occ => exact .occRequest rfl fun _ u => .ite .stay <| .ite .stay (.of (within_leaveBarred u _))
  | readLoans => exact .read rfl fun _ => by simp
  | readPoint point => exact acts_readPoint s point
  | profileCheck occ g1 g2 g3 => exact .profileRequest (ps := []) rfl fun _ _ _ _ => .stay
  | profileSet occ g1 g2 g3 => exact acts_profileSet s occ g1 g2 g3
  | outletReset point => exact acts_outletReset s point
  | pumpAuthorise pump preset payment card => exact acts_pumpAuthorise s pump preset payment card
  | pumpSuspend pump => exact acts_pumpSuspend s pump
  | pumpResume pump => exact acts_pumpResume s pump
  | pumpStop pump => exact acts_pumpStop s pump
  | readPump pump => exact .pumpRequest (ps := []) rfl fun _ _ _ => .stay
  | journalRead => exact .read rfl fun _ => by simp
  | journalCollect => exact acts_journalCollect s
  | gateOpen => exact .request rfl fun u => .of (within_releaseLatch u)
  | gateMode mode => exact .request rfl fun u => .ite (.of (within_gateMode u _)) .stay
  | readCapture channel edge => exact acts_readCapture s channel edge
  | frameHeard f => exact .event rfl fun u => .ite (within_hear u _) (.refl _ u)
  | txAttemptStart => exact acts_txAttemptStart s
  | txSent => exact acts_txSent s
  | txContentionLost => exact .quietly rfl (fun u => within_lif u _) fun _ => rfl
  | txError => exact .event rfl fun u => .ite (within_countError u) (.refl _ u)
  | lineActivity => exact acts_lineActivity s
  | listenEnd => exact acts_listenEnd s
  | silenceWatchEnd => exact acts_silenceWatchEnd s
  | berthRequestFrame src => exact .frame rfl fun _ _ u => within_takeBerthRequest u _ _
  | bidFrame src => exact acts_bidFrame s src
  | assignFrame src => exact acts_assignFrame s src
  | loanAskFrame src => exact acts_loanAskFrame s src
  | loanOfferFrame src => exact acts_loanOfferFrame s src
  | loanTakeFrame src => exact .frame rfl fun _ _ u => within_takeLoan u _ _ _
  | loanDeclineFrame src => exact acts_loanDeclineFrame s src
  | loanVoidFrame src => exact acts_loanVoidFrame s src
  | loanRecallFrame src => exact acts_loanRecallFrame s src
  | loanReturnFrame src => exact acts_loanReturnFrame s src
  | holdAskFrame src => exact acts_holdAskFrame s src
  | holdAnswerFrame src => exact acts_holdAnswerFrame s src
  | settleFrame src => exact acts_settleFrame s src
  | settleAnswerFrame src => exact acts_settleAnswerFrame s src
  | cardBindFrame src =>
    exact .frame (ps := [.occ]) rfl fun _ _ u => .ite (.refl _ u) <|
      .ite (within_setFlag u _).widen (within_bindCard u _ _)
  | joinFrame src => exact acts_joinFrame s src
  | timeFrame src => exact .frame rfl fun _ _ u => .ite (within_setClock u _ _) (.refl _ u)
  | bidReport => exact acts_bidReport s
  | berthRequestReport => exact acts_berthRequestReport s
  | assignReport => exact .quietReport (ps := []) rfl (fun _ u => .refl [] u) fun _ _ => rfl
  | loanAskReport => exact acts_loanAskReport s
  | loanOfferReport => exact acts_loanOfferReport s
  | loanTakeReport => exact .report rfl fun _ u => .ite (.refl _ u) (within_undoTake u _ _ _)
  | holdAskReport => exact acts_holdAskReport s
  | settleReport => exact acts_settleReport s
  | bidDelayEnd tag => exact acts_bidDelayEnd s tag
  | windowEnd tag => exact acts_windowEnd s tag
  | watchEnd tag => exact acts_watchEnd s tag
  | awaitDeadline => exact acts_awaitDeadline s
  | holdExpiry occ hold => exact acts_holdExpiry s occ hold
  | pledgeDeadline partner => exact acts_pledgeDeadline s partner
  | recallDeadline partner => exact acts_recallDeadline s partner
  | collectionClose => exact acts_collectionClose s
  | pollCycleStart => exact acts_pollCycleStart s
  | postReport r => exact acts_postReport s r
  | pollTimeout => exact acts_pollTimeout s
  | faultGraceEnd post => exact acts_faultGraceEnd s post
  | alongsideNotice occ => exact .notice rfl fun _ n r u => within_spcArrive u n r
  | departingNotice occ => exact .notice rfl fun m n _ u => within_spcDepart u n occ m
  | barredNotice occ => exact .notice rfl fun _ n r u => within_spcBar u n r
  | unbarredNotice occ => exact .notice rfl fun _ n r u => within_spcUnbar u n r
  | pumpPulse pump => exact acts_pumpPulse s pump
  | nozzleLift pump => exact acts_nozzleLift s pump
  | nozzleHang pump => exact acts_nozzleHang s pump
  | authorisationTimeout pump => exact .saleTimer rfl fun u => within_endUnused u _ _ _
  | suspendLimitEnd pump => exact acts_suspendLimitEnd s pump
  | runOnEnd pump => exact .saleTimer rfl fun u => within_finishSale u _
  | holdAskWaitEnd pump => exact acts_holdAskWaitEnd s pump
  | settleWaitEnd pump => exact acts_settleWaitEnd s pump
  | emergencyPress => exact acts_emergencyPress s
  | emergencyRelease => exact acts_emergencyRelease s
  | cardRead card check => exact .event rfl fun u => .ite (.refl _ u) (within_takeRead u _ _)
  | key code => exact acts_key s code
  | pinEntryTimeout => exact acts_pinEntryTimeout s
  | releaseEnd => exact acts_releaseEnd s
  | exitButtonPress => exact .quietly rfl within_releaseLatch fun _ => rfl
  | doorOpenEdge => exact acts_doorOpenEdge s
  | doorShutEdge => exact acts_doorShutEdge s
  | heldLimitEnd => exact acts_heldLimitEnd s
  | scheduleDue place => exact acts_scheduleDue s place
  | nightOn => exact .firing rfl (fun u => within_setNight u _) fun _ => rfl
  | nightOff => exact .firing rfl (fun u => within_setNight u _) fun _ => rfl
  | lockdownOn => exact .firing rfl (fun u => within_setLockdown u _) fun _ => rfl
  | lockdownOff => exact .firing rfl (fun u => within_setLockdown u _) fun _ => rfl
  | tariff1 => exact .firing rfl (fun u => within_useTariff u _) fun _ => rfl
  | tariff2 => exact .firing rfl (fun u => within_useTariff u _) fun _ => rfl
  | dayRoll => exact acts_dayRoll s

end Sys2Proof.Machine
end

section
/-! PROOFS. The step, the supply and the panel port (R180 to R185, R207), read off what every command comes
to. -/

namespace Sys2Proof.Machine

set_option Elab.async false

/-- Settles O1. -/
theorem stepRunsFrontCommand : Obligations.StepRunsFrontCommand := by
  intro c rest s front
  rw [step, front]

/-! ### The parts a command may change -/

theorem warmStart_frame (inp : StartInputs) (s : State) : OnlyChanges
    [.powered, .straps, .startKind, .settings, .pnp, .lif, .bal, .occ, .pwb, .spc, .fdc, .gtc, .sch, .cap] s
    (s.warmStart inp) := by
  intro p hp
  cases p <;> simp_all [State.agree, State.warmStart, State.started]

theorem coldStart_frame (inp : StartInputs) (s : State) : OnlyChanges
    [.powered, .straps, .startKind, .settings, .pnp, .lif, .bal, .occ, .pwb, .spc, .fdc, .gtc, .sch, .cap] s
    (s.coldStart inp) := by
  intro p hp
  cases p <;> simp_all [State.agree, State.coldStart, State.started]

theorem OnlyChanges.ite {ps : List Part} {s t u : State} {c : Prop} [Decidable c]
    (h : OnlyChanges ps s t) (g : OnlyChanges ps s u) : OnlyChanges ps s (if c then t else u) := by
  split
  · exact h
  · exact g

theorem wrapClock_frame (s : State) : OnlyChanges [.elapsed, .sch] s s.wrapClock := by
  intro p hp
  by_cases port : p = .pnp
  · subst port
    exact advance_pnp s _
  · exact (within_wrapClock s).frame p (by simpa [port] using hp)

theorem endTransaction_frame (s : State) : OnlyChanges [.pnp] s s.endTransaction := onlyChanges_pnp s _

theorem refuseFrame_frame (code : Nat) (r : Reply) (s : State) : OnlyChanges [.pnp] s (s.refuseFrame code r) :=
  onlyChanges_pnp s _

theorem portOrSupply_frame (c : Instr) (s : State) (port : ofPortOrSupply c = true) :
    ∃ t, exec c s = .next t ∧ OnlyChanges (mayChange c) s t := by
  cases c with
  | selectAssert decided => exact ⟨_, rfl, onlyChanges_pnp s _⟩
  | requestDiscarded => exact ⟨_, rfl, .ite (endTransaction_frame s) (.refl _ s)⟩
  | null => exact ⟨_, rfl, .ite (endTransaction_frame s) (onlyChanges_pnp s _)⟩
  | malformedRequest code len received kind =>
    exact ⟨_, rfl, .ite (endTransaction_frame s) (.ite (.refl _ s)
      (.ite (refuseFrame_frame _ _ s) (refuseFrame_frame _ _ s)))⟩
  | restart inp =>
    exact ⟨_, rfl, .ite ((endTransaction_frame s).mono (by simp [mayChange])) (warmStart_frame inp s)⟩
  | readerFrameTimeout bytes => exact ⟨_, rfl, .refl _ s⟩
  | clockWrap => exact ⟨_, rfl, wrapClock_frame s⟩
  | powerUp inp held agrees =>
    exact ⟨_, rfl, (OnlyChanges.ite (warmStart_frame inp s) (coldStart_frame inp s)).trans
      ((onlyChanges_pnp _ _).mono (by simp))⟩
  | powerFail => exact ⟨_, rfl, by intro p hp; cases p <;> simp_all [State.agree, mayChange]⟩
  | _ => cases port

/-- Settles O2: a request changes PNP and what its block decides, an event what its block does. -/
theorem everyCommandCompletesWithinItsParts : Obligations.EveryCommandCompletesWithinItsParts := by
  intro c s
  cases block : ofPortOrSupply c with
  | true => exact portOrSupply_frame c s block
  | false =>
    cases acts c s block with
    | asks code ps body _ runs decides parts =>
      refine ⟨_, runs, OnlyChanges.mono ?_ parts⟩
      have port {qs : List Part} (u : State) (p : Pnp) : OnlyChanges (.pnp :: qs) u { u with pnp := p } :=
        (onlyChanges_pnp u p).mono (by simp)
      unfold State.request
      exact .ite (port s _) (.ite (port s _) (.ite (port s _)
        (((port s _).trans (decides _).frame).trans (port _ _))))
    | happens body _ runs frame => exact ⟨_, runs, .ite (frame s) (.refl _ s)⟩

/-! ### Without power -/

/-- Settles O6: a request only ends its transaction, an event does not happen, and of the commands of the port
and the supply only POWER_UP and CLOCK_WRAP do more. -/
theorem nothingHappensWithoutPower : Obligations.NothingHappensWithoutPower := by
  refine ⟨fun s => rfl, fun c s off notUp notWrap => ?_⟩
  cases block : ofPortOrSupply c with
  | false =>
    cases acts c s block with
    | asks code ps body _ runs => exact ⟨none, by rw [runs, State.request_off off]; rfl⟩
    | happens body _ runs => exact ⟨s.pnp.transaction, by rw [runs, State.event_off off]⟩
  | true =>
    cases c with
    | selectAssert decided => exact ⟨some .notReady, by simp [exec, execSelectAssert, off]⟩
    | requestDiscarded => exact ⟨none, by simp [exec, execRequestDiscarded, off, State.endTransaction]⟩
    | null => exact ⟨none, by simp [exec, execNull, off, State.endTransaction]⟩
    | malformedRequest code len received kind =>
      exact ⟨none, by simp [exec, execMalformedRequest, off, State.endTransaction]⟩
    | restart inp => exact ⟨none, by simp [exec, execRestart, off, State.endTransaction]⟩
    | readerFrameTimeout bytes => exact ⟨s.pnp.transaction, rfl⟩
    | clockWrap => exact absurd rfl notWrap
    | powerUp inp held agrees => exact absurd rfl (notUp inp held agrees)
    | powerFail => exact ⟨s.pnp.transaction, by simp [exec, execPowerFail, off]⟩
    | _ => cases block

/-! ### Requests taken, and transactions that chose the not-ready marker -/

theorem requestCode_of_port {c : Instr} (port : ofPortOrSupply c = true) : requestCode c = none := by
  cases c with
  | selectAssert | requestDiscarded | null | malformedRequest | restart | readerFrameTimeout
  | clockWrap | powerUp | powerFail => rfl
  | _ => cases port

/-- Every command with a request code is a request that one block decides. -/
theorem asks_of_requestCode {c : Instr} {code : Nat} (s : State) (h : requestCode c = some code) :
    ∃ ps body, exec c s = .next (s.request code body) ∧ ∀ u, Decides ps u (body u) := by
  have block : ofPortOrSupply c = false := by
    by_contra port
    simp [requestCode_of_port (by simpa using port)] at h
  cases acts c s block with
  | asks code' ps body ofCode runs decides =>
    obtain rfl : code' = code := Option.some.inj (ofCode.symm.trans h)
    exact ⟨ps, body, runs, decides⟩
  | happens _ noRequest => simp [noRequest] at h

/-- Settles O7: the assertion chooses by the ready mark and the request held; a transaction that chose the
not-ready marker is ended unread, whatever its request. -/
theorem transactionChoosesAtItsAssertion : Obligations.TransactionChoosesAtItsAssertion := by
  refine ⟨fun decided s on => ⟨fun ready chosen => ?_, fun notChosen => ?_⟩, fun c s on discards asked => ?_⟩
  · have assert : (s.pnp.ready && (decided || s.pnp.request.isNone)) = true := by
      simpa [ready] using chosen
    simp [exec, execSelectAssert, on, Pnp.assert, assert]
  · have assert : (s.pnp.ready && (decided || s.pnp.request.isNone)) = false := by
      rcases notChosen with clear | ⟨undecided, held⟩
      · simp [clear]
      · simpa [undecided] using fun _ => held
    simp [exec, execSelectAssert, on, Pnp.assert, assert]
  · rcases asked with request | rfl | rfl | ⟨code, len, received, kind, rfl⟩ | ⟨inp, rfl⟩
    · obtain ⟨code, ofCode⟩ := Option.isSome_iff_exists.mp request
      obtain ⟨_, body, runs, _⟩ := asks_of_requestCode s ofCode
      rw [runs, State.request_discarded discards]
      rfl
    · simp [exec, execRequestDiscarded, discards, State.endTransaction]
    · simp [exec, execNull, discards, State.endTransaction]
    · simp [exec, execMalformedRequest, discards, State.endTransaction]
    · simp [exec, execRestart, discards, State.endTransaction]

section
variable {ps : List Part} {code : Nat} {body : State → State × Reply} {s : State}

/-- A request that the station state does not take is refused by PNP, which holds no request of it. -/
theorem request_refusedBy (on : s.powered = true) (chosen : s.pnp.discards = false)
    (refused : s.lif.state = .unconfigured ∧ takenUnconfigured code = false) :
    s.request code body = { s with pnp := s.pnp.refusedBy code (.refused .state) } :=
  State.request_unconfigured on chosen refused.1 refused.2

/-- A request that is decided is answered with its own code and the next number, and stays held. -/
theorem request_decided (taken : Takes code s) (decides : ∀ u, Decides ps u (body u)) :
    let t := s.request code body
    t.pnp.answerNo = (s.pnp.answerNo + 1) % 256 ∧ t.pnp.answer.number = t.pnp.answerNo ∧
    t.pnp.answer.code = code ∧ t.pnp.ready = true ∧ t.pnp.transaction = none ∧
    t.pnp.request = some code ∧
    (t.pnp.answer.result = .refused ↔ t.pnp.answer.cause.isSome = true) := by
  have d := decides (s.takeFrame code)
  rw [State.request_taken taken]
  exact ⟨congrArg (fun n => (n + 1) % 256) d.answerNo, rfl, rfl, rfl, d.transaction, d.held, d.reply⟩

end

/-- Settles O8: a request is refused by PNP or decided by its block; PNP's own refusal leaves no request for
an assertion to wait for. -/
theorem everyTakenRequestIsAnsweredOnce : Obligations.EveryTakenRequestIsAnsweredOnce := by
  intro c code s ofCode on chosen
  obtain ⟨ps, body, runs, decides⟩ := asks_of_requestCode s ofCode
  refine ⟨_, runs, ?_⟩
  by_cases refused : s.lif.state = .unconfigured ∧ takenUnconfigured code = false
  · rw [request_refusedBy on chosen refused]
    refine ⟨rfl, rfl, rfl, rfl, rfl, ?_, fun _ decided => ?_, ?_⟩
    · simp [refused, Pnp.refusedBy]
    · simp [exec, execSelectAssert, on, Pnp.assert, Pnp.refusedBy, Pnp.answered]
    · simp [Pnp.refusedBy, Pnp.answered, Reply.refused]
  · have taken : Takes code s := ⟨on, chosen, fun unconfigured => by
      simpa using fun notTaken => refused ⟨unconfigured, notTaken⟩⟩
    obtain ⟨no, number, ofCode, ready, ended, held, reply⟩ := request_decided taken decides
    exact ⟨no, number, ofCode, ready, ended, by rw [held, if_neg refused],
      fun h => absurd h refused, reply⟩

end Sys2Proof.Machine
end

section
/-! PROOFS. What a sound state keeps, table by table: how LIF's queues (R165, R173), OCC's records (R25, R26,
R40, R42), PWB's and FDC's lists (R53, R56, R124) and the pumps (R112, R116) come through each kind of change
of them. -/

namespace Sys2Proof.Machine

set_option Elab.async false

/-! ### LIF's queues -/

theorem txInsert_perm (f : TxFrame) (l : List TxFrame) : (txInsert f l).Perm (f :: l) := by
  induction l with
  | nil => exact .refl _
  | cons g r ih =>
    unfold txInsert
    split
    · exact .refl _
    · exact (ih.cons g).trans (.swap f g r)

theorem txInsert_length (f : TxFrame) (l : List TxFrame) : (txInsert f l).length = l.length + 1 :=
  (txInsert_perm f l).length_eq

theorem txInsert_sorted (f : TxFrame) {l : List TxFrame}
    (h : l.Pairwise fun f g => f.frame.ident.toNat ≤ g.frame.ident.toNat) :
    (txInsert f l).Pairwise fun f g => f.frame.ident.toNat ≤ g.frame.ident.toNat := by
  induction l with
  | nil => exact List.pairwise_singleton _ _
  | cons g r ih =>
    obtain ⟨first, rest⟩ := List.pairwise_cons.mp h
    unfold txInsert
    split
    next before =>
      refine List.pairwise_cons.mpr ⟨fun x hx => ?_, h⟩
      rcases List.mem_cons.mp hx with rfl | hx
      · exact before.le
      · exact before.le.trans (first x hx)
    next behind =>
      refine List.pairwise_cons.mpr ⟨fun x hx => ?_, ih rest⟩
      rcases mem_txInsert.mp hx with rfl | hx
      · exact Nat.not_lt.mp behind
      · exact first x hx

/-- Nothing but frames joining or leaving the transmit queue: the line state stays, no frame joins the receive
queue, and the queues stay sound. -/
structure LineKept (s t : State) : Prop where
  state : t.lif.state = s.lif.state
  rx    : t.lif.rx.length ≤ s.lif.rx.length
  sound : LineSound s → LineSound t

theorem lineSound_congr {s t : State} (h : t.lif = s.lif) (sound : LineSound s) : LineSound t := by
  unfold LineSound
  rw [h]
  exact sound

namespace LineKept

variable {s t u : State}

theorem of_eq (h : t.lif = s.lif) : LineKept s t :=
  ⟨by rw [h], by rw [h], lineSound_congr h⟩

theorem refl (s : State) : LineKept s s := of_eq rfl

theorem trans (h : LineKept s t) (g : LineKept t u) : LineKept s u :=
  ⟨g.state.trans h.state, g.rx.trans h.rx, g.sound ∘ h.sound⟩

end LineKept

section
variable (s : State)

theorem lineKept_giveReport (f : TxFrame) (b : Bool) : LineKept s (s.giveReport f b) := by
  unfold State.giveReport
  split
  · exact ⟨rfl, le_rfl, id⟩
  · exact .refl s

variable {s} in
/-- A new frame takes its place among frames of the queue that hold the one of an attempt. -/
theorem lineSound_txInsert (sound : LineSound s) (fr : Frame) {l : List TxFrame} (sub : l.Sublist s.lif.tx)
    (short : l.length < 12) (attempted : ∀ n, s.lif.attempt = some n → ∃ f ∈ l, f.serial = n)
    (onLine : ¬ (s.lif.state = .unconfigured ∨ s.lif.state = .lineOff)) :
    LineSound { s with lif := { s.lif with
      serial := s.lif.serial + 1
      tx := txInsert ⟨s.lif.serial, fr⟩ l } } := by
  obtain ⟨_, rx, sorted, apart, below, _, _⟩ := sound
  have belowL : ∀ f ∈ l, f.serial < s.lif.serial := fun f hf => below f (sub.subset hf)
  refine ⟨by rw [txInsert_length]; exact short, rx, txInsert_sorted _ (sorted.sublist sub), ?_, ?_, ?_,
    fun off => absurd off onLine⟩
  · refine ((txInsert_perm _ _).pairwise_iff fun h => h.symm).mpr
      (List.pairwise_cons.mpr ⟨fun f hf => (belowL f hf).ne', apart.sublist sub⟩)
  · intro f hf
    rcases mem_txInsert.mp hf with rfl | hf
    · exact Nat.lt_succ_self _
    · exact (belowL f hf).trans (Nat.lt_succ_self _)
  · intro n hn
    obtain ⟨f, hf, e⟩ := attempted n hn
    exact ⟨f, mem_txInsert.mpr (.inr hf), e⟩

variable {s} in
theorem onLine_of_accepted {kind : Nat} (h : acceptedIn s.lif.state kind = true) :
    ¬ (s.lif.state = .unconfigured ∨ s.lif.state = .lineOff) := by
  rintro (off | off) <;> simp [off, acceptedIn] at h

/-- The note counter rises alone. -/
theorem lineKept_note : LineKept s { s with lif := { s.lif with serial := s.lif.serial + 1 } } :=
  ⟨rfl, le_rfl, fun ⟨tx, rx, sorted, apart, below, attempt, off⟩ =>
    ⟨tx, rx, sorted, apart, fun f hf => (below f hf).trans (Nat.lt_succ_self _), attempt, off⟩⟩

variable {s} in
/-- The frame displaced is not the one of an attempt, and makes a place (R166). -/
theorem highest_displaced {h : TxFrame} (found : s.lif.highest = some h) :
    h ∈ s.lif.tx ∧ s.lif.attempt ≠ some h.serial := by
  have listed := List.mem_of_getLast? found
  simp only [List.mem_filter, bne_iff_ne, ne_eq] at listed
  exact ⟨listed.1, fun e => listed.2 e.symm⟩

theorem lineKept_queueFrame (fr : Frame) : LineKept s (s.queueFrame fr) := by
  unfold State.queueFrame
  dsimp only
  split
  · exact (lineKept_note s).trans (lineKept_giveReport _ _ _)
  next accepted =>
    have onLine := onLine_of_accepted (by simpa using accepted)
    split
    next short =>
      exact ⟨rfl, le_rfl, fun sound => lineSound_txInsert sound fr (.refl _) short sound.2.2.2.2.2.1 onLine⟩
    next full =>
      have refused (v : TxFrame) : LineKept s ((State.giveReport v false { s with
          lif := { s.lif with serial := s.lif.serial + 1 } }).setFlag .txDropped) :=
        ((lineKept_note s).trans (lineKept_giveReport _ _ _)).trans (.of_eq rfl)
      split
      next h found =>
        split
        · refine LineKept.trans ?_ ((lineKept_giveReport _ h false).trans (.of_eq rfl))
          obtain ⟨mem, notTried⟩ := highest_displaced (s := s) found
          refine ⟨rfl, le_rfl, fun sound => lineSound_txInsert sound fr List.filter_sublist ?_ ?_ onLine⟩
          · have fewer : (s.lif.tx.filter fun g => g.serial != h.serial).length < s.lif.tx.length :=
              List.length_filter_lt_length_iff_exists.mpr ⟨h, mem, by simp⟩
            exact fewer.trans_le sound.1
          · intro n hn
            obtain ⟨f, hf, e⟩ := sound.2.2.2.2.2.1 n hn
            exact ⟨f, List.mem_filter.mpr ⟨hf, by
              simpa [e] using fun same : n = h.serial => notTried (same ▸ hn)⟩, e⟩
        · exact refused _
      next => exact refused _

theorem lineKept_withdrawFrame (n : Nat) : LineKept s (s.withdrawFrame n) := by
  unfold State.withdrawFrame
  split
  next withdrawn =>
    have notTried : s.lif.attempt ≠ some n := by
      intro tried
      simp [Lif.withdrawal, tried] at withdrawn
      split at withdrawn <;> simp at withdrawn
    refine ⟨rfl, le_rfl, fun ⟨tx, rx, sorted, apart, below, attempt, off⟩ => ?_⟩
    refine ⟨(List.length_filter_le _ _).trans tx, rx, sorted.filter _, apart.filter _,
      fun f hf => below f (List.mem_of_mem_filter hf), fun m hm => ?_, fun h => ?_⟩
    · obtain ⟨f, hf, e⟩ := attempt m hm
      exact ⟨f, List.mem_filter.mpr ⟨hf, by simpa [e] using fun same : m = n => notTried (same ▸ hm)⟩, e⟩
    · simp [off h]
  · exact .refl s

theorem lineKept_alarm (k : AlarmKind) (n v : Nat) : LineKept s (s.alarm k n v) := by
  unfold State.alarm
  split
  · exact lineKept_queueFrame s _
  · exact .refl s

end

/-! ### OCC's records -/

/-- A record that keeps its place in the table, with no hold that it had not and not more receipts than its
list takes. -/
structure Tamed (r r' : Occupancy) : Prop where
  number   : r'.number = r.number
  berth    : r'.berth = r.berth
  arrival  : r'.arrival = r.arrival
  nights   : r'.nights = r.nights
  holds    : (r'.holds.map Hold.id).Sublist (r.holds.map Hold.id)
  receipts : r.receipts.length ≤ 4 → r'.receipts.length ≤ 4

theorem Tamed.refl (r : Occupancy) : Tamed r r := ⟨rfl, rfl, rfl, rfl, .refl _, id⟩

/-- The table and the closure list stay sound. -/
def OccKept (s t : State) : Prop := OccupancySound s → OccupancySound t

section
variable {s t u : State}

theorem OccKept.refl (s : State) : OccKept s s := id

theorem OccKept.trans (h : OccKept s t) (g : OccKept t u) : OccKept s u := g ∘ h

theorem OccKept.of_eq (records : t.occ.records = s.occ.records) (closures : t.occ.closures = s.occ.closures) :
    OccKept s t := by
  unfold OccKept OccupancySound
  rw [records, closures]
  exact id

theorem OccKept.ite {c : Prop} [Decidable c] (h : OccKept s t) (g : OccKept s u) :
    OccKept s (if c then t else u) := by
  split
  · exact h
  · exact g

theorem OccKept.foldl {α : Type} (f : State → α → State) (h : ∀ s x, OccKept s (f s x)) (l : List α)
    (s : State) : OccKept s (l.foldl f s) := by
  induction l generalizing s with
  | nil => exact .refl s
  | cons x r ih => exact (h s x).trans (ih _)

/-- The ids of the holds of a list of records. -/
def holdIdsOf (l : List Occupancy) : List Nat := l.flatMap fun r => r.holds.map Hold.id

theorem holdIdsOf_map {g : Occupancy → Occupancy} (h : ∀ r, Tamed r (g r)) (l : List Occupancy) :
    (holdIdsOf (l.map g)).Sublist (holdIdsOf l) := by
  induction l with
  | nil => exact .refl _
  | cons r l ih => exact (h r).holds.append ih

/-- Records that each keep their place leave the table sound. -/
theorem occKept_map {g : Occupancy → Occupancy} (h : ∀ r, Tamed r (g r))
    (records : t.occ.records = s.occ.records.map g) (closures : t.occ.closures = s.occ.closures) :
    OccKept s t := by
  rintro ⟨numbers, sizes, nights, closed, ids, range⟩
  unfold OccupancySound
  rw [records, closures]
  refine ⟨List.pairwise_map.mpr (numbers.imp fun {a b} lt => ?_), ?_,
    List.pairwise_map.mpr (nights.imp fun {a b} apart => ?_), closed,
    ids.sublist (holdIdsOf_map h _), ?_⟩
  · rwa [(h a).number, (h b).number]
  · intro r' hr'
    obtain ⟨r, hr, rfl⟩ := List.mem_map.mp hr'
    obtain ⟨one, most, holds, receipts⟩ := sizes r hr
    have fewer := (h r).holds.length_le
    simp only [List.length_map] at fewer
    rw [(h r).number]
    exact ⟨one, most, fewer.trans holds, (h r).receipts receipts⟩
  · rwa [(h a).berth, (h b).berth, (h a).arrival, (h b).arrival, (h a).nights, (h b).nights]
  · intro r' hr' x hx
    obtain ⟨r, hr, rfl⟩ := List.mem_map.mp hr'
    obtain ⟨y, hy, e⟩ := List.mem_map.mp ((h r).holds.subset (List.mem_map_of_mem hx))
    exact e ▸ range r hr y hy

theorem occKept_modOcc (s : State) (n : Nat) {f : Occupancy → Occupancy}
    (h : ∀ r, Tamed r (f r) := by exact fun _ => ⟨rfl, rfl, rfl, rfl, .refl _, id⟩) :
    OccKept s (s.modOcc n f) := by
  refine occKept_map (g := fun r => if r.number = n then f r else r) (fun r => ?_) rfl rfl
  split
  · exact h r
  · exact .refl r

theorem holdIdsOf_sublist {l l' : List Occupancy} (h : l'.Sublist l) :
    (holdIdsOf l').Sublist (holdIdsOf l) := by
  induction h with
  | slnil => exact .refl _
  | cons r _ ih => exact ih.trans (List.sublist_append_right _ _)
  | cons_cons r _ ih => exact (List.Sublist.refl _).append ih

/-- Records that leave the table leave it sound. -/
theorem occKept_sublist (records : t.occ.records.Sublist s.occ.records)
    (closures : t.occ.closures = s.occ.closures) : OccKept s t := by
  rintro ⟨numbers, sizes, nights, closed, ids, range⟩
  unfold OccupancySound
  rw [closures]
  exact ⟨numbers.sublist records, fun r hr => sizes r (records.subset hr), nights.sublist records, closed,
    ids.sublist (holdIdsOf_sublist records), fun r hr => range r (records.subset hr)⟩

end

/-! ### PWB's lists -/

/-- The loan table and the demand queue stay within their sizes. -/
structure PwbKept (s t : State) : Prop where
  loans   : s.pwb.loans.length ≤ 16 → t.pwb.loans.length ≤ 16
  demands : s.pwb.demands.length ≤ 8 → t.pwb.demands.length ≤ 8

namespace PwbKept

variable {s t u : State}

theorem of_le (loans : t.pwb.loans.length ≤ s.pwb.loans.length)
    (demands : t.pwb.demands.length ≤ s.pwb.demands.length) : PwbKept s t :=
  ⟨loans.trans, demands.trans⟩

theorem of_eq (h : t.pwb = s.pwb) : PwbKept s t := of_le (by rw [h]) (by rw [h])

theorem refl (s : State) : PwbKept s s := of_eq rfl

theorem trans (h : PwbKept s t) (g : PwbKept t u) : PwbKept s u :=
  ⟨g.loans ∘ h.loans, g.demands ∘ h.demands⟩

end PwbKept

/-! ### FDC's pumps and journal -/

/-- The journal within its size, no sale number twice (R124). -/
def JournalSound (s : State) : Prop :=
  s.fdc.journal.length ≤ 64 ∧ (s.fdc.journal.map JournalRecord.number).Nodup

/-- Both pumps are sound at a level of the emergency mark. -/
def PumpsSound (emergency : Bool) (s : State) : Prop :=
  s.fdc.pump1.sound emergency ∧ s.fdc.pump2.sound emergency

theorem pumpsSound_iff {e : Bool} {s : State} :
    PumpsSound e s ↔ ∀ n p, s.pump? n = some p → p.sound e := by
  constructor
  · rintro ⟨one, two⟩ n p hp
    rcases pump?_cases hp with ⟨_, rfl⟩ | ⟨_, rfl⟩
    · exact one
    · exact two
  · intro h
    exact ⟨h 1 _ rfl, h 2 _ rfl⟩

/-- The emergency mark stays, and the journal stays sound, as the pumps do at any level of the mark it reaches:
at a press they are still sound at the level before it alone (R116). -/
structure FuelKept (s t : State) : Prop where
  emergency : t.fdc.emergency = s.fdc.emergency
  pumps     : ∀ e, (e = true → s.fdc.emergency = true) → PumpsSound e s → PumpsSound e t
  journal   : JournalSound s → JournalSound t

namespace FuelKept

variable {s t u : State}

theorem of_eq (h : t.fdc = s.fdc) : FuelKept s t :=
  ⟨by rw [h], fun e _ sound => by unfold PumpsSound; rwa [h], fun sound => by unfold JournalSound; rwa [h]⟩

theorem refl (s : State) : FuelKept s s := of_eq rfl

theorem trans (h : FuelKept s t) (g : FuelKept t u) : FuelKept s u :=
  ⟨g.emergency.trans h.emergency,
    fun e mark sound => g.pumps e (fun he => h.emergency.trans (mark he)) (h.pumps e mark sound),
    g.journal ∘ h.journal⟩

theorem ite {c : Prop} [Decidable c] (h : FuelKept s t) (g : FuelKept s u) :
    FuelKept s (if c then t else u) := by
  split
  · exact h
  · exact g

/-- Journal records keep their numbers, or leave. -/
theorem of_journal (pumps : t.fdc.pump1 = s.fdc.pump1 ∧ t.fdc.pump2 = s.fdc.pump2)
    (emergency : t.fdc.emergency = s.fdc.emergency)
    (numbers : (t.fdc.journal.map JournalRecord.number).Sublist (s.fdc.journal.map JournalRecord.number)) :
    FuelKept s t := by
  refine ⟨emergency, fun e _ sound => ?_, fun ⟨length, apart⟩ => ⟨?_, apart.sublist numbers⟩⟩
  · unfold PumpsSound
    rwa [pumps.1, pumps.2]
  · have fewer := numbers.length_le
    simp only [List.length_map] at fewer
    exact fewer.trans length

end FuelKept

theorem PumpsSound.modPump {e : Bool} {s : State} (sound : PumpsSound e s) (n : Nat) {f : Pump → Pump}
    (h : ∀ p, s.pump? n = some p → p.sound e → (f p).sound e) : PumpsSound e (s.modPump n f) := by
  rw [pumpsSound_iff] at sound ⊢
  intro m q hq
  rw [modPump_pump?] at hq
  split at hq
  next same =>
    subst same
    obtain ⟨p, hp, rfl⟩ := Option.map_eq_some_iff.mp hq
    exact h p hp (sound _ p hp)
  next => exact sound m q hq

theorem modPump_frame (s : State) (n : Nat) (f : Pump → Pump) :
    (s.modPump n f).fdc.emergency = s.fdc.emergency ∧ (s.modPump n f).fdc.journal = s.fdc.journal :=
  ⟨(modPump_fdc s n f).2.1, (modPump_fdc s n f).2.2.2⟩

theorem fuelKept_modPump (s : State) (n : Nat) {f : Pump → Pump}
    (h : ∀ e p, s.pump? n = some p → (e = true → s.fdc.emergency = true) → p.sound e → (f p).sound e) :
    FuelKept s (s.modPump n f) := by
  obtain ⟨emergency, journal⟩ := modPump_frame s n f
  refine ⟨emergency, fun e mark sound => sound.modPump n fun p hp => h e p hp mark, fun sound => ?_⟩
  unfold JournalSound
  rwa [journal]

/-- A pump with no sale and both valves shut is sound. -/
theorem Pump.sound_idle {e : Bool} {p : Pump} (sale : p.sale = none) (main : p.main = false)
    (slow : p.slow = false) : p.sound e := by
  simp [Pump.sound, sale, main, slow]

/-- A change of a pump that keeps its valves and the state of its sale keeps it sound. -/
theorem Pump.sound_of_state {e : Bool} {p q : Pump} (main : q.main = p.main) (slow : q.slow = p.slow)
    (state : q.sale.map Sale.state = p.sale.map Sale.state) (sound : p.sound e) : q.sound e := by
  obtain ⟨both, delivering, stopped⟩ := sound
  have sales : ∀ y, q.sale = some y → ∃ x, p.sale = some x ∧ x.state = y.state := by
    intro y hy
    rw [hy] at state
    simpa using state.symm
  refine ⟨by rwa [main, slow], fun open_ => ?_, fun mark y hy => ?_⟩
  · obtain ⟨x, hx, hs⟩ := delivering (slow ▸ open_)
    rw [hx] at state
    obtain ⟨y, hy, e⟩ := Option.map_eq_some_iff.mp state
    exact ⟨y, hy, e.trans hs⟩
  · obtain ⟨x, hx, hs⟩ := sales y hy
    rw [← hs]
    exact stopped mark x hx

theorem fuelKept_modSale (s : State) (n : Nat) {f : Sale → Sale}
    (h : ∀ x, (f x).state = x.state := by exact fun _ => rfl) : FuelKept s (s.modSale n f) := by
  refine fuelKept_modPump s n fun e p _ _ sound => Pump.sound_of_state (p := p) rfl rfl ?_ sound
  cases p.sale <;> simp [h]

theorem fuelKept_modRecord (s : State) (n : Nat) {f : JournalRecord → JournalRecord}
    (h : ∀ r, (f r).number = r.number := by exact fun _ => rfl) : FuelKept s (s.modRecord n f) := by
  refine .of_journal ⟨rfl, rfl⟩ rfl ?_
  have same : (s.modRecord n f).fdc.journal.map JournalRecord.number =
      s.fdc.journal.map JournalRecord.number := by
    simp only [State.modRecord, modifyKey, List.map_map]
    refine List.map_congr_left fun r _ => ?_
    simp only [Function.comp_apply]
    split
    · exact h r
    · rfl
  rw [same]

/-! ### BAL's rounds and the clock -/

/-- The round table stays within its size, and its tags apart (R10). -/
structure RoundsKept (s t : State) : Prop where
  places : s.bal.rounds.length ≤ 4 → t.bal.rounds.length ≤ 4
  apart  : RoundsApart s → RoundsApart t

/-- The clock stays sound (R147). -/
def ClockKept (s t : State) : Prop := ClockSound s → ClockSound t

namespace RoundsKept

variable {s t u : State}

theorem of_sublist (h : (t.bal.rounds.map Round.tag).Sublist (s.bal.rounds.map Round.tag)) : RoundsKept s t := by
  refine ⟨fun places => ?_, fun apart => List.Nodup.sublist h apart⟩
  have fewer := h.length_le
  simp only [List.length_map] at fewer
  exact fewer.trans places

theorem of_eq (h : t.bal = s.bal) : RoundsKept s t := of_sublist (by rw [h])

theorem trans (h : RoundsKept s t) (g : RoundsKept t u) : RoundsKept s u :=
  ⟨g.places ∘ h.places, g.apart ∘ h.apart⟩

end RoundsKept

theorem roundsKept_modRound (s : State) (t : Sys2Proof.Tag) {f : Round → Round}
    (h : ∀ r, (f r).tag = r.tag := by exact fun _ => rfl) : RoundsKept s (s.modRound t f) := by
  refine .of_sublist ?_
  have same : (s.modRound t f).bal.rounds.map Round.tag = s.bal.rounds.map Round.tag := by
    simp only [State.modRound, List.map_map]
    refine List.map_congr_left fun r _ => ?_
    simp only [Function.comp_apply]
    split
    · exact h r
    · rfl
  rw [same]

/-- A round of a new tag joins a table with a free place (R10, R11). -/
theorem roundsKept_append {s t : State} {r : Round} (joined : t.bal.rounds = s.bal.rounds ++ [r])
    (room : s.bal.rounds.length < 4) (fresh : RoundsApart s → s.round? r.tag = none) : RoundsKept s t := by
  constructor
  · intro _
    rw [joined, List.length_append]
    exact room
  · intro apart
    unfold RoundsApart at apart ⊢
    have absent := List.find?_eq_none.mp (fresh apart)
    rw [joined, List.map_append, List.nodup_append']
    refine ⟨apart, List.nodup_singleton _, ?_⟩
    intro x hx hy
    obtain ⟨q, hq, rfl⟩ := List.mem_map.mp hx
    simp only [List.map_cons, List.map_nil, List.mem_singleton] at hy
    exact absent q hq (by simpa using hy)

theorem clockKept_setMicros {s t : State} {n : Nat} (h : t.sch = s.sch.setMicros n) : ClockKept s t := by
  intro _
  unfold ClockSound
  rw [h]
  exact ⟨Nat.mod_lt _ (by decide), Nat.mod_lt _ (by decide)⟩

theorem clockKept_of_reading {s t : State} (ms : t.sch.ms = s.sch.ms) (us : t.sch.us = s.sch.us) :
    ClockKept s t := by
  unfold ClockKept ClockSound
  rw [ms, us]
  exact id

theorem clockKept_advance (s : State) (n : Nat) : ClockKept s (s.advance n) := by
  unfold State.advance
  split
  · exact id
  · exact clockKept_setMicros rfl

end Sys2Proof.Machine
end

section
/-! PROOFS. What the shared operations keep of a sound state: LIF's queues, OCC's records, PWB's and FDC's
lists, the pumps, the rounds and the clock, each through the operations of OCC and PWB (02, 03). -/

namespace Sys2Proof.Machine

set_option Elab.async false

/-! ### A change that keeps every table -/

/-- Everything but LIF's queues stays sound. -/
structure TablesKept (s t : State) : Prop where
  occ    : OccKept s t
  pwb    : PwbKept s t
  rounds : RoundsKept s t
  fuel   : FuelKept s t
  clock  : ClockKept s t

/-- The same, with LIF's queues sound and its station state unmoved. -/
structure Kept (s t : State) : Prop extends TablesKept s t where
  line : LineKept s t

section
variable {ps : List Part} {s t u : State}

/-- A part no change of the frame reaches is kept as it is. -/
theorem OnlyChanges.tablesKept (h : OnlyChanges ps s t)
    (occ : .occ ∈ ps → OccKept s t := by simp [pwbParts])
    (pwb : .pwb ∈ ps → PwbKept s t := by simp)
    (rounds : .bal ∈ ps → RoundsKept s t := by simp [pwbParts])
    (fuel : .fdc ∈ ps → FuelKept s t := by simp)
    (clock : .sch ∈ ps → ClockKept s t := by simp [pwbParts]) : TablesKept s t where
  occ := by
    by_cases p : .occ ∈ ps
    · exact occ p
    · have same : t.occ = s.occ := h .occ p
      exact .of_eq (by rw [same]) (by rw [same])
  pwb := by
    by_cases p : .pwb ∈ ps
    · exact pwb p
    · exact .of_eq (h .pwb p)
  rounds := by
    by_cases p : .bal ∈ ps
    · exact rounds p
    · exact .of_eq (h .bal p)
  fuel := by
    by_cases p : .fdc ∈ ps
    · exact fuel p
    · exact .of_eq (h .fdc p)
  clock := by
    by_cases p : .sch ∈ ps
    · exact clock p
    · have same : t.sch = s.sch := h .sch p
      exact clockKept_of_reading (by rw [same]) (by rw [same])

theorem OnlyChanges.kept (h : OnlyChanges ps s t)
    (line : .lif ∈ ps → LineKept s t := by simp)
    (occ : .occ ∈ ps → OccKept s t := by simp [pwbParts])
    (pwb : .pwb ∈ ps → PwbKept s t := by simp)
    (rounds : .bal ∈ ps → RoundsKept s t := by simp [pwbParts])
    (fuel : .fdc ∈ ps → FuelKept s t := by simp)
    (clock : .sch ∈ ps → ClockKept s t := by simp [pwbParts]) : Kept s t where
  toTablesKept := h.tablesKept occ pwb rounds fuel clock
  line := by
    by_cases p : .lif ∈ ps
    · exact line p
    · exact .of_eq (h .lif p)

theorem Within.tablesKept (h : Within ps s t)
    (occ : .occ ∈ ps → OccKept s t := by simp [pwbParts])
    (pwb : .pwb ∈ ps → PwbKept s t := by simp)
    (rounds : .bal ∈ ps → RoundsKept s t := by simp [pwbParts])
    (fuel : .fdc ∈ ps → FuelKept s t := by simp)
    (clock : .sch ∈ ps → ClockKept s t := by simp [pwbParts]) : TablesKept s t :=
  h.frame.tablesKept (by simpa using occ) (by simpa using pwb) (by simpa using rounds) (by simpa using fuel)
    (by simpa using clock)

theorem Within.kept (h : Within ps s t)
    (line : .lif ∈ ps → LineKept s t := by simp)
    (occ : .occ ∈ ps → OccKept s t := by simp [pwbParts])
    (pwb : .pwb ∈ ps → PwbKept s t := by simp)
    (rounds : .bal ∈ ps → RoundsKept s t := by simp [pwbParts])
    (fuel : .fdc ∈ ps → FuelKept s t := by simp)
    (clock : .sch ∈ ps → ClockKept s t := by simp [pwbParts]) : Kept s t :=
  h.frame.kept (by simpa using line) (by simpa using occ) (by simpa using pwb) (by simpa using rounds)
    (by simpa using fuel) (by simpa using clock)

theorem TablesKept.trans (h : TablesKept s t) (g : TablesKept t u) : TablesKept s u :=
  ⟨h.occ.trans g.occ, h.pwb.trans g.pwb, h.rounds.trans g.rounds, h.fuel.trans g.fuel, g.clock ∘ h.clock⟩

namespace Kept

theorem refl (s : State) : Kept s s := (Within.refl [] s).kept

theorem trans (h : Kept s t) (g : Kept t u) : Kept s u :=
  ⟨h.toTablesKept.trans g.toTablesKept, h.line.trans g.line⟩

theorem ite {c : Prop} [Decidable c] (h : Kept s t) (g : Kept s u) : Kept s (if c then t else u) := by
  split
  · exact h
  · exact g

theorem foldl {α : Type} (f : State → α → State) (h : ∀ s x, Kept s (f s x)) (l : List α) (s : State) :
    Kept s (l.foldl f s) := by
  induction l generalizing s with
  | nil => exact .refl s
  | cons x r ih => exact (h s x).trans (ih _)

end Kept
end

section
variable (s : State)

/-! ### Flags, time, the queue -/

theorem kept_setFlag (f : Flag) : Kept s (s.setFlag f) := (within_setFlag s f).kept

theorem kept_setFlagIf (c : Bool) (f : Flag) : Kept s (s.setFlagIf c f) := (within_setFlagIf s c f).kept

theorem kept_advanceTo (d : Nat) : Kept s (s.advanceTo d) :=
  (within_advanceTo s d).kept (clock := fun _ => clockKept_advance s _)

theorem kept_advanceToTime (t : Time) : Kept s (s.advanceToTime t) :=
  (within_advanceToTime s t).kept (clock := fun _ => clockKept_advance s _)

theorem kept_queueFrame (f : Frame) : Kept s (s.queueFrame f) :=
  (within_queueFrame s f).kept (line := fun _ => lineKept_queueFrame s f)

theorem kept_withdrawFrame (n : Nat) : Kept s (s.withdrawFrame n) :=
  (within_withdrawFrame s n).kept (line := fun _ => lineKept_withdrawFrame s n)

theorem kept_alarm (k : AlarmKind) (n v : Nat) : Kept s (s.alarm k n v) :=
  (within_alarm s k n v).kept (line := fun _ => lineKept_alarm s k n v)

/-! ### OCC -/

theorem kept_modOcc (n : Nat) {f : Occupancy → Occupancy}
    (h : ∀ r, Tamed r (f r) := by exact fun _ => ⟨rfl, rfl, rfl, rfl, .refl _, id⟩) : Kept s (s.modOcc n f) :=
  (within_modOcc s n f).kept (occ := fun _ => occKept_modOcc s n h)

theorem kept_notify (k : NoticeKind) (n : Nat) : Kept s (s.notify k n) :=
  (within_notify s k n).kept (occ := fun _ => .of_eq rfl rfl)

theorem kept_enterBarred (n : Nat) : Kept s (s.enterBarred n) := (kept_modOcc s n).trans (kept_notify _ _ _)

theorem kept_leaveBarred (n : Nat) : Kept s (s.leaveBarred n) := by
  unfold State.leaveBarred
  split
  · exact .refl s
  · exact (((kept_modOcc s n).trans (kept_setFlagIf _ _ _)).trans (kept_setFlagIf _ _ _)).trans
      (kept_notify _ _ _)

theorem kept_overdueCheck (n : Nat) : Kept s (s.overdueCheck n) := by
  unfold State.overdueCheck
  split
  · exact .refl s
  · split
    · exact .ite ((kept_enterBarred s n).trans (kept_setFlag _ _)) (.refl s)
    · exact .refl s

theorem kept_computeStanding (n : Nat) : Kept s (s.computeStanding n) := by
  unfold State.computeStanding
  split
  · exact .refl s
  · exact (((kept_modOcc s n).trans (kept_setFlagIf _ _ _)).trans (kept_setFlagIf _ _ _)).trans
      (kept_overdueCheck _ _)

theorem kept_debit (n c : Nat) : Kept s (s.debit n c) := by
  unfold State.debit
  refine .ite (.refl s) ?_
  split
  · exact .refl s
  · exact (kept_modOcc s n).trans (kept_computeStanding _ _)

theorem kept_removeOcc (n : Nat) : Kept s (s.removeOcc n) :=
  (within_removeOcc s n).kept (occ := fun _ => occKept_sublist List.filter_sublist rfl)

/-- A closure record joins a list with a free place (R34). -/
theorem kept_closeOcc (room : s.closureRoom = true) (n : Nat) (reason : CloseReason) :
    Kept s (s.closeOcc n reason) := by
  unfold State.closeOcc
  split
  · exact .refl s
  next r _ =>
    have added : OccKept s { s with occ := { s.occ with closures := s.occ.closures ++ [closureOf s r reason] } } := by
      rintro ⟨numbers, sizes, nights, _, ids, range⟩
      refine ⟨numbers, sizes, nights, ?_, ids, range⟩
      have places : s.occ.closures.length < 8 := of_decide_eq_true room
      simpa using places
    exact (((within_occ s _).kept (occ := fun _ => added)).trans (kept_setFlag _ _)).trans (kept_removeOcc _ _)

theorem kept_testRemoval (n : Nat) : Kept s (s.testRemoval n) := by
  unfold State.testRemoval
  split
  · exact .refl s
  · split
    · split
      · exact kept_closeOcc s ‹_› _ _
      · exact .refl s
    · split
      · split
        · exact kept_closeOcc s ‹_› _ _
        · exact kept_setFlag s _
      · exact .refl s

theorem kept_retryClosures : Kept s s.retryClosures :=
  .foldl _ (fun s n => .ite (kept_testRemoval s n) (.refl s)) _ s

theorem kept_toAlongside (n : Nat) : Kept s (s.toAlongside n) := (kept_modOcc s n).trans (kept_notify _ _ _)

theorem kept_toDeparting (n : Nat) : Kept s (s.toDeparting n) :=
  ((kept_modOcc s n).trans (kept_notify _ _ _)).trans (kept_testRemoval _ _)

theorem kept_dayRollRecord (n : Nat) : Kept s (s.dayRollRecord n) := by
  unfold State.dayRollRecord
  split
  · exact .refl s
  · split
    · exact .ite (kept_toDeparting s _) (.refl s)
    · split
      · split
        · exact kept_closeOcc s ‹_› _ _
        · exact (kept_modOcc s n).trans (kept_setFlag _ _)
      · exact .refl s
    · exact .refl s

theorem kept_dayRoll : Kept s s.dayRoll :=
  ((Kept.foldl _ kept_dayRollRecord _ s).trans (.foldl _ (fun s n => kept_overdueCheck s n) _ _)).trans
    (kept_retryClosures _)

theorem kept_dropHold (n id : Nat) : Kept s (s.dropHold n id) :=
  kept_modOcc s n fun _ => ⟨rfl, rfl, rfl, rfl, List.filter_sublist.map _, fun h => h⟩

theorem kept_lapseHold (n id : Nat) : Kept s (s.lapseHold n id) :=
  ((kept_dropHold s n id).trans (kept_setFlag _ _)).trans (kept_testRemoval _ _)

theorem kept_lapseRecord (n : Nat) : Kept s (s.lapseRecord n) := by
  unfold State.lapseRecord
  split
  · exact .refl s
  · exact .foldl (fun s (h : Hold) => s.lapseHold n h.id) (fun s h => kept_lapseHold s n h.id) _ s

theorem kept_lapseDue : Kept s s.lapseDue :=
  .foldl (fun s (x : Nat × Nat) => s.lapseHold x.1 x.2) (fun s x => kept_lapseHold s x.1 x.2) _ s

theorem kept_modCredential (n : Nat) (f : Credential → Credential) : Kept s (s.modCredential n f) :=
  kept_modOcc s n

theorem kept_wrongPin (n : Nat) : Kept s (s.wrongPin n) := by
  unfold State.wrongPin
  split
  · exact .refl s
  · exact (kept_modCredential s _ _).trans (kept_setFlagIf _ _ _)

theorem kept_correctPin (n : Nat) : Kept s (s.correctPin n) := kept_modCredential s _ _

theorem kept_bindCard (n card : Nat) : Kept s (s.bindCard n card) := by
  refine kept_modOcc s n fun r => ?_
  split
  · exact ⟨rfl, rfl, rfl, rfl, .refl _, id⟩
  · split
    · exact .refl r
    · exact ⟨rfl, rfl, rfl, rfl, .refl _, id⟩

theorem kept_modAccount (n : Nat) (f : Account → Account) : Kept s (s.modAccount n f) := kept_modOcc s n

/-! ### SPC and FDC when PWB answers them -/

theorem kept_raiseOutcome (n : Nat) (o : RaiseOutcome) : Kept s (s.raiseOutcome n o) :=
  (within_raiseOutcome s n o).kept

theorem kept_raiseServed (n : Nat) : Kept s (s.raiseServed n) := by
  unfold State.raiseServed
  split
  · exact .refl s
  · split
    · exact (((kept_modOcc s _).trans (within_modPoint _ _ _).kept).trans (within_followTap _ _).kept).trans
        (kept_raiseOutcome _ _ _)
    · exact .refl s

theorem kept_fdc {f : State → State} (h : ∀ s, Within [.fdc] s (f s)) (fuel : FuelKept s (f s)) : Kept s (f s) :=
  (h s).kept (fuel := fun _ => fuel)

theorem kept_modSale (n : Nat) {f : Sale → Sale}
    (h : ∀ x, (f x).state = x.state := by exact fun _ => rfl) : Kept s (s.modSale n f) :=
  (within_modSale s n f).kept (fuel := fun _ => fuelKept_modSale s n h)

theorem kept_modRecord (n : Nat) {f : JournalRecord → JournalRecord}
    (h : ∀ r, (f r).number = r.number := by exact fun _ => rfl) : Kept s (s.modRecord n f) :=
  (within_modRecord s n f).kept (fuel := fun _ => fuelKept_modRecord s n h)

theorem kept_modPump (n : Nat) {f : Pump → Pump}
    (h : ∀ e p, s.pump? n = some p → (e = true → s.fdc.emergency = true) → p.sound e → (f p).sound e) :
    Kept s (s.modPump n f) :=
  (within_modPump s n f).kept (fuel := fun _ => fuelKept_modPump s n h)

end

/-- A pump with its valves shut and its sale not waiting or delivering while the emergency is active is sound. -/
theorem Pump.sound_shut {e : Bool} {p : Pump} (main : p.main = false) (slow : p.slow = false)
    (stopped : e = true → ∀ x, p.sale = some x → x.state = .finishing ∨ x.state = .settling) : p.sound e :=
  ⟨by simp [main], by simp [slow], stopped⟩

/-- A sale that does not deliver has both valves shut. -/
theorem Pump.sound.shut {e : Bool} {p : Pump} {x : Sale} (sound : p.sound e) (sale : p.sale = some x)
    (state : x.state ≠ .delivering) : p.main = false ∧ p.slow = false := by
  obtain ⟨both, delivering, _⟩ := sound
  have slow : p.slow = false := by
    by_contra open_
    obtain ⟨y, hy, hs⟩ := delivering (by simpa using open_)
    rw [sale] at hy
    cases hy
    exact state hs
  exact ⟨by simpa using mt both (by simp [slow]), slow⟩

/-- While a sale waits, delivers or is suspended the emergency is not active. -/
theorem Pump.sound.calm {e : Bool} {p : Pump} {x : Sale} (sound : p.sound e) (sale : p.sale = some x)
    (finishing : x.state ≠ .finishing) (settling : x.state ≠ .settling) : e = false := by
  obtain ⟨_, _, stopped⟩ := sound
  by_contra active
  rcases stopped (by simpa using active) x sale with h | h
  · exact finishing h
  · exact settling h

theorem Pump.closeAsk_sound {e : Bool} {p : Pump} (n : Nat) (h : Option HoldRef) (sound : p.sound e) :
    (p.closeAsk n h).sound e := by
  unfold Pump.closeAsk
  split
  · exact sound
  · exact sound

section
variable (s : State)

theorem kept_tryAuthorise (n : Nat) : Kept s (s.tryAuthorise n) := by
  unfold State.tryAuthorise
  split
  · exact .refl s
  next p hp =>
    split
    next x c hx _ =>
      split
      next ready =>
        have waits : x.state = .authorising := by
          simp only [Bool.and_eq_true, decide_eq_true_eq] at ready
          exact ready.1.1
        refine (kept_modPump s n fun e q hq _ sound => ?_).trans (kept_setFlag _ _)
        obtain rfl : p = q := Option.some.inj (hp.symm.trans hq)
        have calm := sound.calm hx (by simp [waits]) (by simp [waits])
        obtain ⟨main, slow⟩ := sound.shut hx (by simp [waits])
        exact Pump.sound_shut main slow (by simp [calm])
      next => exact .refl s
    · exact .refl s

theorem kept_zeroSettle (h : HoldRef) (n : Nat) : Kept s (s.zeroSettle h n) := by
  unfold State.zeroSettle
  split
  · exact kept_queueFrame s _
  · exact .refl s

theorem kept_eraseRecord (n : Nat) : Kept s { s with fdc := { s.fdc with
    journal := eraseKey JournalRecord.number n s.fdc.journal } } :=
  (within_fdc s _).kept (fuel := fun _ => .of_journal ⟨rfl, rfl⟩ rfl (List.filter_sublist.map _))

/-- The sale leaves the pump, its valves shut. -/
theorem kept_idle (n : Nat) (last : LastOutcome) : Kept s (s.modPump n fun p => { p with
    sale := none
    main := false
    slow := false
    last := last }) :=
  kept_modPump s n fun _ _ _ _ _ => Pump.sound_idle rfl rfl rfl

theorem kept_endUnusedCore (n : Nat) (c : AuthCause) (r : LapseReason) : Kept s (s.endUnusedCore n c r) := by
  unfold State.endUnusedCore
  split
  · exact .refl s
  next x _ =>
    have released : Kept s (match x.hold with | some h => s.zeroSettle h x.number | none => s) := by
      split
      · exact kept_zeroSettle s _ _
      · exact .refl s
    have asked := released.trans (kept_modPump _ n (f := fun p => p.closeAsk x.number x.hold)
      fun _ _ _ _ sound => Pump.closeAsk_sound _ _ sound)
    have erased := asked.trans (kept_eraseRecord _ x.number)
    exact .ite ((erased.trans (kept_idle _ n _)).trans (kept_setFlag _ _))
      ((erased.trans (kept_idle _ n _)).trans (kept_setFlag _ _))

theorem kept_pumpFailed (n : Nat) (c : AuthCause) : Kept s (s.pumpFailed n c) := by
  unfold State.pumpFailed
  split
  · exact .ite (kept_endUnusedCore s _ _ _) (.refl s)
  · exact .refl s

/-! ### PWB's lists -/

/-- A change of PWB alone in which neither the loans nor the demands grow. -/
theorem kept_pwb {p : Pwb} (loans : p.loans.length ≤ s.pwb.loans.length := by simp)
    (demands : p.demands.length ≤ s.pwb.demands.length := by simp) : Kept s { s with pwb := p } :=
  (within_pwb s p).kept (pwb := fun _ => .of_le loans demands)

theorem kept_popDemand : Kept s s.popDemand := kept_pwb s

theorem kept_modHead (f : Demand → Demand) : Kept s (s.modHead f) := by
  refine kept_pwb s le_rfl ?_
  cases s.pwb.demands <;> simp

theorem kept_dropLoans (p : Loan → Bool) : Kept s (s.dropLoans p) := kept_pwb s (List.length_filter_le _ _)

theorem kept_modLoan (b : Bool) (n : Nat) (f : Loan → Loan) : Kept s (s.modLoan b n f) := kept_pwb s

theorem kept_stamp : Kept s s.stamp := (within_stamp s).kept

theorem kept_energise (n f : Nat) : Kept s (s.energise n f) :=
  ((kept_stamp s).trans (kept_pwb _)).trans (within_commandOn _ _ _).kept

theorem kept_setOutlet (n : Nat) (o : OutletState) : Kept s (s.setOutlet n o) := (within_setOutlet s n o).kept

theorem kept_shedFailed (n f : Nat) : Kept s (s.shedFailed n f) :=
  (((kept_stamp s).trans (kept_pwb _)).trans (kept_setOutlet _ _ _)).trans (kept_setFlag _ _)

theorem kept_dropOutlet (n : Nat) : Kept s (s.dropOutlet n) := kept_pwb s

theorem kept_dropDemands (n : Nat) : Kept s (s.dropDemands n) := kept_pwb s le_rfl (List.length_filter_le _ _)

theorem kept_shedOutlet (e : OutletLoad) : Kept s (s.shedOutlet e) :=
  (((((kept_dropOutlet s _).trans (kept_dropDemands _ _)).trans (kept_pwb _)).trans
    (kept_setOutlet _ _ _)).trans (kept_raiseOutcome _ _ _)).trans (kept_setFlag _ _)

theorem kept_shedPass : Kept s s.shedPass := .foldl _ (fun s _ => .ite (kept_shedOutlet s _) (.refl s)) _ s

theorem kept_shedIfShort : Kept s s.shedIfShort := .ite (kept_shedPass s) (.refl s)

/-! ### The head and the passes -/

theorem kept_serveHead (d : Demand) : Kept s (s.serveHead d) := by
  unfold State.serveHead
  dsimp only
  split
  · exact (kept_popDemand s).trans (kept_energise _ _ _)
  · exact ((kept_popDemand s).trans (kept_pwb _)).trans (kept_raiseServed _ _)
  · exact ((kept_popDemand s).trans (kept_modSale _ _)).trans (kept_tryAuthorise _ _)

theorem kept_failHead (d : Demand) (c : FailCause) (b : Bool) : Kept s (s.failHead d c b) := by
  have popped : Kept s (s.popDemand.setFlagIf b .askShort) := (kept_popDemand s).trans (kept_setFlagIf _ _ _)
  unfold State.failHead
  dsimp only
  split
  · exact popped.trans (kept_shedFailed _ _ _)
  · exact popped.trans (kept_raiseOutcome _ _ _)
  · exact popped.trans (kept_pumpFailed _ _ _)

theorem kept_recallOne (n : Nat) : Kept s (s.recallOne n) := by
  unfold State.recallOne
  split
  · exact .refl s
  · exact (kept_pwb s).trans (kept_queueFrame _ _)

theorem kept_recallFor (l : List Nat) : Kept s (s.recallFor l) :=
  (Kept.foldl _ kept_recallOne l s).trans (kept_modHead _ _)

theorem kept_askFor (d : Demand) (a : Nat) : Kept s (s.askFor d a) :=
  ((kept_pwb s).trans (kept_modHead _ _)).trans (kept_queueFrame _ _)

theorem kept_settles (before : State) : Kept s s.settle ∧ Kept s (s.settleSince before) :=
  settle_keeps (P := Kept s) (fun u d _ _ h => h.trans (kept_serveHead u d))
    (fun u d _ c b _ h => h.trans (kept_failHead u d c b)) (fun u l h => h.trans (kept_recallFor u l))
    (fun u d a h => h.trans (kept_askFor u d a))
    (fun u _ _ _ h => (h.trans (kept_pwb u)).trans (kept_energise _ _ _)) s before (.refl s)

theorem kept_settle : Kept s s.settle := (kept_settles s s).1

theorem kept_settleSince (before : State) : Kept s (s.settleSince before) := (kept_settles s before).2

/-- A demand joins a queue with a free place (R56). -/
theorem kept_appendDemand (room : s.queueFull = false) (k : DemandKind) (source need : Nat) :
    Kept s (s.appendDemand k source need) := by
  have places : s.pwb.demands.length < 8 := Nat.not_le.mp (of_decide_eq_false room)
  exact (within_appendDemand s k source need).kept
    (pwb := fun _ => ⟨id, fun _ => by simpa [State.appendDemand, State.stamp] using places⟩)

theorem kept_submitEnergise (n need : Nat) : Kept s (s.submitEnergise n need) := by
  unfold State.submitEnergise
  refine .ite (.refl s) ?_
  split
  · exact kept_shedFailed s _ _
  next room =>
    have joined := kept_appendDemand s (by simpa using room) .energise n need
    exact .ite (joined.trans (kept_settle _)) joined

theorem kept_outletOut (n : Nat) (o : OutletState) : Kept s (s.outletOut n o) :=
  (((kept_dropOutlet s n).trans (kept_dropDemands _ n)).trans (kept_setOutlet _ _ _)).trans
    (kept_raiseOutcome _ _ _)

theorem kept_outletOff (n : Nat) (o : OutletState) : Kept s (s.outletOff n o) :=
  (kept_outletOut s n o).trans (kept_settleSince _ _)

theorem kept_releaseLoad (n : Nat) : Kept s (s.releaseLoad n) := (kept_modSale s n).trans (kept_settle _)

theorem kept_withdrawPump (n : Nat) : Kept s (s.withdrawPump n) := by
  refine Kept.trans ?_ (kept_settleSince _ _)
  exact kept_pwb s le_rfl (List.length_filter_le _ _)

theorem kept_endUnused (n : Nat) (c : AuthCause) (r : LapseReason) : Kept s (s.endUnused n c r) := by
  unfold State.endUnused
  split
  · exact .refl s
  · split
    · exact (kept_endUnusedCore s _ _ _).trans (kept_withdrawPump _ _)
    · exact (kept_endUnusedCore s _ _ _).trans (kept_settle _)

/-! ### Loans -/

theorem kept_ceilingFell : Kept s s.ceilingFell :=
  .ite ((kept_shedPass s).trans (kept_settleSince _ _)) (.refl s)

theorem kept_declineOffers (l : List Offer) : Kept s (s.declineOffers l) :=
  .foldl (fun s (o : Offer) => s.queueFrame (loanDeclineFrame s.me o.lender o.pledge))
    (fun s _ => kept_queueFrame s _) _ s

theorem kept_endStale (c : Collection) : Kept s (s.endStale c) := (kept_pwb s).trans (kept_dropLoans _ _)

end

end Sys2Proof.Machine
end

section
/-! PROOFS. What the other operations keep of a sound state: PWB's loans, SPC's points (04), FDC's sales (05),
BAL's rounds (01), OCC's creations and holds (02), the gate (06) and the clock (07). -/

namespace Sys2Proof.Machine

set_option Elab.async false

section
variable (s : State)

/-! ### Offers taken (R62) -/

/-- An offer's IN record stands among the loans. -/
def inLoan (loans : List Loan) (o : Offer) : Bool :=
  loans.any fun l => !l.lent && l.partner == o.lender && l.pledge == o.pledge

theorem loan?_isSome (o : Offer) : (s.loan? false o.lender o.pledge).isSome = inLoan s.pwb.loans o := by
  rw [Bool.eq_iff_iff, State.loan?, List.find?_isSome, inLoan, List.any_eq_true]
  simp

/-- The offers without an IN record that are usable are no more than the free places (R62). -/
theorem usableOffers_new (loans : List Loan) (free : Nat) (l : List Offer) :
    ((usableOffers loans free l).filter fun o => !inLoan loans o).length ≤ free := by
  induction l generalizing free with
  | nil => exact Nat.zero_le _
  | cons o r ih =>
    unfold usableOffers
    split
    next known =>
      have old : inLoan loans o = true := known
      simpa [old] using ih free
    next unknown =>
      have new : inLoan loans o = false := Bool.not_eq_true _ ▸ unknown
      split
      · exact ih free
      · have fewer := ih (free - 1)
        simp only [List.filter_cons, new, Bool.not_false, if_true, List.length_cons]
        omega

theorem takenOffers_sublist (ask : Nat) (l : List Offer) : ((takenOffers ask l).map (·.1)).Sublist l := by
  induction l generalizing ask with
  | nil => exact .slnil
  | cons o r ih =>
    unfold takenOffers
    split
    · exact List.nil_sublist _
    · exact (ih _).cons_cons o

/-- Loans that keep partner, direction and pledge, with more behind them. -/
theorem inLoan_mono {l l' : List Loan} (h : ∀ x ∈ l, ∃ y ∈ l', y.lent = x.lent ∧ y.partner = x.partner ∧
    y.pledge = x.pledge) {o : Offer} (known : inLoan l o = true) : inLoan l' o = true := by
  obtain ⟨x, hx, same⟩ := List.any_eq_true.mp known
  obtain ⟨y, hy, lent, partner, pledge⟩ := h x hx
  exact List.any_eq_true.mpr ⟨y, hy, by rwa [lent, partner, pledge]⟩

theorem takeOffer_loans (x : Offer × Nat) :
    (∀ o, inLoan s.pwb.loans o = true → inLoan (s.takeOffer x).pwb.loans o = true) ∧
    (s.takeOffer x).pwb.loans.length ≤ s.pwb.loans.length + (if inLoan s.pwb.loans x.1 then 0 else 1) := by
  have queued (u : State) (f : Frame) : (u.queueFrame f).pwb = u.pwb := (within_queueFrame u f).pwb
  unfold State.takeOffer
  dsimp only
  rw [queued, loan?_isSome]
  split
  · refine ⟨fun o => inLoan_mono fun l hl => ?_, by simp [State.modLoan]⟩
    refine ⟨_, List.mem_map_of_mem hl, ?_⟩
    dsimp only
    split <;> exact ⟨rfl, rfl, rfl⟩
  · exact ⟨fun o => inLoan_mono fun l hl => ⟨l, List.mem_append_left _ hl, rfl, rfl, rfl⟩, by simp⟩

/-- Every offer taken without an IN record adds one. -/
theorem takeOffers_loans (l : List (Offer × Nat)) : (l.foldl State.takeOffer s).pwb.loans.length ≤
    s.pwb.loans.length + ((l.map (·.1)).filter fun o => !inLoan s.pwb.loans o).length := by
  induction l generalizing s with
  | nil => exact Nat.le_refl _
  | cons x r ih =>
    obtain ⟨stand, grown⟩ := takeOffer_loans s x
    have fewer : ((r.map (·.1)).filter fun o => !inLoan (s.takeOffer x).pwb.loans o).length ≤
        ((r.map (·.1)).filter fun o => !inLoan s.pwb.loans o).length := by
      refine (List.monotone_filter_right _ fun o new => ?_).length_le
      simpa using mt (stand o) (by simpa using new)
    have rest := ih (s.takeOffer x)
    simp only [List.foldl_cons, List.map_cons, List.filter_cons]
    split at grown
    next known =>
      simp only [known, Bool.not_true, Bool.false_eq_true, if_false]
      omega
    next new =>
      simp only [Bool.not_eq_true] at new
      simp only [new, Bool.not_false, if_true, List.length_cons]
      omega

theorem kept_takeOffers (free amount : Nat) (offers : List Offer) (room : free = 16 - s.pwb.loans.length) :
    Kept s ((takenOffers amount (usableOffers s.pwb.loans free offers)).foldl State.takeOffer s) := by
  refine (Within.foldl _ within_takeOffer _ s).kept (line := fun _ => ?_) (pwb := fun _ => ?_)
  · generalize takenOffers amount (usableOffers s.pwb.loans free offers) = l
    clear room
    induction l generalizing s with
    | nil => exact .refl s
    | cons x r ih =>
      refine LineKept.trans ?_ (ih _)
      exact (LineKept.of_eq (by split <;> rfl)).trans (lineKept_queueFrame _ _)
  · have few := (((takenOffers_sublist amount (usableOffers s.pwb.loans free offers)).filter _).length_le).trans
      (usableOffers_new s.pwb.loans free offers)
    have all := takeOffers_loans s (takenOffers amount (usableOffers s.pwb.loans free offers))
    have demands : ∀ (l : List (Offer × Nat)) (u : State),
        (l.foldl State.takeOffer u).pwb.demands = u.pwb.demands := by
      intro l
      induction l with
      | nil => exact fun _ => rfl
      | cons x r ih =>
        intro u
        refine (ih _).trans ?_
        unfold State.takeOffer
        dsimp only
        rw [(within_queueFrame _ _).pwb]
        split <;> rfl
    exact ⟨fun _ => by omega, fun h => by rwa [demands]⟩

theorem kept_takeAsked (c : Collection) (d : Demand) : Kept s (s.takeAsked c d) := by
  unfold State.takeAsked
  dsimp only
  split
  · have taken := (kept_takeOffers s _ c.amount c.offers rfl).trans (kept_declineOffers _
      (c.offers.filter fun o => !((takenOffers c.amount (usableOffers s.pwb.loans
        (Config.maxLoans - s.pwb.loans.length) c.offers)).map (·.1)).contains o))
    exact .ite (taken.trans (kept_settle _)) ((taken.trans (kept_failHead _ _ _ _)).trans (kept_settle _))
  · exact ((kept_declineOffers s _).trans (kept_failHead _ _ _ _)).trans (kept_settle _)

theorem kept_closeOffers (c : Collection) (shed : Bool) : Kept s (s.closeOffers c shed) := by
  unfold State.closeOffers
  split
  · exact .ite ((kept_declineOffers s _).trans (kept_settle _)) (kept_declineOffers s _)
  · exact kept_takeAsked s _ _

theorem kept_closeCollection (c : Collection) : Kept s (s.closeCollection c) :=
  .ite (((kept_endStale s c).trans (kept_shedPass _)).trans (kept_closeOffers _ _ _))
    ((kept_endStale s c).trans (kept_closeOffers _ _ _))

theorem kept_askFailed (c : Collection) : Kept s (s.askFailed c) := by
  unfold State.askFailed
  dsimp only
  split
  · exact ((kept_pwb s).trans (kept_failHead _ _ _ _)).trans (kept_settle _)
  · exact .ite (kept_pwb s) ((kept_pwb s).trans (kept_settle _))

theorem kept_abandonAsk : Kept s s.abandonAsk := by
  unfold State.abandonAsk
  dsimp only
  split
  · exact (kept_pwb s).trans (kept_failHead _ _ _ _)
  · exact kept_pwb s

theorem kept_loansLineOff : Kept s s.loansLineOff := by
  have ended : Kept s ((s.dropLoans fun _ => true).shedIfShort.abandonAsk) :=
    ((kept_dropLoans s _).trans (kept_shedIfShort _)).trans (kept_abandonAsk _)
  exact .ite (ended.trans (kept_settleSince _ _)) (ended.trans (kept_settle _))

theorem kept_dropOffer (n : Nat) : Kept s (s.dropOffer n) := kept_pwb s

theorem kept_loansOnJoin (n : Nat) : Kept s (s.loansOnJoin n) :=
  .ite ((((kept_dropOffer s n).trans (kept_dropLoans _ _)).trans (kept_shedIfShort _)).trans (kept_settle _))
    (kept_dropOffer s n)

/-! ### Lending -/

/-- An OUT record joins a table with a free place (R53, R64). -/
theorem kept_makeOffer (asker seq amount : Nat) (offers : s.noOffer asker = false) :
    Kept s (s.makeOffer asker seq amount) := by
  unfold State.makeOffer
  dsimp only
  split
  · exact (kept_modLoan s _ _ _).trans (kept_queueFrame _ _)
  next none_ =>
    have room : s.pwb.loans.length < 16 := by
      simp only [State.noOffer, none_, Bool.or_eq_false_iff, decide_eq_false_iff_not, Nat.not_le] at offers
      exact offers.2
    refine Kept.trans ?_ (kept_queueFrame _ _)
    exact (within_pwb s _).kept (pwb := fun _ => ⟨fun _ => by simpa using room, id⟩)

theorem kept_endPledge (l : Loan) : Kept s (s.endPledge l) :=
  .ite ((kept_dropLoans s _).trans (kept_settle _)) (.ite ((kept_modLoan s _ _ _).trans (kept_settle _)) (.refl s))

theorem kept_voidTake (partner pledge : Nat) : Kept s (s.voidTake partner pledge) :=
  (((kept_dropLoans s _).trans (kept_queueFrame _ _)).trans (kept_setFlag _ _)).trans (kept_settleSince _ _)

theorem kept_takeLoan (partner pledge taken : Nat) : Kept s (s.takeLoan partner pledge taken) := by
  unfold State.takeLoan
  split
  · exact kept_voidTake s _ _
  · exact .ite ((kept_modLoan s _ _ _).trans (kept_settleSince _ _))
      (.ite ((kept_modLoan s _ _ _).trans (kept_settleSince _ _)) (kept_voidTake s _ _))

theorem kept_undoTake (lender pledge taken : Nat) : Kept s (s.undoTake lender pledge taken) := by
  unfold State.undoTake
  split
  · exact .refl s
  · exact (Kept.ite (kept_dropLoans s _) (kept_modLoan s _ _ _)).trans (kept_ceilingFell _)

/-! ### SPC -/

theorem kept_modPoint (n : Nat) (f : Point → Point) : Kept s (s.modPoint n f) := (within_modPoint s n f).kept

theorem kept_modPost (n : Nat) (f : Post → Post) : Kept s (s.modPost n f) := (within_modPost s n f).kept

theorem kept_chargeLink (n o : Nat) : Kept s (s.chargeLink n o) := (within_chargeLink s n o).kept

theorem kept_followTap (n : Nat) : Kept s (s.followTap n) := (within_followTap s n).kept

theorem kept_callEnergise (n : Nat) (r : Occupancy) : Kept s (s.callEnergise n r) := by
  unfold State.callEnergise
  refine .ite (kept_setOutlet s _ _) ?_
  split
  · exact (kept_setOutlet s _ _).trans (kept_submitEnergise _ _ _)
  · exact .refl s

theorem kept_commandArrival (n : Nat) (r : Occupancy) : Kept s (s.commandArrival n r) :=
  .ite (.ite (kept_setOutlet s _ _) ((kept_callEnergise s _ _).trans (kept_followTap _ _))) (.refl s)

theorem kept_spcArrive (n : Nat) (r : Occupancy) : Kept s (s.spcArrive n r) := by
  unfold State.spcArrive
  split
  · exact .refl s
  · exact .ite ((kept_chargeLink s _ _).trans (kept_commandArrival _ _ _))
      (.ite (.refl s) (kept_modPoint s _ _))

theorem kept_clearAwaiting (n : Nat) : Kept s (s.clearAwaiting n) := (kept_modOcc s n).trans (kept_testRemoval _ _)

theorem kept_markFinal (n : Nat) : Kept s (s.markFinal n) := (within_markFinal s n).kept

theorem kept_spcDepart (n o : Nat) (m : FinalMark) : Kept s (s.spcDepart n o m) := by
  unfold State.spcDepart
  split
  · exact .refl s
  · refine .ite ?_ (.ite ((kept_modPoint s _ _).trans (kept_clearAwaiting _ _)) (.refl s))
    exact ((kept_outletOff s _ _).trans (within_closeTap _ _).kept).trans (kept_modPoint _ _ _)

theorem kept_spcBar (n : Nat) (r : Occupancy) : Kept s (s.spcBar n r) := by
  unfold State.spcBar
  split
  · exact .refl s
  · refine .ite ?_ (.refl s)
    exact (Kept.ite (kept_outletOff s _ _) (.ite (kept_setOutlet s _ _) (.refl s))).trans
      (within_closeTap _ _).kept

theorem kept_spcUnbar (n : Nat) (r : Occupancy) : Kept s (s.spcUnbar n r) := by
  unfold State.spcUnbar
  split
  · exact .refl s
  · refine .ite ?_ (.refl s)
    exact (Kept.ite (kept_callEnergise s _ _) (.refl s)).trans (kept_followTap _ _)

theorem kept_startCycle : Kept s s.startCycle := (within_startCycle s).kept

theorem kept_nextPoll : Kept s s.nextPoll := (within_nextPoll s).kept

theorem kept_chargeEnergy (n d : Nat) : Kept s (s.chargeEnergy n d) := by
  unfold State.chargeEnergy
  split
  · exact .refl s
  · exact (within_modLink s _ _).kept.trans (kept_debit _ _ _)

theorem kept_chargeWater (n d : Nat) : Kept s (s.chargeWater n d) := by
  unfold State.chargeWater
  split
  · exact .refl s
  · exact (within_modLink s _ _).kept.trans (kept_debit _ _ _)

theorem kept_meterEnergy (n c : Nat) : Kept s (s.meterEnergy n c) := by
  unfold State.meterEnergy
  split
  · exact .refl s
  · split
    · exact .refl s
    · exact .ite (.refl s) (.ite (kept_setFlag s _) (.ite (kept_setFlag s _) (kept_chargeEnergy s _ _)))

theorem kept_leak (n l : Nat) : Kept s (s.leak n l) := by
  unfold State.leak
  split
  · exact .refl s
  · exact .ite (kept_setFlag s _) (((kept_setFlag s _).trans (kept_modPoint _ _ _)).trans (kept_alarm _ _ _ _))

theorem kept_meterWater (n c : Nat) : Kept s (s.meterWater n c) := by
  unfold State.meterWater
  split
  · exact .refl s
  · split
    · exact .refl s
    · exact .ite (kept_modPoint s _ _) (.ite (kept_leak s _ _)
        (.ite (kept_setFlag s _) (kept_chargeWater s _ _)))

theorem kept_takeTrip (n : Nat) (a b : Bool) : Kept s (s.takeTrip n a b) := by
  unfold State.takeTrip
  split
  · exact .refl s
  · exact .ite (((kept_modPoint s _ _).trans (kept_outletOff _ _ _)).trans (kept_setFlag _ _))
      (.ite (kept_modPoint s _ _) (.refl s))

theorem kept_takeTurn (n : Nat) (r : Occupancy) : Kept s (s.takeTurn n r) :=
  .ite (.ite (.ite (kept_setOutlet s _ _) (kept_followTap s _)) (.refl s)) (kept_commandArrival s _ _)

theorem kept_nextArrival (n : Nat) : Kept s (s.nextArrival n) := by
  unfold State.nextArrival
  split
  · dsimp only
    split
    · exact kept_modPoint s _ _
    · have turned (u : State) (o : Nat) (r : Occupancy) : Kept u ((u.chargeLink n o).takeTurn n r) :=
        (kept_chargeLink u n o).trans (kept_takeTurn _ n r)
      exact .ite (((kept_modPoint s _ _).trans (turned _ _ _)).trans (kept_markFinal _ _))
        ((kept_modPoint s _ _).trans (turned _ _ _))
  · exact .refl s

theorem kept_takeRetained (n m : Nat) : Kept s (s.takeRetained n m) := by
  unfold State.takeRetained
  split
  · exact .refl s
  · exact (kept_modPoint s _ _).trans
      (Kept.foldl (fun s (o : Nat) => s.clearAwaiting o) (fun s o => kept_clearAwaiting s o) _ _)

theorem kept_takeMarked (n m : Nat) (f : FinalMark) (r : Occupancy) : Kept s (s.takeMarked n m f r) :=
  .ite (((kept_modPoint s _ _).trans (kept_clearAwaiting _ _)).trans (kept_nextArrival _ _)) (.refl s)

theorem kept_takeFinal (n m : Nat) : Kept s (s.takeFinal n m) := by
  unfold State.takeFinal
  split
  · exact .refl s
  · refine .ite (kept_nextArrival s _) ?_
    split
    · exact kept_takeMarked s _ _ _ _
    · exact .refl s

theorem kept_acceptSide (n e w : Nat) (a b : Bool) (m : Nat) : Kept s (s.acceptSide n e w a b m) :=
  .ite ((((((kept_takeTrip s _ _ _).trans (kept_meterEnergy _ _ _)).trans (kept_meterWater _ _ _)).trans
    (within_recordBases _ _ _ _).kept).trans (kept_takeRetained _ _ _)).trans (kept_takeFinal _ _ _)) (.refl s)

theorem kept_returnOutlet (n : Nat) : Kept s (s.returnOutlet n) := by
  unfold State.returnOutlet
  split
  · exact .refl s
  · refine .ite ?_ (.refl s)
    split
    · exact .ite (.ite (kept_setOutlet s _ _) (kept_callEnergise s _ _)) (kept_setOutlet s _ _)
    · exact kept_setOutlet s _ _

theorem kept_postGood (n : Nat) : Kept s (s.postGood n) := by
  unfold State.postGood
  split
  · exact .refl s
  · exact .ite (kept_modPost s _ _)
      (((kept_modPost s _ _).trans (kept_returnOutlet _ _)).trans (kept_returnOutlet _ _))

theorem kept_badPoll (n : Nat) : Kept s (s.badPoll n) := by
  unfold State.badPoll
  split
  · exact .refl s
  · exact .ite (((kept_modPost s _ _).trans (kept_setFlag _ _)).trans (kept_alarm _ _ _ _)) (kept_modPost s _ _)

theorem kept_takeReport (p : OpenPoll) (r : PostReport) : Kept s (s.takeReport p r) :=
  .ite (.refl s) (.ite
    (((kept_acceptSide s _ _ _ _ _ _).trans (kept_acceptSide _ _ _ _ _ _ _)).trans (kept_postGood _ _))
    (kept_badPoll s _))

theorem kept_faultOutlet (n : Nat) : Kept s (s.faultOutlet n) := by
  unfold State.faultOutlet
  split
  · exact .refl s
  · exact .ite (kept_outletOut s _ _) (.refl s)

theorem kept_postFails (n : Nat) : Kept s (s.postFails n) :=
  ((((kept_modPost s _ _).trans (kept_faultOutlet _ _)).trans (kept_faultOutlet _ _)).trans
    (kept_settleSince _ _)).trans (kept_setFlag _ _)

theorem kept_retainEnergise (n : Nat) : Kept s (s.retainEnergise n) := by
  unfold State.retainEnergise
  split
  · exact .refl s
  · split
    · exact .refl s
    · split
      · exact .refl s
      · exact .ite (kept_commandArrival s _ _) (.refl s)

theorem kept_firstOnLine : Kept s s.firstOnLine := by
  unfold State.firstOnLine
  exact .ite ((within_spc s _).kept.trans (.foldl _ kept_retainEnergise _ _)) (.refl s)

theorem kept_resetOutlet (n : Nat) : Kept s (s.resetOutlet n) := by
  unfold State.resetOutlet
  split
  · exact .ite (.ite (kept_setOutlet s _ _) (kept_callEnergise s _ _)) (kept_setOutlet s _ _)
  · exact kept_setOutlet s _ _

theorem kept_tellFigure (p : Point) (figure : Nat) : Kept s (s.tellFigure p figure) :=
  .ite (.ite ((kept_pwb s).trans (kept_settle _)) (kept_pwb s)) (.ite (kept_pwb s) (.refl s))

theorem kept_applyProfile (occ : Nat) (p : Point) (q : Profile) : Kept s (s.applyProfile occ p q) := by
  have written : Kept s (s.modOcc occ fun r => { r with profile := some q }) := kept_modOcc s occ
  exact .ite ((written.trans (kept_tellFigure _ _ _)).trans (kept_followTap _ _)) written

theorem kept_beginRaise (room : s.queueFull = false) (p : Point) (q : Profile) (need : Nat) :
    Kept s (s.beginRaise p q need) := by
  have joined := (kept_modPoint s p.number fun x => { x with
    raisePending := some q
    raiseLast := .none }).trans (kept_appendDemand (s.modPoint p.number _) room .raise p.number need)
  exact .ite (joined.trans (kept_settle _)) joined

theorem kept_setProfile (occ : Nat) (p : Point) (old new : Profile) : Kept s (s.setProfile occ p old new).1 := by
  unfold State.setProfile
  split
  · split
    · exact .refl s
    next room => exact kept_beginRaise s (by simpa using room) _ _ _
  · exact kept_applyProfile s _ _ _

end

end Sys2Proof.Machine
end

section
/-! PROOFS. What the operations of FDC (05), BAL (01), OCC's creations and holds (02), the gate (06) and the clock
(07) keep of a sound state. -/

namespace Sys2Proof.Machine

set_option Elab.async false

theorem modPump_modPump (s : State) (n : Nat) (f g : Pump → Pump) :
    (s.modPump n f).modPump n g = s.modPump n fun p => g (f p) := by
  unfold State.modPump
  split
  · rfl
  · split <;> rfl

theorem sale?_some {s : State} {n : Nat} {x : Sale} (h : s.sale? n = some x) :
    ∃ p, s.pump? n = some p ∧ p.sale = some x := Option.bind_eq_some_iff.mp h

section
variable (s : State)

/-! ### FDC -/

/-- A journal record of a free number joins a journal with a free place (R124). -/
theorem kept_reserve {n : Nat} (room : s.journalRoom = true)
    (fresh : n ∉ keysOf JournalRecord.number s.fdc.journal) (p q : Nat) (c : Option Nat) (k : PumpConfig) :
    Kept s (s.reserve n p q c k) := by
  have places : s.fdc.journal.length < 64 := of_decide_eq_true room
  refine Kept.trans ?_ (kept_setFlagIf _ _ _)
  refine (within_fdc s _).kept (fuel := fun _ => ⟨rfl, fun _ _ => id, fun ⟨_, apart⟩ => ⟨?_, ?_⟩⟩)
  · simpa using places
  · rw [List.map_append, List.nodup_append']
    exact ⟨apart, List.nodup_singleton _, by simpa [keysOf] using fresh⟩

theorem reserve_pump? (n p q : Nat) (c : Option Nat) (k : PumpConfig) (m : Nat) :
    (s.reserve n p q c k).pump? m = s.pump? m := by simp [State.pump?, State.reserve]

/-- The sale number a reservation gives is free while the journal has a place (R124). -/
theorem nextSaleNo_fresh (room : s.journalRoom = true) :
    s.nextSaleNo.getD 0 ∉ keysOf JournalRecord.number s.fdc.journal := by
  have places : s.fdc.journal.length < 64 := of_decide_eq_true room
  have found : (s.nextSaleNo).isSome = true := nextFree_isSome (by simp [keysOf]; omega) (by decide)
  obtain ⟨k, hk⟩ := Option.isSome_iff_exists.mp found
  rw [hk]
  exact (nextFreeIn_some (by decide) hk).2.2

/-- A change of a pump that leaves its sale and its valves. -/
theorem kept_modPump_aside (n : Nat) {f : Pump → Pump} (sale : ∀ p, (f p).sale = p.sale := by exact fun _ => rfl)
    (main : ∀ p, (f p).main = p.main := by exact fun _ => rfl)
    (slow : ∀ p, (f p).slow = p.slow := by exact fun _ => rfl) : Kept s (s.modPump n f) :=
  kept_modPump s n fun _ p _ _ sound =>
    Pump.sound_of_state (p := p) (main p) (slow p) (by rw [sale]) sound

theorem kept_sendHoldAsk (n a : Nat) : Kept s (s.sendHoldAsk n a) := by
  unfold State.sendHoldAsk
  split
  · exact .refl s
  · split
    · exact .refl s
    · exact (kept_modPump_aside s n).trans (kept_queueFrame _ _)

theorem kept_beginAsk (n : Nat) : Kept s (s.beginAsk n) := (kept_modPump_aside s n).trans (kept_sendHoldAsk _ _ _)

theorem kept_askUnanswered (n : Nat) : Kept s (s.askUnanswered n) := by
  unfold State.askUnanswered
  split
  · exact .refl s
  · exact .ite (kept_sendHoldAsk s _ _) (kept_endUnused s _ _ _)

/-- A delivery suspended or ended: the valves shut, the sale in a state that draws nothing, which under the
emergency is FINISHING (R112, R116). -/
theorem kept_shutSale (n : Nat) {f : Sale → Sale}
    (stopped : ∀ e p x, s.pump? n = some p → p.sale = some x → p.sound e → e = true → (f x).state = .finishing) :
    Kept s ((s.shutValves n).modSale n f) := by
  unfold State.shutValves State.modSale
  rw [modPump_modPump]
  refine kept_modPump s n fun e p hp _ sound => Pump.sound_shut rfl rfl fun he y hy => ?_
  obtain ⟨x, hx, rfl⟩ := Option.map_eq_some_iff.mp hy
  exact .inl (stopped e p x hp hx sound he)

theorem kept_toFinishing (n : Nat) : Kept s (s.toFinishing n) :=
  kept_shutSale s n fun _ _ _ _ _ _ _ => rfl

theorem kept_flagRecord (n : Nat) (f : SaleFlags → SaleFlags) : Kept s (s.flagRecord n f) := by
  unfold State.flagRecord
  split
  · exact kept_modRecord s _
  · exact .refl s

theorem kept_countPulse (n k : Nat) : Kept s (s.countPulse n k) := by
  unfold State.countPulse
  split
  · exact .refl s
  · exact (kept_modSale s n).trans (kept_modRecord _ _)

/-- The main valve alone closes. -/
theorem kept_shutMain (n : Nat) : Kept s (s.modPump n fun p => { p with main := false }) :=
  kept_modPump s n fun _ _ _ _ ⟨_, delivering, stopped⟩ => ⟨by simp, delivering, stopped⟩

theorem kept_checkVolume (n : Nat) : Kept s (s.checkVolume n) := by
  unfold State.checkVolume
  split
  · exact .refl s
  · exact .ite (((kept_modSale s n).trans (kept_flagRecord _ _ _)).trans (kept_toFinishing _ _))
      (.ite ((kept_modSale s n).trans (kept_shutMain _ _)) (.refl s))

/-- A delivery begins or goes on: the sale waited at the pump, so that the emergency is not active (R116). -/
theorem kept_deliver (n : Nat) {f : Sale → Sale} (delivers : ∀ x, (f x).state = .delivering)
    (calm : ∀ p x, s.pump? n = some p → p.sale = some x → x.state ≠ .finishing ∧ x.state ≠ .settling) :
    Kept s ((s.modSale n f).openValves n) := by
  unfold State.modSale State.openValves
  rw [modPump_modPump]
  refine kept_modPump s n fun e p hp _ sound => ?_
  cases hx : p.sale with
  | none =>
    exact Pump.sound_of_state (p := p) (by simp) (by simp) (by simp [hx]) sound
  | some x =>
    obtain ⟨finishing, settling⟩ := calm p x hp hx
    have quiet := sound.calm hx finishing settling
    simp only [Option.map_some]
    exact ⟨fun _ => rfl, fun _ => ⟨f x, rfl, delivers x⟩, by simp [quiet]⟩

theorem kept_startDelivery (n : Nat) (c : PumpConfig) (authorised : ∀ x, s.sale? n = some x → x.state = .authorised) :
    Kept s (s.startDelivery n c) := by
  unfold State.startDelivery
  split
  · exact .refl s
  · refine (kept_deliver s n (fun _ => rfl) fun p x hp hx => ?_).trans (kept_modRecord _ _)
    have state := authorised x (by simp [State.sale?, hp, hx])
    simp [state]

theorem kept_closeSale (n : Nat) : Kept s (s.closeSale n) := by
  unfold State.closeSale
  split
  · exact .refl s
  · exact (((kept_modRecord s _).trans (kept_modPump _ n fun _ _ _ _ _ => Pump.sound_idle rfl rfl rfl)).trans
      (kept_setFlag _ _)).trans (kept_setFlagIf _ _ _)

theorem kept_closeUnsettled (n : Nat) : Kept s (s.closeUnsettled n) :=
  (kept_flagRecord s _ _).trans (kept_closeSale _ _)

theorem kept_sendSettle (n a : Nat) : Kept s (s.sendSettle n a) := by
  unfold State.sendSettle
  split
  · exact .refl s
  · split
    · exact .refl s
    · exact (kept_modSale s n).trans (kept_queueFrame _ _)

theorem kept_settleUnanswered (n : Nat) : Kept s (s.settleUnanswered n) := by
  unfold State.settleUnanswered
  split
  · exact .refl s
  · exact .ite (kept_sendSettle s _ _) (kept_closeUnsettled s _)

/-- A sale that does not deliver enters SETTLING. -/
theorem kept_toSettling (n : Nat) {f : Sale → Sale} (settles : ∀ x, (f x).state = .settling)
    (stopped : ∀ x, s.sale? n = some x → x.state ≠ .delivering) : Kept s (s.modSale n f) := by
  refine kept_modPump s n fun e p hp _ sound => ?_
  cases hx : p.sale with
  | none => exact Pump.sound_of_state (p := p) rfl rfl (by simp [hx]) sound
  | some x =>
    obtain ⟨main, slow⟩ := sound.shut hx (stopped x (by simp [State.sale?, hp, hx]))
    exact Pump.sound_shut main slow fun _ y hy => .inr (by cases hy; exact settles x)

/-- The sale of a pump, once it waits for no demand, keeps its state while PWB goes on. -/
theorem releaseLoad_sale {n : Nat} {x z : Sale} (hx : s.sale? n = some x) (state : x.state ≠ .authorising)
    (hz : (s.releaseLoad n).sale? n = some z) : z.state = x.state := by
  obtain ⟨p, hp, sale⟩ := sale?_some hx
  have stays : SaleStays n p x (s.modSale n fun x => { x with load := .released }) := by
    refine ⟨.released, ?_⟩
    unfold State.modSale
    rw [modPump_pump?, if_pos rfl, hp, Option.map_some, sale]
    rfl
  obtain ⟨⟨settled, _⟩, _⟩ := settle_stays s state stays
  exact settled.state hz

theorem kept_finishSale (n : Nat) (finishing : ∀ x, s.sale? n = some x → x.state = .finishing) :
    Kept s (s.finishSale n) := by
  unfold State.finishSale
  split
  · exact .refl s
  next x hx =>
    have priced : Kept s (s.modRecord x.number fun r => r.priced s.now) := kept_modRecord s _
    have released := priced.trans (kept_releaseLoad _ n)
    dsimp only
    split
    · exact released.trans (kept_closeSale _ _)
    · refine .ite ((released.trans (kept_toSettling _ n (fun _ => rfl) fun z hz => ?_)).trans
        (kept_sendSettle _ _ _)) (released.trans (kept_closeUnsettled _ _))
      have standing := finishing x hx
      have same := releaseLoad_sale (s.modRecord x.number fun r => r.priced s.now) hx (by simp [standing]) hz
      simp [same, standing]

theorem kept_pumpLineOff (n : Nat) : Kept s (s.pumpLineOff n) := by
  unfold State.pumpLineOff
  split
  · exact .refl s
  · split
    · exact .refl s
    · exact .ite (kept_endUnused s _ _ _) (.ite (kept_closeUnsettled s _) (.refl s))

theorem kept_pumpEmergency (n : Nat) : Kept s (s.pumpEmergency n) := by
  unfold State.pumpEmergency
  split
  · exact .refl s
  · split
    · exact kept_endUnused s _ _ _
    · exact kept_endUnused s _ _ _
    · exact (kept_flagRecord s _ _).trans (kept_toFinishing _ _)
    · exact (kept_flagRecord s _ _).trans (kept_toFinishing _ _)
    · exact .refl s
    · exact .refl s

theorem kept_strayPulse (n : Nat) : Kept s (s.strayPulse n) := (kept_modPump_aside s n).trans (kept_setFlag _ _)

theorem kept_pulse (n : Nat) (p : Pump) : Kept s (s.pulse n p) := by
  unfold State.pulse
  split
  · split
    · exact (kept_countPulse s _ _).trans (kept_checkVolume _ _)
    · exact (kept_countPulse s _ _).trans (kept_checkVolume _ _)
    · exact kept_countPulse s _ _
    all_goals exact kept_strayPulse s _
  · exact kept_strayPulse s _

theorem kept_lift (n : Nat) (p : Pump) (here : s.pump? n = some p) : Kept s (s.lift n p) := by
  have lifted : Kept s (s.modPump n fun p => { p with nozzleUp := true }) := kept_modPump_aside s n
  unfold State.lift
  dsimp only
  split
  next x c hx _ =>
    split
    next authorised =>
      refine lifted.trans (kept_startDelivery _ n c fun y hy => ?_)
      obtain ⟨q, hq, sale⟩ := sale?_some hy
      rw [modPump_pump?, if_pos rfl, here, Option.map_some] at hq
      cases hq
      cases hx.symm.trans sale
      exact authorised
    next => exact .ite lifted (lifted.trans (kept_setFlag _ _))
  · exact lifted.trans (kept_setFlag _ _)

theorem kept_hang (n : Nat) (p : Pump) : Kept s (s.hang n p) := by
  have hung : Kept s (s.modPump n fun p => { p with nozzleUp := false }) := kept_modPump_aside s n
  unfold State.hang
  dsimp only
  split
  · exact .ite (hung.trans (kept_toFinishing _ _)) hung
  · exact hung

theorem kept_answerOpen (n : Nat) (ok : Bool) (cause : AuthCause) (h : HoldRef) :
    Kept s (s.answerOpen n ok cause h) := by
  unfold State.answerOpen
  split
  · split
    next x hx =>
      obtain ⟨p, hp, sale⟩ := sale?_some hx
      refine ((kept_modPump s n fun e q hq _ sound => ?_).trans (kept_modRecord _ _)).trans (kept_tryAuthorise _ _)
      obtain rfl : p = q := Option.some.inj (hp.symm.trans hq)
      refine Pump.sound_of_state (p := p) ?_ ?_ (by simp [sale]) sound
      · unfold Pump.closeAsk; split <;> rfl
      · unfold Pump.closeAsk; split <;> rfl
    next => exact .refl s
  · exact kept_endUnused s _ _ _

theorem kept_takeAnswer (n seq : Nat) (ok : Bool) (cause : AuthCause) (h : HoldRef) :
    Kept s (s.takeAnswer n seq ok cause h) := by
  unfold State.takeAnswer
  split
  · exact .refl s
  · refine .ite (kept_answerOpen s _ _ _ _) ?_
    split
    · exact .ite (.ite (kept_zeroSettle s _ _) (.refl s)) (.refl s)
    · exact .refl s

theorem kept_settleAnswered (n : Nat) (r : SettleResult) : Kept s (s.settleAnswered n r) := by
  unfold State.settleAnswered
  split
  · exact .refl s
  · exact (kept_modRecord s _).trans (kept_closeSale _ _)

/-- A sale begins at an idle pump while the emergency is not active (R105). -/
theorem kept_authorise {n : Nat} {p : Pump} (here : s.pump? n = some p) {card : Option Nat}
    (may : s.authoriseRefusal p card = none) (preset : Nat) (c : PumpConfig) :
    Kept s (s.authorise n (s.nextSaleNo.getD 0) preset card c) := by
  unfold State.authoriseRefusal at may
  split at may
  · cases may
  next calm =>
    split at may
    · cases may
    next idle =>
      split at may
      · cases may
      · split at may
        · cases may
        next journal =>
          split at may
          · cases may
          next queue =>
            have room : s.journalRoom = true := by simpa using journal
            have reserved := (kept_appendDemand s (by simpa using queue) .pump n c.load).trans
              (kept_reserve (s.appendDemand .pump n c.load) room (nextSaleNo_fresh s room) n preset card c)
            have quiet : s.fdc.emergency = false := by simpa using calm
            have free : p.sale = none := by simpa using idle
            have begun := reserved.trans (kept_modPump _ n (f := fun p => { p with
                sale := some (newSale (s.nextSaleNo.getD 0) preset card)
                last := .pending }) fun e q hq mark sound => by
              have off : e = false := by
                cases e
                · rfl
                · have on := mark rfl
                  rw [reserved.fuel.emergency, quiet] at on
                  cases on
              have same : q = p := by
                exact Option.some.inj (hq.symm.trans ((reserve_pump? _ _ _ _ _ _ _).trans here))
              obtain ⟨both, delivering, _⟩ := sound
              have shut : q.slow = false := by
                by_contra open_
                obtain ⟨x, hx, _⟩ := delivering (by simpa using open_)
                rw [same, free] at hx
                cases hx
              exact Pump.sound_shut (by simpa using mt both (by simp [shut])) shut (by simp [off]))
            have asked := begun.trans (.ite (c := card.isSome = true) (kept_beginAsk _ n) (.refl _))
            exact .ite (asked.trans (kept_settle _)) asked

/-! ### BAL -/

theorem kept_modRound (t : Sys2Proof.Tag) {f : Round → Round}
    (h : ∀ r, (f r).tag = r.tag := by exact fun _ => rfl) : Kept s (s.modRound t f) :=
  (within_modRound s t f).kept (rounds := fun _ => roundsKept_modRound s t h)

/-- A change of BAL alone in which no round joins. -/
theorem kept_bal {b : Bal} (h : (b.rounds.map Round.tag).Sublist (s.bal.rounds.map Round.tag) := by
    exact List.Sublist.refl _) : Kept s { s with bal := b } :=
  (within_bal s b).kept (rounds := fun _ => .of_sublist h)

theorem kept_setMark (b : Nat) (t : Sys2Proof.Tag) : Kept s (s.setMark b t) := kept_bal s

theorem kept_clearMark (t : Sys2Proof.Tag) : Kept s (s.clearMark t) := kept_bal s

theorem kept_dropRound (t : Sys2Proof.Tag) : Kept s (s.dropRound t) := kept_bal s (List.filter_sublist.map _)

theorem kept_withdrawBid (r : Round) : Kept s (s.withdrawBid r) := by
  unfold State.withdrawBid
  split
  · exact kept_withdrawFrame s _
  · exact .refl s

theorem kept_discardRound (r : Round) : Kept s (s.discardRound r) :=
  ((kept_withdrawBid s _).trans (kept_clearMark _ _)).trans (kept_dropRound _ _)

theorem kept_endDelay (r : Round) : Kept s (s.endDelay r) := by
  unfold State.endDelay
  split
  · exact .refl s
  · exact (kept_modRound s _).trans (kept_queueFrame _ _)

theorem kept_hearKey (r : Round) (k : BidKey) : Kept s (s.hearKey r k) := by
  unfold State.hearKey
  refine .ite (.refl s) ?_
  have heard : Kept s (s.modRound r.tag fun x => { x with best := some (lowerKey x.best k) }) := kept_modRound s _
  dsimp only
  refine .ite heard ?_
  split
  · exact (heard.trans (kept_modRound _ _)).trans (kept_clearMark _ _)
  · exact ((heard.trans (kept_withdrawBid _ _)).trans (kept_modRound _ _)).trans (kept_clearMark _ _)
  · exact (heard.trans (kept_modRound _ _)).trans (kept_clearMark _ _)
  · exact heard

/-- A round of a tag not in the table joins it at a free place (R10, R11). -/
theorem kept_openRound {t : Sys2Proof.Tag} (room : s.roundRoom = true) (fresh : s.round? t = none)
    (q : BerthRequest) (b : Bool) : Kept s (s.openRound t q b) := by
  have places : s.bal.rounds.length < 4 := of_decide_eq_true room
  have joins (r : Round) (tag : r.tag = t) :
      Kept s { s with bal := { s.bal with rounds := s.bal.rounds ++ [r] } } :=
    (within_bal s _).kept (rounds := fun _ => roundsKept_append rfl places fun _ => by rwa [tag])
  unfold State.openRound
  dsimp only
  split
  · exact joins _ rfl
  · exact .ite (((joins _ (by rfl)).trans (kept_setMark _ _ _)).trans (kept_endDelay _ _))
      ((joins _ (by rfl)).trans (kept_setMark _ _ _))

theorem kept_takeBerthRequest (t : Sys2Proof.Tag) (r : BerthRequest) : Kept s (s.takeBerthRequest t r) := by
  unfold State.takeBerthRequest
  split
  · exact .refl s
  next known =>
    split
    · exact kept_setFlag s _
    next room =>
      simp only [Bool.or_eq_true, not_or, Bool.not_eq_true, Bool.not_eq_false', Option.isSome_eq_false_iff,
        Option.isNone_iff_eq_none] at known room
      exact kept_openRound s room.1 known.1.2 r true

/-! ### OCC's creations and holds -/

theorem insertKey_perm {α : Type} (key : α → Nat) {x : α} {l : List α} (fresh : ∀ y ∈ l, key y ≠ key x) :
    (insertKey key x l).Perm (x :: l) := by
  induction l with
  | nil => exact .refl _
  | cons y r ih =>
    have other : key x ≠ key y := (fresh y (List.mem_cons_self ..)).symm
    unfold insertKey
    rw [if_neg other]
    split
    · exact .refl _
    · exact ((ih fun z hz => fresh z (List.mem_cons_of_mem _ hz)).cons y).trans (.swap x y r)

theorem insertKey_sorted {α : Type} (key : α → Nat) {x : α} {l : List α} (fresh : ∀ y ∈ l, key y ≠ key x)
    (sorted : l.Pairwise fun a b => key a < key b) : (insertKey key x l).Pairwise fun a b => key a < key b := by
  induction l with
  | nil => exact List.pairwise_singleton _ _
  | cons y r ih =>
    obtain ⟨first, rest⟩ := List.pairwise_cons.mp sorted
    have other : key x ≠ key y := (fresh y (List.mem_cons_self ..)).symm
    have later := fun z hz => fresh z (List.mem_cons_of_mem y hz)
    unfold insertKey
    rw [if_neg other]
    split
    next before =>
      refine List.pairwise_cons.mpr ⟨fun z hz => ?_, sorted⟩
      rcases List.mem_cons.mp hz with rfl | hz
      · exact before
      · exact before.trans (first z hz)
    next behind =>
      refine List.pairwise_cons.mpr ⟨fun z hz => ?_, ih later rest⟩
      rcases List.mem_cons.mp ((insertKey_perm key later).subset hz) with rfl | hz
      · omega
      · exact first z hz

variable {s} in
/-- The record a creation makes takes a free number and free nights (R26). -/
theorem kept_createOcc {v : NewStay} {n : Nat} {t : State} (h : s.createOcc v = some (n, t)) : Kept s t := by
  unfold State.createOcc at h
  split at h
  · cases h
  · split at h
    · cases h
    next free =>
      split at h
      · cases h
      next found =>
        cases h
        obtain ⟨least, most, fresh, _⟩ := lowestFree_some found
        have nights := (berthFree_iff s v.berth v.arrival v.nights).mp (by simpa using free)
        have other : ∀ y ∈ s.occ.records, y.number ≠ (newRecord s n v).number := fun y hy same =>
          fresh (List.mem_map.mpr ⟨y, hy, same⟩)
        have perm := insertKey_perm Occupancy.number other
        refine ((within_occ s _).kept (occ := fun _ => ?_)).trans (kept_computeStanding _ n)
        rintro ⟨numbers, sizes, apart, closed, ids, range⟩
        refine ⟨insertKey_sorted _ other numbers, fun r hr => ?_, ?_, closed, ?_, fun r hr => ?_⟩
        · rcases List.mem_cons.mp (perm.subset hr) with rfl | hr
          · exact ⟨least, most, Nat.zero_le _, Nat.zero_le _⟩
          · exact sizes r hr
        · refine (perm.pairwise_iff fun {a b} clear same => ?_).mpr (List.pairwise_cons.mpr ⟨fun r hr same => ?_, apart⟩)
          · exact fun both => clear same.symm ⟨both.2, both.1⟩
          · exact fun both => nights r hr same.symm ⟨both.2, both.1⟩
        · exact (perm.flatMap_right _).nodup_iff.mpr (by simpa [newRecord] using ids)
        · rcases List.mem_cons.mp (perm.subset hr) with rfl | hr
          · intro x hx
            cases hx
          · exact range r hr

/-- The ids of a table of which one record has one hold more. -/
theorem holdIdsOf_append {n : Nat} {h : Hold} {l : List Occupancy}
    (numbers : l.Pairwise fun a b => a.number < b.number) :
    (holdIdsOf (modifyKey Occupancy.number n (fun r => { r with holds := r.holds ++ [h] }) l)).Subperm
      (h.id :: holdIdsOf l) := by
  induction l with
  | nil => exact List.nil_subperm
  | cons r l ih =>
    obtain ⟨first, rest⟩ := List.pairwise_cons.mp numbers
    simp only [modifyKey, List.map_cons, holdIdsOf, List.flatMap_cons] at ih ⊢
    split
    next same =>
      have others : (l.map fun x => if x.number = n then { x with holds := x.holds ++ [h] } else x) = l := by
        refine (List.map_congr_left fun x hx => if_neg ?_).trans (List.map_id l)
        have later := first x hx
        omega
      rw [others]
      simp only [List.map_append, List.map_cons, List.map_nil, List.append_assoc]
      exact List.perm_middle.subperm
    next =>
      refine ((List.subperm_append_left _).mpr (ih rest)).trans ?_
      exact List.perm_middle.subperm

/-- No two records of a sound table carry one number (R25). -/
theorem occ_unique {l : List Occupancy} (numbers : l.Pairwise fun a b => a.number < b.number) {x r : Occupancy}
    (hx : x ∈ l) (hr : r ∈ l) (same : x.number = r.number) : x = r := by
  induction l with
  | nil => cases hx
  | cons y l ih =>
    obtain ⟨first, rest⟩ := List.pairwise_cons.mp numbers
    rcases List.mem_cons.mp hx with ex | hx <;> rcases List.mem_cons.mp hr with er | hr
    · rw [ex, er]
    · have later := first r hr
      rw [← ex] at later
      omega
    · have later := first x hx
      rw [← er] at later
      omega
    · exact ih rest hx hr

/-- A hold of a free id joins a record with a place for it (R40). -/
theorem kept_placeHold {r : Occupancy} {id : Nat} (here : r ∈ s.occ.records) (room : r.holds.length < 4)
    (fresh : id ∉ s.holdIds) (range : 1 ≤ id ∧ id ≤ 255) (station pump ask amount : Nat) :
    Kept s (s.placeHold r.number id station pump ask amount) := by
  refine (within_placeHold s r.number id station pump ask amount).kept (occ := fun _ => ?_)
  rintro ⟨numbers, sizes, apart, closed, ids, ranges⟩
  refine ⟨List.pairwise_map.mpr (numbers.imp fun {a b} lt => ?_), fun r' hr' => ?_,
    List.pairwise_map.mpr (apart.imp fun {a b} clear => ?_), closed, ?_, fun r' hr' x hx => ?_⟩
  · dsimp only
    split <;> split <;> exact lt
  · obtain ⟨q, hq, rfl⟩ := List.mem_map.mp hr'
    obtain ⟨least, most, holds, receipts⟩ := sizes q hq
    dsimp only
    split
    next same =>
      obtain rfl := occ_unique numbers hq here same
      exact ⟨least, most, by simpa using room, receipts⟩
    next => exact ⟨least, most, holds, receipts⟩
  · dsimp only
    split <;> split <;> exact clear
  · obtain ⟨l, perm, sub⟩ := holdIdsOf_append (n := r.number) (l := s.occ.records) numbers
    exact perm.nodup_iff.mp (List.Nodup.sublist sub (List.nodup_cons.mpr ⟨fresh, ids⟩))
  · obtain ⟨q, hq, rfl⟩ := List.mem_map.mp hr'
    dsimp only at hx
    split at hx
    · rcases List.mem_append.mp hx with hx | hx
      · exact ranges q hq x hx
      · rw [List.mem_singleton] at hx
        subst hx
        exact range
    · exact ranges q hq x hx

end

end Sys2Proof.Machine
end

section
/-! PROOFS. What the operations behind the remaining commands keep of a sound state: OCC's records in answer to
frames (02), BAL's ends of rounds (01), the gate (06), the clock (07) and LIF's queues (08). -/

namespace Sys2Proof.Machine

set_option Elab.async false

section
variable (s : State)

/-! ### OCC's answers to frames -/

theorem kept_topUp (n amount : Nat) (r : Occupancy) : Kept s (s.topUp n amount r) := by
  have credited : Kept s ((s.modAccount n fun a => { a with
      balance := r.account.balance + amount }).computeStanding n) :=
    (kept_modAccount s n _).trans (kept_computeStanding _ n)
  exact .ite (credited.trans (kept_leaveBarred _ _)) credited

/-- A hold that may be placed has a place in its record and a free id (R40, R41). -/
theorem holdRefusal_none {r : Occupancy} {amount : Nat} (may : s.holdRefusal r amount = none) :
    r.holds.length < 4 ∧ s.nextHoldId.isSome = true := by
  unfold State.holdRefusal at may
  generalize (match r.credential with | some c => c.locked | none => false) = locked at may
  split_ifs at may with _ _ _ _ free
  obtain ⟨places, found⟩ := not_or.mp (mt Bool.or_eq_true_iff.mpr free)
  exact ⟨Nat.not_le.mp (mt decide_eq_true places), by simpa [Option.isSome_iff_ne_none] using found⟩

theorem kept_answerHold {r : Occupancy} (here : r ∈ s.occ.records) (station pump ask amount : Nat) :
    Kept s (s.answerHold r station pump ask amount) := by
  unfold State.answerHold
  split
  · exact kept_queueFrame s _
  · split
    · exact kept_queueFrame s _
    next may =>
      obtain ⟨places, found⟩ := holdRefusal_none s may
      obtain ⟨id, hid⟩ := Option.isSome_iff_exists.mp found
      obtain ⟨least, most, fresh⟩ := nextFreeIn_some (by decide) hid
      rw [hid]
      exact (kept_placeHold s here places fresh ⟨least, most⟩ _ _ _ _).trans (kept_queueFrame _ _)

theorem addReceipt_length (rc : Receipt) (l : List Receipt) : (addReceipt rc l).length ≤ 4 := by
  simp only [addReceipt, List.length_drop, Config.maxReceipts]
  omega

theorem kept_giveReceipt (n : Nat) (rc : Receipt) : Kept s (s.giveReceipt n rc) :=
  kept_modOcc s n fun _ => ⟨rfl, rfl, rfl, rfl, .refl _, fun _ => addReceipt_length rc _⟩

theorem kept_settleRecord (r : Occupancy) (station hold sale amount : Nat) :
    Kept s (s.settleRecord r station hold sale amount).1 := by
  unfold State.settleRecord
  split
  · exact (((kept_debit s _ _).trans (kept_dropHold _ _ _)).trans (kept_giveReceipt _ _ _)).trans
      (kept_testRemoval _ _)
  · have charged : Kept s (((s.debit r.number amount).modAccount r.number fun a =>
        { a with late := true }).setFlag .lateSettle) :=
      ((kept_debit s _ _).trans (kept_modAccount _ _ _)).trans (kept_setFlag _ _)
    exact (Kept.ite (.refl s) charged).trans (kept_giveReceipt _ _ _)

theorem kept_settleCase (occ station hold sale amount : Nat) :
    Kept s (s.settleCase occ station hold sale amount).1 := by
  unfold State.settleCase
  split
  · exact .refl s
  · split
    · exact .refl s
    · exact kept_settleRecord s _ _ _ _ _

theorem kept_receiptsOnJoin (n : Nat) : Kept s (s.receiptsOnJoin n) := by
  refine (within_receiptsOnJoin s n).kept (occ := fun _ => occKept_map (fun r => ?_) rfl rfl)
  refine ⟨rfl, rfl, rfl, rfl, ?_, fun h => (List.length_filter_le _ _).trans h⟩
  have same : (r.holds.map fun h => if h.station = n then { h with pump := none, ask := none } else h).map Hold.id =
      r.holds.map Hold.id := by
    rw [List.map_map]
    refine List.map_congr_left fun h _ => ?_
    simp only [Function.comp_apply]
    split <;> rfl
  rw [same]

theorem kept_meetRecord (n : Nat) : Kept s (s.meetRecord n) := by
  unfold State.meetRecord
  split
  · exact .refl s
  · refine .ite ?_ (kept_modOcc s n)
    have orphaned : Kept s (s.modOcc n fun r => { r with closureDue := some .orphan, holds := [] }) :=
      kept_modOcc s n fun _ => ⟨rfl, rfl, rfl, rfl, List.nil_sublist _, id⟩
    exact ((orphaned.trans (kept_setFlagIf _ _ _)).trans (kept_setFlag _ _)).trans (kept_testRemoval _ _)

theorem kept_meetRecords : Kept s s.meetRecords :=
  Kept.foldl _ (fun s n => (kept_meetRecord s n).trans (kept_lapseRecord _ n)) _ s

/-! ### BAL's ends of rounds -/

theorem kept_winRound (r : Round) : Kept s (s.winRound r) := by
  unfold State.winRound
  split
  · split
    · rename_i n u h
      exact (((kept_createOcc h).trans (kept_clearMark u _)).trans (kept_modRound _ _)).trans (kept_queueFrame _ _)
    · exact (kept_discardRound s _).trans (kept_setFlag _ _)
  · exact kept_discardRound s _

theorem kept_loseDouble (r : Round) : Kept s (s.loseDouble r) := by
  have removed : Kept s (match r.occupancy.bind s.occ? with
      | some o => if o.state == OccState.booked && o.origin = some r.tag then s.removeOcc o.number else s
      | none => s) := by
    split
    · exact .ite (kept_removeOcc s _) (.refl s)
    · exact .refl s
  exact (removed.trans (kept_setFlag _ _)).trans (kept_discardRound _ _)

theorem kept_assignRound (t : Sys2Proof.Tag) (k : BidKey) : Kept s (s.assignRound t k) := by
  unfold State.assignRound
  split
  · exact .refl s
  · split
    · split
      · exact .ite (kept_loseDouble s _) (.refl s)
      · exact .refl s
    · exact kept_hearKey s _ _

theorem kept_awaitHear (t : Sys2Proof.Tag) (a : AssignHeard) : Kept s (s.awaitHear t a) := kept_bal s

theorem kept_bidOutcome (r : Round) (sent : Bool) : Kept s (s.bidOutcome r sent) :=
  .ite (.refl s) (.ite (kept_modRound s _) ((kept_modRound s _).trans (kept_clearMark _ _)))

theorem kept_endWindow (r : Round) : Kept s (s.endWindow r) := .ite (kept_winRound s _) (kept_discardRound s _)

theorem kept_endAwait (o : Origination) : Kept s (s.endAwait o) := (kept_bal s).trans (kept_setFlag _ _)

theorem kept_roundsLineOff : Kept s s.roundsLineOff := by
  have cleared : Kept s { s with bal := { s.bal with
      rounds := [], berths := s.bal.berths.map fun b => { b with mark := none } } } :=
    kept_bal s (List.nil_sublist _)
  exact .ite (cleared.trans (kept_endAwait _ _)) cleared

theorem kept_roundsOnJoin (n : Nat) : Kept s (s.roundsOnJoin n) :=
  .foldl (fun s r => s.discardRound r) (fun s r => kept_discardRound s r) _ s

/-! ### The gate -/

theorem kept_arriveOnGrant (f : Found) : Kept s (s.arriveOnGrant f) := by
  unfold State.arriveOnGrant
  split
  · split
    · exact .ite (kept_toAlongside s _) (.refl s)
    · exact .refl s
  · exact .refl s

theorem kept_grantRead (c : Nat) (b : Bool) (f : Found) (p : Bool) : Kept s (s.grantRead c b f p) :=
  ((kept_arriveOnGrant s f).trans (within_releaseLatch _).kept).trans (within_decide _ _).kept

theorem kept_refuseRead (c : Nat) (b : Bool) (f : Option Found) (p : Bool) (g : GateCause) :
    Kept s (s.refuseRead c b f p g) := (within_refuseRead s c b f p g).kept

theorem kept_decideRead (c : Nat) (b : Bool) : Kept s (s.decideRead c b) := by
  unfold State.decideRead
  split
  · exact kept_refuseRead s _ _ _ _ _
  · split
    · exact kept_refuseRead s _ _ _ _ _
    · split
      · exact kept_grantRead s _ _ _ _
      · exact kept_refuseRead s _ _ _ _ _
      · exact (within_openEntry s _ _ _).kept

theorem kept_pinOutcome (f : Found) (b : Bool) : Kept s (s.pinOutcome f b) := by
  unfold State.pinOutcome
  split
  · exact .ite (within_modStaff s _ _).kept ((within_modStaff s _ _).kept.trans (kept_setFlagIf _ _ _))
  · exact .ite (kept_correctPin s _) (kept_wrongPin s _)

theorem kept_judgeEntry (e : PinEntry) : Kept s (s.judgeEntry e) := by
  have closed : Kept s s.closeEntry := (within_closeEntry s).kept
  unfold State.judgeEntry
  dsimp only
  split
  · exact closed.trans (kept_refuseRead _ _ _ _ _ _)
  · exact .ite ((closed.trans (kept_pinOutcome _ _ _)).trans (kept_grantRead _ _ _ _ _))
      ((closed.trans (kept_pinOutcome _ _ _)).trans (kept_refuseRead _ _ _ _ _ _))

theorem kept_takeRead (card : Nat) (suspect : Bool) : Kept s (s.takeRead card suspect) :=
  .ite (kept_setFlag s _) ((kept_setFlagIf s _ _).trans (kept_decideRead _ _ _))

theorem kept_takeKey (e : PinEntry) (code : Nat) : Kept s (s.takeKey e code) := by
  have edited (l : List Nat) : Kept s (s.editEntry e l) := (within_editEntry s e l).kept
  exact .ite (edited _) (.ite (edited _) (.ite (edited _) (kept_judgeEntry s _)))

theorem kept_capture (e : Edge) : Kept s (s.capture e) := (within_capture s e).kept

/-! ### The clock -/

/-- A change of SCH alone that leaves the milliseconds and the microseconds. -/
theorem kept_sch {c : Sch} (ms : c.ms = s.sch.ms := by rfl) (us : c.us = s.sch.us := by rfl) :
    Kept s { s with sch := c } :=
  (within_sch s c).kept (clock := fun _ => clockKept_of_reading ms us)

theorem kept_modEntry (n : Nat) (f : ScheduleEntry → ScheduleEntry) : Kept s (s.modEntry n f) := kept_sch s

theorem kept_fire (k : ScheduleKind) : Kept s (s.fire k) := kept_sch s

theorem kept_expire (n : Nat) : Kept s (s.expire n) := kept_sch s

theorem kept_takeFiring (k : ScheduleKind) : Kept s (s.takeFiring k) := by
  unfold State.takeFiring
  split
  · exact kept_sch s
  · exact .refl s

theorem kept_setDue (n d : Nat) : Kept s (s.setDue n d) :=
  .ite (kept_modEntry s _ _) ((kept_modEntry s _ _).trans (kept_setFlag _ _))

theorem kept_armEntry (e : ScheduleEntry) : Kept s (s.armEntry e) := by
  unfold State.armEntry
  refine .ite (.refl s) ?_
  exact .ite (.ite (kept_setDue s _ _)
      (.ite ((kept_fire s _).trans (kept_expire _ _)) ((kept_fire s _).trans (kept_setDue _ _ _))))
    (.ite (kept_setDue s _ _) (.ite ((kept_expire s _).trans (kept_setFlag _ _)) (kept_setDue s _ _)))

theorem kept_armAll : Kept s s.armAll := .foldl _ kept_armEntry _ s

theorem kept_passEntry (n : Nat) (e : ScheduleEntry) : Kept s (State.passEntry n s e) := by
  unfold State.passEntry
  split
  · exact .ite (.ite ((kept_fire s _).trans (kept_expire _ _)) ((kept_fire s _).trans (kept_setDue _ _ _)))
      (.refl s)
  · exact .refl s

/-- The clock takes milliseconds in range (R148, R149). -/
theorem kept_setClock (sec ms : Nat) (range : ms < 1000) : Kept s (s.setClock sec ms) := by
  have set_ : Kept s { s with sch := { s.sch with sec := sec, ms := ms, us := 0 } } :=
    (within_sch s _).kept (clock := fun _ _ => ⟨range, Nat.zero_lt_succ _⟩)
  have passed := set_.trans (.foldl _ (kept_passEntry · s.now.toMs) s.sch.places _)
  exact Kept.trans (.ite (.ite passed (passed.trans (kept_lapseDue _))) set_) (kept_setFlag _ _)

theorem kept_dueEntry (e : ScheduleEntry) (due : Nat) : Kept s (s.dueEntry e due) := by
  have fired := (kept_advanceToTime s ⟨due, 0⟩).trans (kept_fire _ e.kind)
  exact .ite (fired.trans (kept_expire _ _)) (fired.trans (kept_setDue _ _ _))

theorem kept_useTariff (n : Nat) : Kept s (s.useTariff n) := kept_sch s

/-! ### LIF's queues -/

/-- A change of LIF alone that leaves the transmit queue, its attempt and the station state, and in which no frame
joins the receive queue. -/
theorem kept_lif {l : Lif} (tx : l.tx = s.lif.tx := by rfl) (serial : l.serial = s.lif.serial := by rfl)
    (attempt : ∀ n, l.attempt = some n → s.lif.attempt = some n := by exact fun _ h => h)
    (state : l.state = s.lif.state := by rfl) (rx : l.rx.Sublist s.lif.rx := by exact List.Sublist.refl _) :
    Kept s { s with lif := l } := by
  refine (within_lif s l).kept (line := fun _ => ⟨state, rx.length_le, ?_⟩)
  rintro ⟨places, received, sorted, apart, below, attempted, off⟩
  unfold LineSound
  dsimp only
  rw [tx, serial, state]
  refine ⟨places, rx.length_le.trans received, sorted, apart, below, fun n hn => attempted n (attempt n hn),
    fun h => ?_⟩
  obtain ⟨empty, none_⟩ := off h
  exact ⟨empty, List.eq_nil_of_length_eq_zero (Nat.le_zero.mp (by simpa [none_] using rx.length_le))⟩

variable {s} in
theorem kept_takeRx {kind : Nat} {src : RxSource} {f : Frame} {n : Option Nat} {u : State}
    (h : s.takeRx kind src = some (f, n, u)) : Kept s u := by
  unfold State.takeRx at h
  split at h
  · split at h
    next rx =>
      split at h
      · cases h
        exact kept_lif s (rx := by rw [rx]; exact List.sublist_cons_self _ _)
      · cases h
    · cases h
  · split at h
    · cases h
      exact kept_lif s
    · cases h

theorem kept_giveReport (f : TxFrame) (b : Bool) : Kept s (s.giveReport f b) :=
  (within_giveReport s f b).kept (line := fun _ => lineKept_giveReport s f b)

theorem kept_loopBack (f : TxFrame) : Kept s (s.loopBack f) := .ite (kept_lif s) (.refl s)

/-- The frame of an attempt leaves the queue (R167). -/
theorem kept_sent (f : TxFrame) : Kept s (s.sent f) := by
  have left : LineSound s → LineSound { s with lif := { s.lif with
      tx := s.lif.tx.filter fun g => g.serial != f.serial
      attempt := none, failed := 0
      listenEnd := if f.frame.kind = 17 then some (s.elapsed + Config.listenUs) else s.lif.listenEnd } } := by
    rintro ⟨places, received, sorted, apart, below, _, off⟩
    exact ⟨(List.length_filter_le _ _).trans places, received, sorted.filter _, apart.filter _,
      fun g hg => below g (List.mem_of_mem_filter hg), (fun _ h => nomatch h),
      fun h => ⟨by simp [(off h).1], (off h).2⟩⟩
  refine (Kept.trans ?_ (kept_giveReport _ f true)).trans (kept_loopBack _ f)
  exact (within_lif s _).kept (line := fun _ => ⟨rfl, le_rfl, left⟩)

end

end Sys2Proof.Machine
end

section
/-! PROOFS. What every command keeps of a sound state. All but ten keep every table and leave the station state;
those ten (the starts, JOIN, the frames heard, the errors and timers that move the station state, the emergency
button and REQUEST BERTH) follow, part by part. -/

namespace Sys2Proof.Machine

set_option Elab.async false

/-- A command that keeps every table, LIF's queues included. -/
def Keeps (c : Instr) (s : State) : Prop := ∀ t, exec c s = .next t → Kept s t

theorem kept_pnp (s : State) (p : Pnp) : Kept s { s with pnp := p } := (onlyChanges_pnp s p).kept

namespace Keeps

variable {c : Instr} {s : State}

theorem of_runs {u : State} (runs : exec c s = .next u) (h : Kept s u) : Keeps c s := by
  intro t ht
  rw [runs] at ht
  cases ht
  exact h

/-- A command that can change no table is no danger to one. -/
theorem aside (c : Instr) (s : State) (lif : .lif ∉ mayChange c := by simp [mayChange])
    (occ : .occ ∉ mayChange c := by simp [mayChange]) (pwb : .pwb ∉ mayChange c := by simp [mayChange])
    (bal : .bal ∉ mayChange c := by simp [mayChange]) (fdc : .fdc ∉ mayChange c := by simp [mayChange])
    (sch : .sch ∉ mayChange c := by simp [mayChange]) : Keeps c s := by
  obtain ⟨u, runs, frame⟩ := everyCommandCompletesWithinItsParts c s
  exact of_runs runs (frame.kept (fun h => absurd h lif) (fun h => absurd h occ) (fun h => absurd h pwb)
    (fun h => absurd h bal) (fun h => absurd h fdc) (fun h => absurd h sch))

theorem request {code : Nat} {body : State → State × Reply} (runs : exec c s = .next (s.request code body))
    (h : ∀ u, Kept u (body u).1) : Keeps c s := by
  refine of_runs runs ?_
  unfold State.request
  exact .ite (kept_pnp s _) (.ite (kept_pnp s _) (.ite (kept_pnp s _)
    (((kept_pnp s _).trans (h _)).trans (kept_pnp _ _))))

theorem configure {ok clamped : Bool} {write : State → State}
    (runs : exec c s = .next (s.configure ok clamped write)) (h : ∀ u, Kept u (write u)) : Keeps c s := by
  refine request runs fun u => ?_
  split
  · exact .refl u
  · split
    · exact .refl u
    · exact h u

theorem occRequest {code n : Nat} {body : Occupancy → State → State × Reply}
    (runs : exec c s = .next (s.occRequest code n body)) (h : ∀ r u, Kept u (body r u).1) : Keeps c s := by
  refine request runs fun u => ?_
  split
  · exact .refl u
  · split
    · exact .refl u
    · exact h _ u

theorem pumpRequest {code n : Nat} {body : Pump → PumpConfig → State → State × Reply}
    (runs : exec c s = .next (s.pumpRequest code n body))
    (h : ∀ p k u, u.pump? n = some p → Kept u (body p k u).1) : Keeps c s := by
  refine request runs fun u => ?_
  split
  · exact .refl u
  · split
    · exact .refl u
    · exact h _ _ u ‹_›

theorem event {body : State → State} (runs : exec c s = .next (s.event body)) (h : ∀ u, Kept u (body u)) :
    Keeps c s := of_runs runs (.ite (h s) (.refl s))

theorem frame {kind : Nat} {src : RxSource} {body : Frame → Option Nat → State → State}
    (runs : exec c s = .next (s.frameEvent kind src body)) (h : ∀ f n u, Kept u (body f n u)) : Keeps c s := by
  refine event runs fun u => ?_
  split
  · exact (kept_takeRx ‹_›).trans (h _ _ _)
  · exact .refl u

theorem report {kind : Nat} {body : Report → State → State}
    (runs : exec c s = .next (s.reportEvent kind body)) (h : ∀ r u, Kept u (body r u)) : Keeps c s := by
  refine event runs fun u => ?_
  split
  · exact (kept_lif u).trans (h _ _)
  · exact .refl u

theorem notice {k : NoticeKind} {occ : Nat} {body : FinalMark → Nat → Occupancy → State → State}
    (runs : exec c s = .next (s.noticeEvent k occ body)) (h : ∀ m n r u, Kept u (body m n r u)) : Keeps c s := by
  refine event runs fun u => ?_
  split
  next x rest _ =>
    have dropped : Kept u { u with occ := { u.occ with notices := rest } } :=
      (within_occ u _).kept (occ := fun _ => .of_eq rfl rfl)
    refine .ite ?_ (.refl u)
    dsimp only
    split
    · split
      · exact dropped.trans (h _ _ _ _)
      · exact dropped
    · exact dropped
  · exact .refl u

theorem saleTimer {n : Nat} {st : SaleState} {body : State → State}
    (runs : exec c s = .next (s.saleTimer n st body))
    (h : ∀ u, (∀ x, u.sale? n = some x → x.state = st) → Kept u (body u)) : Keeps c s := by
  refine event runs fun u => ?_
  split
  next x hx =>
    split
    next t _ =>
      split
      next state =>
        refine (kept_advanceTo u t).trans (h _ fun y hy => ?_)
        have same : (u.advanceTo t).sale? n = u.sale? n := by
          simp only [State.sale?, pump?_congr (within_advanceTo u t).fdc]
        rw [same, hx] at hy
        cases hy
        exact state
      next => exact .refl u
    · exact .refl u
  · exact .refl u

theorem firing {k : ScheduleKind} {act : State → State} (runs : exec c s = .next (s.takeAndFire k act))
    (h : ∀ u, Kept u (act u)) : Keeps c s :=
  event runs fun u => (kept_takeFiring u k).trans (h _)

end Keeps

/-- The commands that move the station state, hear a frame, set the emergency mark or open a round of their own,
and the starts. -/
def movesATable : Instr → Bool
  | .join | .frameHeard _ | .txError | .listenEnd | .silenceWatchEnd | .emergencyPress | .emergencyRelease
  | .requestBerth _ | .restart _ | .powerUp _ _ _ => true
  | _ => false

section
variable (s : State)

/-! ### Berths and the contest (01) -/

theorem keeps_bidFrame (src : RxSource) : Keeps (.bidFrame src) s := by
  refine .frame rfl fun f note u => ?_
  split
  · exact .ite (kept_hearKey u _ _) (.refl u)
  · exact .refl u

theorem keeps_bidReport : Keeps .bidReport s := by
  refine .report rfl fun rep u => ?_
  split
  · exact kept_bidOutcome u _ _
  · exact .refl u

theorem keeps_berthRequestReport : Keeps .berthRequestReport s := by
  refine .report rfl fun rep u => ?_
  split
  · exact .ite (kept_bal u) (.refl u)
  · exact .refl u

theorem keeps_bidDelayEnd (t : Sys2Proof.Tag) : Keeps (.bidDelayEnd t) s := by
  refine .event rfl fun u => ?_
  split
  · split
    · exact (kept_advanceTo u _).trans (kept_endDelay _ _)
    · exact .refl u
  · exact .refl u

theorem keeps_windowEnd (t : Sys2Proof.Tag) : Keeps (.windowEnd t) s := by
  refine .event rfl fun u => ?_
  split
  · exact .ite (.refl u) ((kept_advanceTo u _).trans (kept_endWindow _ _))
  · exact .refl u

theorem keeps_watchEnd (t : Sys2Proof.Tag) : Keeps (.watchEnd t) s := by
  refine .event rfl fun u => ?_
  split
  · exact .ite ((kept_advanceTo u _).trans (kept_discardRound _ _)) (.refl u)
  · exact .refl u

theorem keeps_awaitDeadline : Keeps .awaitDeadline s := by
  refine .event rfl fun u => ?_
  split
  · split
    · exact (kept_advanceTo u _).trans (kept_endAwait _ _)
    · exact .refl u
  · exact .refl u

/-! ### Stays, accounts, credentials, holds (02) -/

theorem keeps_book (v : BookParams) : Keeps (.book v) s := by
  refine .request rfl fun u => ?_
  split_ifs
  · exact .refl u
  · exact .refl u
  · exact .refl u
  · split
    · exact .refl u
    · exact kept_createOcc ‹_›

theorem keeps_cancel (occ : Nat) : Keeps (.cancel occ) s := by
  refine .occRequest rfl fun r u => ?_
  split
  · exact kept_removeOcc u _
  · exact .refl u

theorem keeps_arrive (occ : Nat) : Keeps (.arrive occ) s := by
  refine .occRequest rfl fun r u => ?_
  split
  · exact kept_toAlongside u _
  · exact .refl u

theorem keeps_depart (occ : Nat) : Keeps (.depart occ) s := by
  refine .occRequest rfl fun r u => ?_
  split
  · exact kept_toDeparting u _
  · exact .refl u

theorem keeps_closureCollect : Keeps .closureCollect s := by
  refine .request rfl fun u => ?_
  split
  · exact .refl u
  next closed =>
    refine Kept.trans ?_ (kept_retryClosures _)
    refine (within_occ u _).kept (occ := fun _ => ?_)
    rintro ⟨numbers, sizes, nights, places, ids, range⟩
    rw [closed] at places
    exact ⟨numbers, sizes, nights, (Nat.le_succ _).trans places, ids, range⟩

theorem keeps_bindCard (occ card : Nat) : Keeps (.bindCard occ card) s := by
  refine .request rfl fun u => ?_
  split_ifs
  · exact .refl u
  · exact .refl u
  · exact .refl u
  · exact kept_bindCard u _ _

theorem keeps_setPin (occ : Nat) (pin : PinField) : Keeps (.setPin occ pin) s := by
  refine .occRequest rfl fun r u => ?_
  split
  · exact .refl u
  · split
    · exact .refl u
    · split
      · exact .refl u
      · exact kept_modCredential u _ _

theorem keeps_changePin (occ : Nat) (old new : PinField) : Keeps (.changePin occ old new) s := by
  refine .occRequest rfl fun r u => ?_
  split
  · exact .refl u
  · split
    · exact .refl u
    · split_ifs
      · exact .refl u
      · exact .refl u
      · exact kept_modCredential u _ _
      · exact kept_wrongPin u _

/-- CLEAR PIN and UNLOCK. -/
theorem keeps_credential {c : Instr} {code occ : Nat} {f : Credential → Credential}
    (runs : exec c s = .next (s.occRequest code occ fun r u =>
      if r.credential.isNone then (u, .refused .state) else (u.modCredential occ f, .done []))) : Keeps c s := by
  refine .occRequest runs fun r u => ?_
  split
  · exact .refl u
  · exact kept_modCredential u _ _

theorem keeps_topUp (occ amount : Nat) : Keeps (.topUp occ amount) s := by
  refine .occRequest rfl fun r u => ?_
  split
  · exact .refl u
  · exact kept_topUp u _ _ _

theorem keeps_setLimit (occ keep limit : Nat) (warn : Int) : Keeps (.setLimit occ keep limit warn) s := by
  refine .occRequest rfl fun r u => ?_
  dsimp only
  split
  · exact .refl u
  · exact (kept_modAccount u _ _).trans (kept_computeStanding _ _)

theorem keeps_bar (occ : Nat) : Keeps (.bar occ) s := by
  refine .occRequest rfl fun r u => ?_
  split
  · exact .refl u
  · exact kept_enterBarred u _

theorem keeps_unbar (occ : Nat) : Keeps (.unbar occ) s := by
  refine .occRequest rfl fun r u => ?_
  split_ifs
  · exact .refl u
  · exact .refl u
  · exact kept_leaveBarred u _

theorem keeps_holdAskFrame (src : RxSource) : Keeps (.holdAskFrame src) s := by
  refine .frame rfl fun f note u => ?_
  split
  · exact .ite (kept_answerHold u (List.mem_of_find?_eq_some ‹_›) _ _ _ _) (.refl u)
  · exact .refl u

theorem keeps_holdExpiry (occ hold : Nat) : Keeps (.holdExpiry occ hold) s := by
  refine .event rfl fun u => .ite (.refl u) ?_
  split
  · exact (kept_advanceToTime u _).trans (kept_lapseHold _ _ _)
  · exact .refl u

/-! ### The power budget and loans (03) -/

theorem keeps_loanAskFrame (src : RxSource) : Keeps (.loanAskFrame src) s := by
  refine .frame rfl fun f note u => ?_
  split
  · exact .refl u
  next offers =>
    simp only [Bool.or_eq_true, not_or, Bool.not_eq_true] at offers
    exact .ite (kept_makeOffer u _ _ _ offers.2) (.refl u)

theorem keeps_loanOfferFrame (src : RxSource) : Keeps (.loanOfferFrame src) s := by
  refine .frame rfl fun f note u => ?_
  dsimp only
  split
  · exact .ite (.ite (.refl u) (kept_pwb u)) (kept_declineOffers u _)
  · exact kept_declineOffers u _

theorem keeps_loanDeclineFrame (src : RxSource) : Keeps (.loanDeclineFrame src) s := by
  refine .frame rfl fun f note u => ?_
  split
  · exact kept_endPledge u _
  · exact .refl u

theorem keeps_loanRecallFrame (src : RxSource) : Keeps (.loanRecallFrame src) s := by
  refine .frame rfl fun f note u => ?_
  dsimp only
  split
  · exact kept_queueFrame u _
  · exact (((kept_dropLoans u _).trans (kept_shedIfShort _)).trans (kept_queueFrame _ _)).trans
      (kept_settleSince _ _)

theorem keeps_loanReturnFrame (src : RxSource) : Keeps (.loanReturnFrame src) s := by
  refine .frame rfl fun f note u => ?_
  split
  · exact .ite (.refl u) ((kept_dropLoans u _).trans (kept_settle _))
  · exact .refl u

theorem keeps_loanAskReport : Keeps .loanAskReport s := by
  refine .report rfl fun rep u => ?_
  split
  · exact .ite (.ite (kept_pwb u) (kept_askFailed u _)) (.refl u)
  · exact .refl u

theorem keeps_loanOfferReport : Keeps .loanOfferReport s := by
  refine .report rfl fun rep u => .ite (.refl u) ?_
  split
  · exact kept_endPledge u _
  · exact .refl u

theorem keeps_pledgeDeadline (partner : Nat) : Keeps (.pledgeDeadline partner) s := by
  refine .event rfl fun u => ?_
  split
  · split
    · exact (kept_advanceTo u _).trans (kept_endPledge _ _)
    · exact .refl u
  · exact .refl u

theorem keeps_recallDeadline (partner : Nat) : Keeps (.recallDeadline partner) s := by
  refine .event rfl fun u => ?_
  split
  · exact ((((kept_advanceTo u _).trans (kept_dropLoans _ _)).trans (kept_queueFrame _ _)).trans
      (kept_setFlag _ _)).trans (kept_settle _)
  · exact .refl u

theorem keeps_collectionClose : Keeps .collectionClose s := by
  refine .event rfl fun u => ?_
  split
  · split
    · exact (kept_advanceTo u _).trans (kept_closeCollection _ _)
    · exact .refl u
  · exact .refl u

/-! ### Service points (04) -/

theorem keeps_profileSet (occ g1 g2 g3 : Nat) : Keeps (.profileSet occ g1 g2 g3) s := by
  refine .occRequest rfl fun r u => ?_
  split
  · dsimp only
    split
    · exact .refl u
    · split
      · exact .refl u
      · exact kept_setProfile u _ _ _ _
  · exact .refl u

theorem keeps_outletReset (point : Nat) : Keeps (.outletReset point) s := by
  refine .request rfl fun u => ?_
  split
  · exact .refl u
  · split
    · exact .refl u
    · split
      · exact kept_resetOutlet u _
      · exact .refl u

theorem keeps_pollCycleStart : Keeps .pollCycleStart s :=
  .event rfl fun u => .ite (.refl u) ((kept_advanceTo u _).trans (kept_startCycle _))

theorem keeps_postReport (r : PostReport) : Keeps (.postReport r) s := by
  refine .event rfl fun u => ?_
  split
  · exact .ite ((kept_takeReport u _ _).trans (kept_nextPoll _)) (.refl u)
  · exact .refl u

theorem keeps_pollTimeout : Keeps .pollTimeout s := by
  refine .event rfl fun u => ?_
  split
  · exact ((kept_advanceTo u _).trans (.ite (.refl _) (kept_badPoll _ _))).trans (kept_nextPoll _)
  · exact .refl u

theorem keeps_faultGraceEnd (post : Nat) : Keeps (.faultGraceEnd post) s := by
  refine .event rfl fun u => ?_
  split
  · split
    · exact (kept_advanceTo u _).trans (kept_postFails _ _)
    · exact .refl u
  · exact .refl u

/-! ### The fuel dock (05) -/

theorem keeps_pumpAuthorise (pump preset payment card : Nat) : Keeps (.pumpAuthorise pump preset payment card) s := by
  refine .request rfl fun u => ?_
  split
  · split
    · exact .refl u
    · split
      · exact .refl u
      · split
        · exact .refl u
        · exact kept_authorise u ‹_› ‹_› _ _
  · exact .refl u

theorem keeps_pumpSuspend (pump : Nat) : Keeps (.pumpSuspend pump) s := by
  refine .pumpRequest rfl fun p k u here => ?_
  split
  next x hx =>
    split
    next delivering =>
      refine kept_shutSale u pump fun e q y hq hy sound he => ?_
      obtain rfl : p = q := Option.some.inj (here.symm.trans hq)
      have calm := sound.calm hx (by simp [delivering]) (by simp [delivering])
      simp [calm] at he
    next => exact .refl u
  · exact .refl u

theorem keeps_pumpResume (pump : Nat) : Keeps (.pumpResume pump) s := by
  refine .pumpRequest rfl fun p k u here => ?_
  split
  next x hx =>
    split
    next may =>
      refine kept_deliver u pump (fun _ => rfl) fun q y hq hy => ?_
      obtain rfl : p = q := Option.some.inj (here.symm.trans hq)
      obtain rfl : x = y := Option.some.inj (hx.symm.trans hy)
      have suspended : x.state = .suspended := by
        simp only [Bool.and_eq_true, decide_eq_true_eq] at may
        exact may.1
      simp [suspended]
    next => exact .refl u
  · exact .refl u

theorem keeps_pumpStop (pump : Nat) : Keeps (.pumpStop pump) s := by
  refine .pumpRequest rfl fun p k u here => ?_
  split
  · split
    · exact kept_endUnused u _ _ _
    · exact kept_endUnused u _ _ _
    · exact kept_toFinishing u _
    · exact kept_toFinishing u _
    · exact .refl u
    · exact .refl u
  · exact .refl u

theorem keeps_journalCollect : Keeps .journalCollect s := by
  refine .request rfl fun u => ?_
  split
  · exact .refl u
  · exact kept_eraseRecord u _

theorem keeps_pumpPulse (pump : Nat) : Keeps (.pumpPulse pump) s := by
  refine .event rfl fun u => ?_
  split
  · exact kept_pulse u _ _
  · exact .refl u

theorem keeps_nozzleLift (pump : Nat) : Keeps (.nozzleLift pump) s := by
  refine .event rfl fun u => ?_
  split
  next p hp =>
    exact (kept_capture u _).trans (kept_lift _ _ _ ((pump?_congr (within_capture u _).fdc pump).trans hp))
  · exact .refl u

theorem keeps_nozzleHang (pump : Nat) : Keeps (.nozzleHang pump) s := by
  refine .event rfl fun u => ?_
  split
  · exact (kept_capture u _).trans (kept_hang _ _ _)
  · exact .refl u

theorem keeps_holdAskReport : Keeps .holdAskReport s := by
  refine .report rfl fun rep u => ?_
  split
  · exact .ite (kept_modPump_aside u _) (kept_askUnanswered u _)
  · exact .refl u

theorem keeps_holdAskWaitEnd (pump : Nat) : Keeps (.holdAskWaitEnd pump) s := by
  refine .event rfl fun u => ?_
  split
  · exact (kept_advanceTo u _).trans (kept_askUnanswered _ _)
  · exact .refl u

theorem keeps_holdAnswerFrame (src : RxSource) : Keeps (.holdAnswerFrame src) s := by
  refine .frame rfl fun f note u => .ite (.refl u) (.ite (kept_takeAnswer u _ _ _ _ _) (.ite ?_ (.refl u)))
  split
  · exact kept_takeAnswer u _ _ _ _ _
  · exact .refl u

theorem keeps_settleReport : Keeps .settleReport s := by
  refine .report rfl fun rep u => ?_
  split
  · exact .ite (kept_modSale u _) (kept_settleUnanswered u _)
  · exact .refl u

theorem keeps_settleWaitEnd (pump : Nat) : Keeps (.settleWaitEnd pump) s := by
  refine .event rfl fun u => ?_
  split
  · exact (kept_advanceTo u _).trans (kept_settleUnanswered _ _)
  · exact .refl u

theorem keeps_settleAnswerFrame (src : RxSource) : Keeps (.settleAnswerFrame src) s := by
  refine .frame rfl fun f note u => ?_
  split
  · exact kept_settleAnswered u _ _
  · exact .refl u

/-! ### The gate (06) and the clock (07) -/

theorem keeps_key (code : Nat) : Keeps (.key code) s := by
  refine .event rfl fun u => ?_
  split
  · exact .ite (.refl u) (kept_takeKey u _ _)
  · exact .refl u

theorem keeps_pinEntryTimeout : Keeps .pinEntryTimeout s := by
  refine .event rfl fun u => ?_
  split
  · exact ((kept_advanceTo u _).trans (within_closeEntry _).kept).trans (kept_refuseRead _ _ _ _ _ _)
  · exact .refl u

theorem keeps_releaseEnd : Keeps .releaseEnd s := by
  refine .event rfl fun u => ?_
  split
  · exact (kept_advanceTo u _).trans (within_gtc _ _).kept
  · exact .refl u

theorem keeps_doorOpenEdge : Keeps .doorOpenEdge s := by
  refine .event rfl fun u => ?_
  have forced (v : State) : Kept v (if v.openDoor.gtc.release.isSome then v.openDoor
      else (v.openDoor.setFlag .gateForced).alarm .gateForced 0 v.openDoor.sch.sec) :=
    .ite (within_openDoor v).kept (((within_openDoor v).kept.trans (kept_setFlag _ _)).trans (kept_alarm _ _ _ _))
  exact (kept_capture u _).trans (.ite (.refl _) (forced _))

theorem keeps_heldLimitEnd : Keeps .heldLimitEnd s := by
  refine .event rfl fun u => ?_
  split
  · exact .ite ((((kept_advanceTo u _).trans (within_gtc _ _).kept).trans (kept_setFlag _ _)).trans
      (kept_alarm _ _ _ _)) (.refl u)
  · exact .refl u

theorem keeps_setClock (sec ms : Nat) : Keeps (.setClock sec ms) s := by
  refine .request rfl fun u => ?_
  split
  · exact .refl u
  · exact kept_setClock u _ _ (by omega)

theorem keeps_tariffSelect (set : Nat) : Keeps (.tariffSelect set) s := by
  refine .request rfl fun u => ?_
  split
  · exact kept_useTariff u _
  · exact .refl u

theorem keeps_timeFrame (src : RxSource) : Keeps (.timeFrame src) s := by
  refine .frame rfl fun f note u => ?_
  split
  next taken =>
    simp only [Bool.and_eq_true, decide_eq_true_eq] at taken
    exact kept_setClock u _ _ (by omega)
  next => exact .refl u

theorem keeps_scheduleDue (place : Nat) : Keeps (.scheduleDue place) s := by
  refine .event rfl fun u => ?_
  split
  · split
    · exact kept_dueEntry u _ _
    · exact .refl u
  · exact .refl u

theorem keeps_clockWrap : Keeps .clockWrap s :=
  .of_runs rfl ((within_wrapClock s).kept (clock := fun _ => clockKept_advance s _))

/-! ### The pier line (08) -/

theorem keeps_txAttemptStart : Keeps .txAttemptStart s := by
  refine .event rfl fun u => ?_
  split
  next attempt head =>
    refine .ite ?_ (.refl u)
    have tried : LineSound u → LineSound { u with lif := { u.lif with attempt := some _ } } :=
      fun ⟨places, received, sorted, apart, below, _, off⟩ => ⟨places, received, sorted, apart, below,
        fun n hn => ⟨_, by rw [head]; exact List.mem_cons_self .., Option.some.inj hn⟩, off⟩
    exact (within_lif u _).kept (line := fun _ => ⟨rfl, le_rfl, tried⟩)
  · exact .refl u

theorem keeps_txSent : Keeps .txSent s := by
  refine .event rfl fun u => ?_
  split
  · exact kept_sent u _
  · exact .refl u

theorem keeps_txContentionLost : Keeps .txContentionLost s :=
  .event rfl fun u => kept_lif u (attempt := nofun)

theorem keeps_lineActivity : Keeps .lineActivity s := .event rfl fun u => .ite (kept_lif u) (.refl u)

theorem keeps_joinFrame (src : RxSource) : Keeps (.joinFrame src) s :=
  .frame rfl fun _ _ u => .ite (.refl u)
    (((kept_loansOnJoin u _).trans (kept_roundsOnJoin _ _)).trans (kept_receiptsOnJoin _ _))

/-! ### Configuration (10) -/

theorem keeps_configurePump (v : PumpSection) : Keeps (.configurePump v) s := by
  refine .configure rfl fun u => .ite (kept_modPump_aside u _) ?_
  exact (within_fdc u _).kept (fuel := fun _ => .of_journal ⟨rfl, rfl⟩ rfl (.refl _))

end

/-- The case split over the commands. -/
theorem keeps (c : Instr) (s : State) (still : movesATable c = false) : Keeps c s := by
  cases c with
  | join | frameHeard | txError | listenEnd | silenceWatchEnd | emergencyPress | emergencyRelease
  | requestBerth | restart | powerUp => cases still
  | selectAssert | requestDiscarded | null | malformedRequest | configureStation | configurePoint
  | configureTariff | configureGate | configureStaff | powerFail | readStation | flagsRead | flagsClear
  | flagsSetup | readRound | readBerth | readOccupancy | closureRead | readLoans | readPoint | profileCheck
  | readPump | journalRead | gateOpen | gateMode | readCapture | readerFrameTimeout | exitButtonPress
  | doorShutEdge => exact .aside _ s
  | configureBerth v => exact .configure rfl fun u => kept_bal u
  | configurePump v => exact keeps_configurePump s v
  | configureSchedule v => exact .configure rfl fun u => kept_sch u
  | setClock sec ms => exact keeps_setClock s sec ms
  | tariffSelect set => exact keeps_tariffSelect s set
  | book v => exact keeps_book s v
  | cancel occ => exact keeps_cancel s occ
  | arrive occ => exact keeps_arrive s occ
  | depart occ => exact keeps_depart s occ
  | closureCollect => exact keeps_closureCollect s
  | bindCard occ card => exact keeps_bindCard s occ card
  | setPin occ pin => exact keeps_setPin s occ pin
  | changePin occ old new => exact keeps_changePin s occ old new
  | clearPin occ => exact keeps_credential s rfl
  | unlock occ => exact keeps_credential s rfl
  | topUp occ amount => exact keeps_topUp s occ amount
  | setLimit occ keep limit warn => exact keeps_setLimit s occ keep limit warn
  | bar occ => exact keeps_bar s occ
  | unbar occ => exact keeps_unbar s occ
  | profileSet occ g1 g2 g3 => exact keeps_profileSet s occ g1 g2 g3
  | outletReset point => exact keeps_outletReset s point
  | pumpAuthorise pump preset payment card => exact keeps_pumpAuthorise s pump preset payment card
  | pumpSuspend pump => exact keeps_pumpSuspend s pump
  | pumpResume pump => exact keeps_pumpResume s pump
  | pumpStop pump => exact keeps_pumpStop s pump
  | journalCollect => exact keeps_journalCollect s
  | txAttemptStart => exact keeps_txAttemptStart s
  | txSent => exact keeps_txSent s
  | txContentionLost => exact keeps_txContentionLost s
  | lineActivity => exact keeps_lineActivity s
  | berthRequestFrame src => exact .frame rfl fun _ _ u => kept_takeBerthRequest u _ _
  | bidFrame src => exact keeps_bidFrame s src
  | assignFrame src => exact .frame rfl fun _ _ u => (kept_assignRound u _ _).trans (kept_awaitHear _ _ _)
  | loanAskFrame src => exact keeps_loanAskFrame s src
  | loanOfferFrame src => exact keeps_loanOfferFrame s src
  | loanTakeFrame src => exact .frame rfl fun _ _ u => kept_takeLoan u _ _ _
  | loanDeclineFrame src => exact keeps_loanDeclineFrame s src
  | loanVoidFrame src =>
    exact .frame rfl fun _ _ u => .ite
      (((kept_dropLoans u _).trans (kept_ceilingFell _)).trans (kept_setFlag _ _)) (.refl u)
  | loanRecallFrame src => exact keeps_loanRecallFrame s src
  | loanReturnFrame src => exact keeps_loanReturnFrame s src
  | holdAskFrame src => exact keeps_holdAskFrame s src
  | holdAnswerFrame src => exact keeps_holdAnswerFrame s src
  | settleFrame src => exact .frame rfl fun _ _ u => (kept_settleCase u _ _ _ _ _).trans (kept_queueFrame _ _)
  | settleAnswerFrame src => exact keeps_settleAnswerFrame s src
  | cardBindFrame src =>
    exact .frame rfl fun _ _ u => .ite (.refl u) (.ite (kept_setFlag u _) (kept_bindCard u _ _))
  | joinFrame src => exact keeps_joinFrame s src
  | timeFrame src => exact keeps_timeFrame s src
  | bidReport => exact keeps_bidReport s
  | berthRequestReport => exact keeps_berthRequestReport s
  | assignReport => exact .report rfl fun _ u => .refl u
  | loanAskReport => exact keeps_loanAskReport s
  | loanOfferReport => exact keeps_loanOfferReport s
  | loanTakeReport => exact .report rfl fun _ u => .ite (.refl u) (kept_undoTake u _ _ _)
  | holdAskReport => exact keeps_holdAskReport s
  | settleReport => exact keeps_settleReport s
  | bidDelayEnd tag => exact keeps_bidDelayEnd s tag
  | windowEnd tag => exact keeps_windowEnd s tag
  | watchEnd tag => exact keeps_watchEnd s tag
  | awaitDeadline => exact keeps_awaitDeadline s
  | holdExpiry occ hold => exact keeps_holdExpiry s occ hold
  | pledgeDeadline partner => exact keeps_pledgeDeadline s partner
  | recallDeadline partner => exact keeps_recallDeadline s partner
  | collectionClose => exact keeps_collectionClose s
  | pollCycleStart => exact keeps_pollCycleStart s
  | postReport r => exact keeps_postReport s r
  | pollTimeout => exact keeps_pollTimeout s
  | faultGraceEnd post => exact keeps_faultGraceEnd s post
  | alongsideNotice occ => exact .notice rfl fun _ n r u => kept_spcArrive u n r
  | departingNotice occ => exact .notice rfl fun m n _ u => kept_spcDepart u n occ m
  | barredNotice occ => exact .notice rfl fun _ n r u => kept_spcBar u n r
  | unbarredNotice occ => exact .notice rfl fun _ n r u => kept_spcUnbar u n r
  | pumpPulse pump => exact keeps_pumpPulse s pump
  | nozzleLift pump => exact keeps_nozzleLift s pump
  | nozzleHang pump => exact keeps_nozzleHang s pump
  | authorisationTimeout pump => exact .saleTimer rfl fun u _ => kept_endUnused u _ _ _
  | suspendLimitEnd pump =>
    exact .saleTimer rfl fun u _ => (kept_flagRecord u _ _).trans (kept_toFinishing _ _)
  | runOnEnd pump => exact .saleTimer rfl fun u finishing => kept_finishSale u _ finishing
  | holdAskWaitEnd pump => exact keeps_holdAskWaitEnd s pump
  | settleWaitEnd pump => exact keeps_settleWaitEnd s pump
  | cardRead card check => exact .event rfl fun u => .ite (.refl u) (kept_takeRead u _ _)
  | key code => exact keeps_key s code
  | pinEntryTimeout => exact keeps_pinEntryTimeout s
  | releaseEnd => exact keeps_releaseEnd s
  | doorOpenEdge => exact keeps_doorOpenEdge s
  | heldLimitEnd => exact keeps_heldLimitEnd s
  | scheduleDue place => exact keeps_scheduleDue s place
  | nightOn => exact .firing rfl fun u => (within_setNight u _).kept
  | nightOff => exact .firing rfl fun u => (within_setNight u _).kept
  | lockdownOn => exact .firing rfl fun u => (within_setLockdown u _).kept
  | lockdownOff => exact .firing rfl fun u => (within_setLockdown u _).kept
  | tariff1 => exact .firing rfl fun u => kept_useTariff u _
  | tariff2 => exact .firing rfl fun u => kept_useTariff u _
  | dayRoll => exact .firing rfl fun u => .ite (.refl u) (kept_dayRoll u)
  | clockWrap => exact keeps_clockWrap s

end Sys2Proof.Machine
end

section
/-! PROOFS. The ten commands that move a table: JOIN, the frames heard, the errors and timers that move the
station state (08), the emergency button (05), REQUEST BERTH (01) and the starts (10); and with them the
invariants of section "Sound states". -/

namespace Sys2Proof.Machine

set_option Elab.async false

/-! ### The station state moves -/

/-- While the station is off the line its queues are empty and nothing is in transmission. -/
theorem LineSound.offLine {s : State} (sound : LineSound s)
    (off : s.lif.state = .unconfigured ∨ s.lif.state = .lineOff) :
    s.lif.tx = [] ∧ s.lif.rx = [] ∧ s.lif.attempt = none := by
  obtain ⟨_, _, _, _, _, attempted, empty⟩ := sound
  obtain ⟨tx, rx⟩ := empty off
  refine ⟨tx, rx, ?_⟩
  cases attempt : s.lif.attempt with
  | none => rfl
  | some n =>
    obtain ⟨f, hf, _⟩ := attempted n attempt
    rw [tx] at hf
    cases hf

/-- Empty queues are sound. -/
theorem lineSound_of_empty {s : State} (tx : s.lif.tx = []) (rx : s.lif.rx = []) (attempt : s.lif.attempt = none) :
    LineSound s := by
  unfold LineSound
  rw [tx, rx, attempt]
  exact ⟨by simp, by simp, .nil, .nil, by simp, by simp, fun _ => ⟨rfl, rfl⟩⟩

section
variable (s : State)

/-- Entry to JOINING from off the line queues the JOIN alone (R170). -/
theorem enterJoining_line (k : JoinKind) (off : s.lif.state = .unconfigured ∨ s.lif.state = .lineOff) :
    (s.enterJoining k).lif.state = .joining ∧ (LineSound s → LineSound (s.enterJoining k)) := by
  have queued := lineKept_queueFrame { s with lif := { s.lif with
    state := .joining, failed := 0, listenEnd := none, silenceEnd := none } } (joinFrame s.me s.settings.baseShare k)
  refine ⟨queued.state, fun sound => queued.sound ?_⟩
  obtain ⟨tx, rx, attempt⟩ := sound.offLine off
  exact lineSound_of_empty tx rx attempt

theorem tablesKept_lif (l : Lif) : TablesKept s { s with lif := l } := (within_lif s l).tablesKept

theorem tablesKept_enterJoining (k : JoinKind) : TablesKept s (s.enterJoining k) := (within_enterJoining s k).tablesKept

theorem kept_retainLink (n : Nat) : Kept s (s.retainLink n) := (within_retainLink s n).kept

/-- What follows the entry to JOINING at an accepted JOIN (R200). -/
theorem kept_afterJoining : Kept s ((keysOf Occupancy.number s.armAll.meetRecords.occ.records).foldl State.retainLink
    s.armAll.meetRecords).beginPolling :=
  (((kept_armAll s).trans (kept_meetRecords _)).trans (.foldl _ kept_retainLink _ _)).trans
    (within_beginPolling _).kept

theorem acceptJoin_eq : s.acceptJoin =
    ((keysOf Occupancy.number (s.enterJoining s.startKind.joinKind).armAll.meetRecords.occ.records).foldl
      State.retainLink (s.enterJoining s.startKind.joinKind).armAll.meetRecords).beginPolling := rfl

/-- The five steps of entry to LINE OFF leave the queues empty (R175). -/
theorem enterLineOff_line : s.enterLineOff.lif.state = .lineOff ∧ LineSound s.enterLineOff := by
  let u : State := ({ s with lif := { s.lif with
    state := .lineOff, attempt := none, listenEnd := none, rx := [], loop := [] } } : State).setFlag .lineLost
  have noticed : Kept u u.noticeLineOff :=
    (((kept_roundsLineOff u).trans (kept_loansLineOff _)).trans (kept_pumpLineOff _ 1)).trans (kept_pumpLineOff _ 2)
  have state : u.noticeLineOff.lif.state = .lineOff := noticed.line.state
  have rx : u.noticeLineOff.lif.rx = [] := List.eq_nil_of_length_eq_zero (Nat.le_zero.mp noticed.line.rx)
  let v : State := { u.noticeLineOff with lif := { u.noticeLineOff.lif with tx := [], attempt := none } }
  have failed : Kept v u.noticeLineOff.failQueued :=
    .foldl (fun s f => s.giveReport f false) (fun s f => kept_giveReport s f false) _ v
  have empty : LineSound v := lineSound_of_empty rfl rx rfl
  exact ⟨failed.line.state.trans state, (kept_lif u.noticeLineOff.failQueued).line.sound (failed.line.sound empty)⟩

theorem tablesKept_enterLineOff : TablesKept s s.enterLineOff := by
  have noticed (l : Lif) : TablesKept s (({ s with lif := l } : State).setFlag .lineLost).noticeLineOff :=
    (tablesKept_lif s l).trans ((((kept_setFlag _ _).trans (kept_roundsLineOff _)).trans
      (kept_loansLineOff _)).trans ((kept_pumpLineOff _ 1).trans (kept_pumpLineOff _ 2))).toTablesKept
  exact ((noticed _).trans (within_failQueued _).tablesKept).trans (tablesKept_lif _ _)

theorem tablesKept_enterOnLine : TablesKept s s.enterOnLine :=
  (tablesKept_lif s _).trans ((kept_setFlag _ .lineUp).trans (kept_firstOnLine _)).toTablesKept

/-- Entry to ON LINE from JOINING keeps the queues as they are (R170). -/
theorem enterOnLine_line : s.enterOnLine.lif.state = .onLine ∧ (LineSound s → LineSound s.enterOnLine) := by
  have after := ((kept_setFlag { s with lif := { s.lif with state := .onLine, listenEnd := none } } .lineUp).trans
    (kept_firstOnLine _)).line
  refine ⟨after.state, fun ⟨places, received, sorted, apart, below, attempted, _⟩ => after.sound ?_⟩
  exact ⟨places, received, sorted, apart, below, attempted, by rintro (off | off) <;> cases off⟩

theorem within_capture_line (e : Edge) : (s.capture e).lif = s.lif := (within_capture s e).lif

end

/-! ### Each of the ten -/

/-- What a command keeps of LIF: its queues sound, and its station state but for the moves given. -/
def MovesLine (c : Instr) (moves : State → State → Prop) : Prop :=
  ∀ s t, LineSound s → exec c s = .next t → LineSound t ∧ (t.lif.state = s.lif.state ∨ moves s t)

/-- A request changes PNP alone, or else leaves the rest to its body. -/
theorem request_of_runs {s t : State} {code : Nat} {body : State → State × Reply}
    (runs : (.next (s.request code body) : Outcome) = .next t) :
    (∃ p, t = { s with pnp := p }) ∨ ∃ p q, t = { (body { s with pnp := p }).1 with pnp := q } := by
  cases runs
  unfold State.request
  split_ifs
  · exact .inl ⟨_, rfl⟩
  · exact .inl ⟨_, rfl⟩
  · exact .inl ⟨_, rfl⟩
  · exact .inr ⟨_, _, rfl⟩

/-- An event happens with power alone. -/
theorem event_of_runs {s t : State} {body : State → State} (runs : (.next (s.event body) : Outcome) = .next t) :
    t = s ∨ t = body s := by
  cases runs
  unfold State.event
  split
  · exact .inr rfl
  · exact .inl rfl

/-- An accepted JOIN enters JOINING (R200). -/
theorem acceptJoin_line (s : State) (off : s.lif.state = .unconfigured) :
    s.acceptJoin.lif.state = .joining ∧ (LineSound s → LineSound s.acceptJoin) := by
  obtain ⟨joining, queued⟩ := enterJoining_line s s.startKind.joinKind (.inl off)
  have after := (kept_afterJoining (s.enterJoining s.startKind.joinKind)).line
  rw [← acceptJoin_eq] at after
  exact ⟨after.state.trans joining, after.sound ∘ queued⟩

theorem movesLine_join : MovesLine .join fun s t => s.lif.state = .unconfigured ∧ t.lif.state = .joining := by
  intro s t sound runs
  rcases request_of_runs runs with ⟨p, rfl⟩ | ⟨p, q, rfl⟩
  · exact ⟨sound, .inl rfl⟩
  · dsimp only
    split
    · exact ⟨sound, .inl rfl⟩
    next off =>
      split
      · exact ⟨sound, .inl rfl⟩
      next =>
        have off : s.lif.state = .unconfigured := by simpa [State.unconfigured] using off
        obtain ⟨joining, line⟩ := acceptJoin_line { s with pnp := p } off
        generalize State.acceptJoin { s with pnp := p } = u at joining line
        exact ⟨line sound, .inr ⟨off, joining⟩⟩

theorem movesLine_listenEnd : MovesLine .listenEnd fun s t =>
    s.lif.state = .joining ∧ t.lif.state = .onLine := by
  intro s t sound runs
  rcases event_of_runs runs with rfl | rfl
  · exact ⟨sound, .inl rfl⟩
  split
  next joining _ =>
    obtain ⟨onLine, line⟩ := enterOnLine_line (s.advanceTo _)
    exact ⟨line ((kept_advanceTo s _).line.sound sound), .inr ⟨joining, onLine⟩⟩
  · exact ⟨sound, .inl rfl⟩

theorem movesLine_silenceWatchEnd : MovesLine .silenceWatchEnd fun s t =>
    s.lif.state = .lineOff ∧ t.lif.state = .joining := by
  intro s t sound runs
  rcases event_of_runs runs with rfl | rfl
  · exact ⟨sound, .inl rfl⟩
  split
  next d lineOff _ =>
    have still : (s.advanceTo d).lif.state = .lineOff := (kept_advanceTo s d).line.state.trans lineOff
    obtain ⟨joining, line⟩ := enterJoining_line (s.advanceTo d) .line (.inr still)
    exact ⟨line ((kept_advanceTo s d).line.sound sound), .inr ⟨lineOff, joining⟩⟩
  · exact ⟨sound, .inl rfl⟩

theorem movesLine_txError : MovesLine .txError fun s t =>
    (s.lif.state = .joining ∨ s.lif.state = .onLine) ∧ t.lif.state = .lineOff ∧ 127 ≤ s.lif.failed := by
  intro s t sound runs
  rcases event_of_runs runs with rfl | rfl
  · exact ⟨sound, .inl rfl⟩
  split
  next attempted =>
    have onSegment : s.lif.state = .joining ∨ s.lif.state = .onLine := by
      cases state : s.lif.state with
      | joining => exact .inl rfl
      | onLine => exact .inr rfl
      | unconfigured => simp [(sound.offLine (.inl state)).2.2, state] at attempted
      | lineOff => simp [(sound.offLine (.inr state)).2.2, state] at attempted
    have counted := (kept_lif s (l := { s.lif with attempt := none, failed := s.lif.failed + 1 }) (attempt := nofun)).line
    unfold State.countError
    dsimp only
    split
    next limit =>
      obtain ⟨lineOff, line⟩ := enterLineOff_line
        { s with lif := { s.lif with attempt := none, failed := s.lif.failed + 1 } }
      exact ⟨line, .inr ⟨onSegment, lineOff, Nat.le_of_succ_le_succ limit⟩⟩
    next => exact ⟨counted.sound sound, .inl rfl⟩
  next => exact ⟨sound, .inl rfl⟩

theorem movesLine_frameHeard (f : CanFrame) : MovesLine (.frameHeard f) fun _ _ => False := by
  intro s t sound runs
  rcases event_of_runs runs with rfl | rfl
  · exact ⟨sound, .inl rfl⟩
  split
  next =>
    unfold State.hear
    split
    · exact ⟨sound, .inl rfl⟩
    · split
      next passes =>
        unfold State.receive
        split
        next room =>
          obtain ⟨places, received, sorted, apart, below, attempted, off⟩ := sound
          have onLine : ¬ (s.lif.state = .unconfigured ∨ s.lif.state = .lineOff) := by
            rintro (off | off) <;> simp [State.passes, off, takenIn] at passes
          refine ⟨⟨places, ?_, sorted, apart, below, attempted, fun off => absurd off onLine⟩, .inl rfl⟩
          rw [List.length_append]
          exact room
        next => exact ⟨(kept_lif s).line.sound sound, .inl rfl⟩
      next => exact ⟨sound, .inl rfl⟩
  next => exact ⟨sound, .inl rfl⟩

/-- A round of a new tag joins the table, at its end (R10, R11). -/
theorem openRound_rounds (s : State) (t : Sys2Proof.Tag) (q : BerthRequest) (b : Bool) :
    (s.openRound t q b).bal.rounds.map Round.tag = s.bal.rounds.map Round.tag ++ [t] := by
  have modified (u : State) (t : Sys2Proof.Tag) {f : Round → Round} (h : ∀ r, (f r).tag = r.tag) :
      (u.modRound t f).bal.rounds.map Round.tag = u.bal.rounds.map Round.tag := by
    simp only [State.modRound, List.map_map]
    refine List.map_congr_left fun r _ => ?_
    simp only [Function.comp_apply]
    split
    · exact h r
    · rfl
  have ended (u : State) (r : Round) :
      (u.endDelay r).bal.rounds.map Round.tag = u.bal.rounds.map Round.tag := by
    unfold State.endDelay
    split
    · rfl
    · rw [show ∀ v : State, ∀ f, (v.queueFrame f).bal = v.bal from fun v f => (within_queueFrame v f).frame .bal (by decide)]
      exact modified u _ fun _ => rfl
  unfold State.openRound
  dsimp only
  split
  · simp
  · split
    · rw [ended]
      simp [State.setMark]
    · simp [State.setMark]

theorem lineKept_openRound (s : State) (t : Sys2Proof.Tag) (q : BerthRequest) (b : Bool) :
    LineKept s (s.openRound t q b) := by
  unfold State.openRound
  dsimp only
  split
  · exact .of_eq rfl
  · split
    · refine LineKept.trans ?_ (kept_endDelay _ _).line
      exact .of_eq rfl
    · exact .of_eq rfl

theorem originate_line (s : State) (t : Sys2Proof.Tag) (r : BerthRequest) : LineKept s (s.originate t r) := by
  refine LineKept.trans ?_ (lineKept_openRound _ t r _)
  refine LineKept.trans ?_ (lineKept_queueFrame _ _)
  exact .of_eq rfl

theorem originate_rounds (s : State) (t : Sys2Proof.Tag) (r : BerthRequest) :
    (s.originate t r).bal.rounds.map Round.tag = s.bal.rounds.map Round.tag ++ [t] := by
  refine (openRound_rounds _ t r _).trans ?_
  rw [(within_queueFrame _ _).frame .bal (by decide)]

/-- REQUEST BERTH opens one round of its own tag at a free place, or none (R19). -/
theorem requestBerth_cases {r : BerthRequest} {s t : State} (runs : exec (.requestBerth r) s = .next t) :
    LineKept s t ∧ (t.bal.rounds.map Round.tag = s.bal.rounds.map Round.tag ∨
      (s.bal.rounds.length < 4 ∧
        t.bal.rounds.map Round.tag = s.bal.rounds.map Round.tag ++ [⟨s.me, (s.bal.seq + 1) % 256⟩])) := by
  rcases request_of_runs runs with ⟨p, rfl⟩ | ⟨p, q, rfl⟩
  · exact ⟨.of_eq rfl, .inl rfl⟩
  · dsimp only
    split
    · exact ⟨.of_eq rfl, .inl rfl⟩
    · split
      · exact ⟨.of_eq rfl, .inl rfl⟩
      · split
        · exact ⟨.of_eq rfl, .inl rfl⟩
        · split
          · exact ⟨.of_eq rfl, .inl rfl⟩
          next room =>
            have free : State.roundRoom { s with pnp := p } = true := by simpa using room
            have places : s.bal.rounds.length < 4 := of_decide_eq_true free
            let tag : Sys2Proof.Tag := ⟨State.me { s with pnp := p }, (s.bal.seq + 1) % 256⟩
            have line := originate_line { s with pnp := p } tag r
            have rounds := originate_rounds { s with pnp := p } tag r
            generalize State.originate tag r { s with pnp := p } = u at line rounds
            exact ⟨⟨line.state, line.rx, line.sound⟩, .inr ⟨places, rounds⟩⟩

/-! ### The emergency button -/

/-- The sale of a pump, where there is one, draws nothing (R116). -/
def Stopped (n : Nat) (s : State) : Prop :=
  ∀ x, s.sale? n = some x → x.state = .finishing ∨ x.state = .settling

namespace Stopped

variable {n m : Nat} {s t : State}

theorem of_pump? (h : t.pump? n = s.pump? n) (stopped : Stopped n s) : Stopped n t := by
  intro x hx
  exact stopped x (by rwa [State.sale?, h] at hx)

theorem of_idle (h : s.sale? n = none) : Stopped n s := fun _ hx => nomatch h.symm.trans hx

/-- Either the pump is idle or its sale stays in a state in which no demand of it is told. -/
theorem cases (stopped : Stopped n s) : (s.pump? n).bind Pump.sale = none ∨
    ∃ p x, x.state ≠ .authorising ∧ (x.state = .finishing ∨ x.state = .settling) ∧ SaleStays n p x s := by
  cases hs : s.sale? n with
  | none => exact .inl hs
  | some x =>
    obtain ⟨p, hp, hx⟩ := sale?_some hs
    have state := stopped x hs
    refine .inr ⟨p, x, by rcases state with h | h <;> simp [h], state, x.load, ?_⟩
    rw [hp, ← hx]

theorem of_stays {p : Pump} {x : Sale} (state : x.state = .finishing ∨ x.state = .settling)
    (stays : SaleStays n p x s) : Stopped n s := fun z hz => by rwa [stays.state hz]

theorem serveHead (d : Demand) (stopped : Stopped n s) : Stopped n (s.serveHead d) := by
  rcases stopped.cases with idle | ⟨p, x, waits, state, stays⟩
  · exact stopped.of_pump? (serveHead_pump? s (.inl idle))
  · exact .of_stays state (serveHead_stays d waits stays)

theorem failHead (d : Demand) (c : FailCause) (b : Bool) (stopped : Stopped n s) :
    Stopped n (s.failHead d c b) := by
  rcases stopped.cases with idle | ⟨p, x, waits, state, stays⟩
  · exact stopped.of_pump? (failHead_pump? s c b (.inl idle))
  · exact .of_stays state (failHead_stays d c b waits stays)

theorem of_fdc (h : t.fdc = s.fdc) (stopped : Stopped n s) : Stopped n t := stopped.of_pump? (pump?_congr h n)

/-- PWB going on moves no sale that draws nothing. -/
theorem settles (before : State) (stopped : Stopped n s) : Stopped n s.settle ∧ Stopped n (s.settleSince before) :=
  settle_keeps (P := Stopped n) (fun _ d _ _ h => h.serveHead d) (fun _ d _ c b _ h => h.failHead d c b)
    (fun u l h => h.of_fdc (within_recallFor u l).fdc) (fun u d a h => h.of_fdc (within_askFor u d a).fdc)
    (fun _ _ _ _ h => h.of_fdc ((within_energise _ _ _).fdc.trans rfl)) s before stopped

/-- What follows the end of a sale (R110). -/
theorem endUnused (c : AuthCause) (r : LapseReason) (h : Stopped n (s.endUnusedCore m c r)) {x : Sale}
    (sale : s.sale? m = some x) : Stopped n (s.endUnused m c r) := by
  unfold State.endUnused
  rw [sale]
  dsimp only
  split
  · refine (Stopped.settles _ ?_).2
    exact h.of_fdc rfl
  · exact (h.settles s).1

theorem modPump_ne (other : n ≠ m) (f : Pump → Pump) (h : Stopped n s) : Stopped n (s.modPump m f) :=
  h.of_pump? (modPump_pump?_ne s other f)

theorem toFinishing (h : n ≠ m → Stopped n s) : Stopped n (s.toFinishing m) := by
  unfold State.toFinishing State.shutValves State.modSale
  rw [modPump_modPump]
  by_cases same : n = m
  · subst same
    intro x hx
    obtain ⟨p, hp, sale⟩ := sale?_some hx
    rw [modPump_pump?, if_pos rfl] at hp
    obtain ⟨q, _, rfl⟩ := Option.map_eq_some_iff.mp hp
    obtain ⟨y, _, rfl⟩ := Option.map_eq_some_iff.mp sale
    exact .inl rfl
  · exact (h same).modPump_ne same _

theorem flagRecord (f : SaleFlags → SaleFlags) (h : Stopped n s) : Stopped n (s.flagRecord m f) := by
  unfold State.flagRecord
  split
  · exact h.of_pump? rfl
  · exact h

/-- An emergency press stops the sale of its pump, and starts none of the other (R116). -/
theorem pumpEmergency (h : n ≠ m → Stopped n s) : Stopped n (s.pumpEmergency m) := by
  unfold State.pumpEmergency
  split
  next none_ =>
    by_cases same : n = m
    · exact of_idle (same ▸ none_)
    · exact h same
  next x sale =>
    have ended : Stopped n (s.endUnusedCore m .stopped .emergency) := by
      by_cases same : n = m
      · subst same
        obtain ⟨p, hp, hx⟩ := sale?_some sale
        obtain ⟨z, _, _, e⟩ := endUnusedCore_eq hp hx .stopped .emergency
        refine of_idle ?_
        rw [e]
        show (State.pump? (State.modPump n _ s) n).bind Pump.sale = none
        rw [modPump_pump?, if_pos rfl, hp]
        rfl
      · exact (h same).of_pump? (endUnusedCore_pump?_ne s same _ _)
    have finished (f : SaleFlags → SaleFlags) : Stopped n ((s.flagRecord m f).toFinishing m) :=
      .toFinishing fun other => (h other).flagRecord f
    split
    · exact ended.endUnused _ _ sale
    · exact ended.endUnused _ _ sale
    · exact finished _
    · exact finished _
    next finishing =>
      by_cases same : n = m
      · subst same
        intro y hy
        obtain rfl := Option.some.inj (sale.symm.trans hy)
        exact .inl finishing
      · exact h same
    next settling =>
      by_cases same : n = m
      · subst same
        intro y hy
        obtain rfl := Option.some.inj (sale.symm.trans hy)
        exact .inr settling
      · exact h same

end Stopped

theorem Pump.sound.atRest {e : Bool} {p : Pump} (sound : p.sound e) : p.sound false := by
  obtain ⟨both, delivering, _⟩ := sound
  exact ⟨both, delivering, by simp⟩

theorem FuelSound.atRest {s : State} (sound : FuelSound s) : PumpsSound false s :=
  ⟨sound.1.atRest, sound.2.atRest⟩

/-- Pumps sound at the level before a press are sound at it once both sales are stopped. -/
theorem fuelSound_of_stopped {s : State} (sound : PumpsSound false s) (one : Stopped 1 s) (two : Stopped 2 s) :
    FuelSound s := by
  obtain ⟨⟨both₁, delivering₁, _⟩, ⟨both₂, delivering₂, _⟩⟩ := sound
  exact ⟨⟨both₁, delivering₁, fun _ => one⟩, ⟨both₂, delivering₂, fun _ => two⟩⟩

/-- The state at an emergency press before the pumps act: the edge stored, the mark set, the stop flagged and
alarmed (R116, R158). -/
def State.pressed (s : State) : State :=
  let s := s.capture .press
  let s : State := { s with fdc := { s.fdc with emergency := true } }
  (s.setFlag .emergencyStop).alarm .emergencyStop 0 s.sch.sec

theorem within_pressed (s : State) : Within [.cap, .fdc, .lif] s s.pressed :=
  (((within_capture s _).andThen (within_fdc _ _) : Within [.cap, .fdc, .lif] s _).andThen (within_setFlag _ _) :
    Within [.cap, .fdc, .lif] s _).andThen (within_alarm _ _ _ _)

theorem pressed_fdc (s : State) : s.pressed.fdc = { s.fdc with emergency := true } := by
  have alarmed (u : State) (k : AlarmKind) (n v : Nat) : (u.alarm k n v).fdc = u.fdc := (within_alarm u k n v).fdc
  have stored : (s.capture .press).fdc = s.fdc := (within_capture s .press).fdc
  unfold State.pressed
  rw [alarmed]
  show { (s.capture .press).fdc with emergency := true } = _
  rw [stored]

theorem lineKept_pressed (s : State) : LineKept s s.pressed := by
  refine LineKept.trans ?_ (lineKept_alarm _ _ _ _)
  exact .of_eq (within_capture s .press).lif

theorem emergencyPress_eq (s : State) : exec .emergencyPress s =
    .next (s.event fun s => (s.pressed.pumpEmergency 1).pumpEmergency 2) := rfl

theorem kept_press (s : State) : Kept s.pressed ((s.pressed.pumpEmergency 1).pumpEmergency 2) :=
  (kept_pumpEmergency _ 1).trans (kept_pumpEmergency _ 2)

/-- An emergency press leaves both pumps sound with the mark set (R116). -/
theorem fuelSound_press {s : State} (sound : FuelSound s) :
    FuelSound ((s.pressed.pumpEmergency 1).pumpEmergency 2) := by
  have first : PumpsSound false s.pressed := by
    unfold PumpsSound
    rw [pressed_fdc]
    exact sound.atRest
  refine fuelSound_of_stopped ((kept_press s).fuel.pumps false nofun first)
    (.pumpEmergency fun _ => .pumpEmergency fun other => absurd rfl other)
    (.pumpEmergency fun other => absurd rfl other)

/-! ### The starts -/

/-- What a start leaves sound whatever stood before: the queues, the rounds, PWB's lists and the pumps. -/
structure Started (t : State) : Prop where
  state   : t.lif.state = .unconfigured
  line    : LineSound t
  rounds  : t.bal.rounds = []
  pwb     : t.pwb.loans = [] ∧ t.pwb.demands = []
  fuel    : FuelSound t

theorem started_started (k : StartKind) (inp : StartInputs) (c : Sch) (s : State) : Started (s.started k inp c) where
  state := rfl
  line := lineSound_of_empty rfl rfl rfl
  rounds := rfl
  pwb := ⟨rfl, rfl⟩
  fuel := ⟨Pump.sound_idle rfl rfl rfl, Pump.sound_idle rfl rfl rfl⟩

theorem started_coldStart (inp : StartInputs) (s : State) : Started (s.coldStart inp) := started_started _ _ _ s

theorem started_warmStart (inp : StartInputs) (s : State) : Started (s.warmStart inp) := by
  have began := started_started .warm inp (Sch.start s.sch.sec s.sch.ms s.sch.us) s
  unfold State.warmStart
  exact ⟨by simpa using began.state, (kept_setFlagIf _ _ _).line.sound
    ((kept_setFlagIf _ _ _).line.sound (lineSound_of_empty rfl rfl rfl)), by simpa using began.rounds,
    by simpa using began.pwb, by simpa [FuelSound] using began.fuel⟩

theorem interrupt_number (r : JournalRecord) (now : Time) : (r.interrupt now).number = r.number := by
  unfold JournalRecord.interrupt
  split_ifs <;> rfl

theorem warmStart_journal (inp : StartInputs) (s : State) : JournalSound s → JournalSound (s.warmStart inp) := by
  have numbers : (s.fdc.journal.map fun r => r.interrupt s.now).map JournalRecord.number =
      s.fdc.journal.map JournalRecord.number := by
    rw [List.map_map]
    exact List.map_congr_left fun r _ => interrupt_number r _
  rintro ⟨places, apart⟩
  unfold JournalSound State.warmStart
  simp only [setFlagIf_fdc]
  exact ⟨by simpa using places, by rwa [numbers]⟩

theorem warmStart_occ (inp : StartInputs) (s : State) : OccKept s (s.warmStart inp) :=
  .of_eq (by simp [State.warmStart]) (by simp [State.warmStart])

theorem warmStart_clock (inp : StartInputs) (s : State) : ClockKept s (s.warmStart inp) :=
  clockKept_of_reading (by simp [State.warmStart, State.started, Sch.start])
    (by simp [State.warmStart, State.started, Sch.start])

/-- Settles O60: a start leaves every list empty, both pumps idle and the clock at 0. -/
theorem resetIsSound : Obligations.ResetIsSound := by
  have attention : AttentionSound State.reset := by
    unfold AttentionSound
    decide
  have occ : OccupancySound State.reset := by
    have cold : State.reset.occ = Occ.cold := rfl
    simp [OccupancySound, cold, Occ.cold]
  have tables : TablesSound State.reset := ⟨by decide, by decide, by decide, by decide, .nil⟩
  have clock : ClockSound State.reset := ⟨by decide, by decide⟩
  exact ⟨attention, lineSound_of_empty rfl rfl rfl, occ, tables,
    ⟨Pump.sound_idle rfl rfl rfl, Pump.sound_idle rfl rfl rfl⟩, clock, .nil⟩

end Sys2Proof.Machine
end

section
/-! PROOFS. The invariants of section "Sound states": every step keeps the line queues (08), the occupancy table
(02), the tables of BAL, PWB and FDC, the pumps and the clock (01, 03, 05, 07). -/

namespace Sys2Proof.Machine

set_option Elab.async false

/-! ### The line -/

/-- The moves of the station state (R170, R175, R176, R203). -/
def LineMoves (c : Instr) (s t : State) : Prop :=
  (c = .join ∧ s.lif.state = .unconfigured ∧ t.lif.state = .joining) ∨
  (c = .listenEnd ∧ s.lif.state = .joining ∧ t.lif.state = .onLine) ∨
  (c = .txError ∧ (s.lif.state = .joining ∨ s.lif.state = .onLine) ∧ t.lif.state = .lineOff ∧
    127 ≤ s.lif.failed) ∨
  (c = .silenceWatchEnd ∧ s.lif.state = .lineOff ∧ t.lif.state = .joining) ∨
  (isStart c = true ∧ t.lif.state = .unconfigured)

theorem MovesLine.of_kept {c : Instr} {moves : State → State → Prop}
    (h : ∀ s t, exec c s = .next t → LineKept s t) : MovesLine c moves :=
  fun s t sound runs => ⟨(h s t runs).sound sound, .inl (h s t runs).state⟩

theorem MovesLine.mono {c : Instr} {moves wider : State → State → Prop} (h : MovesLine c moves)
    (sub : ∀ s t, moves s t → wider s t) : MovesLine c wider := fun s t sound runs =>
  (h s t sound runs).imp_right (Or.imp_right (sub s t))

theorem lineKept_emergencyPress {s t : State} (runs : exec .emergencyPress s = .next t) : LineKept s t := by
  rcases event_of_runs runs with rfl | rfl
  · exact .refl t
  · exact (lineKept_pressed s).trans (kept_press s).line

/-- A command that cannot reach LIF leaves it. -/
theorem lineKept_of_frame {c : Instr} (outside : .lif ∉ mayChange c) {s t : State} (runs : exec c s = .next t) :
    LineKept s t := by
  obtain ⟨u, runs', frame⟩ := everyCommandCompletesWithinItsParts c s
  obtain rfl : u = t := Host.Outcome.next.inj (runs'.symm.trans runs)
  exact .of_eq (frame .lif outside)

theorem movesLine_restart (inp : StartInputs) :
    MovesLine (.restart inp) fun _ t => t.lif.state = .unconfigured := by
  intro s t sound runs
  cases runs
  split
  · exact ⟨sound, .inl rfl⟩
  · exact ⟨(started_warmStart inp s).line, .inr (started_warmStart inp s).state⟩

theorem movesLine_powerUp (inp : StartInputs) (held agrees : Bool) :
    MovesLine (.powerUp inp held agrees) fun _ t => t.lif.state = .unconfigured := by
  intro s t sound runs
  cases runs
  split
  · exact ⟨(started_warmStart inp s).line, .inr (started_warmStart inp s).state⟩
  · exact ⟨(started_coldStart inp s).line, .inr (started_coldStart inp s).state⟩

theorem movesLine (c : Instr) : MovesLine c (LineMoves c) := by
  cases still : movesATable c with
  | false => exact .of_kept fun s t runs => (keeps c s still t runs).line
  | true =>
    cases c with
    | join => exact movesLine_join.mono fun _ _ h => .inl ⟨rfl, h⟩
    | listenEnd => exact movesLine_listenEnd.mono fun _ _ h => .inr (.inl ⟨rfl, h⟩)
    | txError => exact movesLine_txError.mono fun _ _ h => .inr (.inr (.inl ⟨rfl, h⟩))
    | silenceWatchEnd => exact movesLine_silenceWatchEnd.mono fun _ _ h => .inr (.inr (.inr (.inl ⟨rfl, h⟩)))
    | frameHeard f => exact (movesLine_frameHeard f).mono fun _ _ h => h.elim
    | emergencyPress => exact .of_kept fun _ _ => lineKept_emergencyPress
    | emergencyRelease => exact .of_kept fun _ _ => lineKept_of_frame (by simp [mayChange])
    | requestBerth r => exact .of_kept fun _ _ runs => (requestBerth_cases runs).1
    | restart inp => exact (movesLine_restart inp).mono fun _ _ h => .inr (.inr (.inr (.inr ⟨rfl, h⟩)))
    | powerUp inp held agrees =>
      exact (movesLine_powerUp inp held agrees).mono fun _ _ h => .inr (.inr (.inr (.inr ⟨rfl, h⟩)))
    | _ => cases still

/-- A step takes the command at the front, or lets time run on. -/
theorem step_cases {s t : State} (runs : step s = .next t) :
    (∃ c rest, s.pending = c :: rest ∧ exec c { s with pending := rest } = .next t) ∨ t = s.advance 1 := by
  unfold step at runs
  split at runs
  next c rest front => exact .inl ⟨c, rest, front, runs⟩
  · cases runs
    exact .inr rfl

/-- Settles O57: all but ten commands leave the station state and the queues sound (`keeps`), and of those ten
only the five moves named change the station state. -/
theorem lineStaysSoundAndMovesByItsEvents : Obligations.LineStaysSoundAndMovesByItsEvents := by
  refine ⟨fun s t sound runs => ?_, fun c s t sound runs moved => ?_⟩
  · rcases step_cases runs with ⟨c, rest, _, runs⟩ | rfl
    · exact (movesLine c { s with pending := rest } t sound runs).1
    · exact lineSound_congr ((within_advance s 1).frame .lif (by decide)) sound
  · exact (movesLine c s t sound runs).2.resolve_left moved

/-! ### The tables -/

/-- What a command keeps of the tables, whatever it does to the line; the tags of the rounds stay apart unless
REQUEST BERTH takes one still in the table. -/
structure SoundAfter (c : Instr) (s t : State) : Prop where
  occ    : OccKept s t
  tables : TablesSound s → TablesSound t
  fuel   : FuelSound s → FuelSound t
  clock  : ClockKept s t
  apart  : (∀ q, c = .requestBerth q → s.round? ⟨s.me, (s.bal.seq + 1) % 256⟩ = none) →
    RoundsApart s → RoundsApart t

section
variable {c : Instr} {s t : State}

theorem FuelKept.sound (h : FuelKept s t) (sound : FuelSound s) : FuelSound t := by
  have pumps := h.pumps s.fdc.emergency id sound
  rwa [← h.emergency] at pumps

theorem tablesSound_of (rounds : s.bal.rounds.length ≤ 4 → t.bal.rounds.length ≤ 4) (pwb : PwbKept s t)
    (journal : JournalSound s → JournalSound t) (sound : TablesSound s) : TablesSound t := by
  obtain ⟨places, loans, demands, sold⟩ := sound
  exact ⟨rounds places, pwb.loans loans, pwb.demands demands, journal sold⟩

theorem TablesKept.soundAfter (h : TablesKept s t) : SoundAfter c s t :=
  ⟨h.occ, tablesSound_of h.rounds.places h.pwb h.fuel.journal, h.fuel.sound, h.clock, fun _ => h.rounds.apart⟩

theorem frame_of_runs (runs : exec c s = .next t) : OnlyChanges (mayChange c) s t := by
  obtain ⟨u, runs', frame⟩ := everyCommandCompletesWithinItsParts c s
  obtain rfl : u = t := Host.Outcome.next.inj (runs'.symm.trans runs)
  exact frame

theorem soundAfter_join (runs : exec .join s = .next t) : SoundAfter .join s t := by
  rcases request_of_runs runs with ⟨p, rfl⟩ | ⟨p, q, rfl⟩
  · exact (kept_pnp s p).toTablesKept.soundAfter
  · have before := (kept_pnp s p).toTablesKept
    have after (u : State) := (kept_pnp u q).toTablesKept
    dsimp only
    split
    · exact (before.trans (after _)).soundAfter
    · split
      · exact (before.trans (after _)).soundAfter
      · have joined : TablesKept { s with pnp := p } (State.acceptJoin { s with pnp := p }) := by
          rw [acceptJoin_eq]
          exact (tablesKept_enterJoining _ _).trans (kept_afterJoining _).toTablesKept
        exact ((before.trans joined).trans (after _)).soundAfter

theorem soundAfter_listenEnd (runs : exec .listenEnd s = .next t) : SoundAfter .listenEnd s t := by
  rcases event_of_runs runs with rfl | rfl
  · exact (Kept.refl t).toTablesKept.soundAfter
  · split
    · exact ((kept_advanceTo s _).toTablesKept.trans (tablesKept_enterOnLine _)).soundAfter
    · exact (Kept.refl s).toTablesKept.soundAfter

theorem soundAfter_silenceWatchEnd (runs : exec .silenceWatchEnd s = .next t) : SoundAfter .silenceWatchEnd s t := by
  rcases event_of_runs runs with rfl | rfl
  · exact (Kept.refl t).toTablesKept.soundAfter
  · split
    · exact ((kept_advanceTo s _).toTablesKept.trans (tablesKept_enterJoining _ _)).soundAfter
    · exact (Kept.refl s).toTablesKept.soundAfter

theorem soundAfter_txError (runs : exec .txError s = .next t) : SoundAfter .txError s t := by
  rcases event_of_runs runs with rfl | rfl
  · exact (Kept.refl t).toTablesKept.soundAfter
  · split
    · unfold State.countError
      dsimp only
      split
      · exact ((tablesKept_lif s _).trans (tablesKept_enterLineOff _)).soundAfter
      · exact (tablesKept_lif s _).soundAfter
    · exact (Kept.refl s).toTablesKept.soundAfter

theorem soundAfter_emergencyPress (runs : exec .emergencyPress s = .next t) : SoundAfter .emergencyPress s t := by
  rcases event_of_runs runs with rfl | rfl
  · exact (Kept.refl t).toTablesKept.soundAfter
  · have after := kept_press s
    have frame := within_pressed s
    have rounds : RoundsKept s s.pressed := .of_eq (frame.frame .bal (by decide))
    have clock : s.pressed.sch = s.sch := frame.frame .sch (by decide)
    have journal : JournalSound s → JournalSound s.pressed := by
      unfold JournalSound
      rw [pressed_fdc]
      exact id
    exact ⟨(OccKept.of_eq (by rw [frame.occ]) (by rw [frame.occ])).trans after.occ,
      tablesSound_of (rounds.trans after.rounds).places ((PwbKept.of_eq frame.pwb).trans after.pwb)
        (after.fuel.journal ∘ journal),
      fuelSound_press, fun sound => after.clock (clockKept_of_reading (by rw [clock]) (by rw [clock]) sound),
      fun _ => (rounds.trans after.rounds).apart⟩

theorem soundAfter_emergencyRelease (runs : exec .emergencyRelease s = .next t) :
    SoundAfter .emergencyRelease s t := by
  rcases event_of_runs runs with rfl | rfl
  · exact (Kept.refl t).toTablesKept.soundAfter
  · have fdc : (s.capture .released).fdc = s.fdc := (within_capture s .released).fdc
    have rounds : RoundsKept s (s.capture .released) := .of_eq ((within_capture s .released).frame .bal (by decide))
    have stored := (kept_capture s .released)
    refine ⟨stored.occ, tablesSound_of rounds.places ⟨stored.pwb.loans, stored.pwb.demands⟩ stored.fuel.journal,
      fun sound => ?_, stored.clock, fun _ => rounds.apart⟩
    have rest : PumpsSound false (s.capture .released) := by
      unfold PumpsSound
      rw [fdc]
      exact FuelSound.atRest sound
    exact rest

theorem soundAfter_requestBerth {r : BerthRequest} (runs : exec (.requestBerth r) s = .next t) :
    SoundAfter (.requestBerth r) s t := by
  have frame := frame_of_runs runs
  have occ : t.occ = s.occ := frame .occ (by simp [mayChange])
  have pwb : t.pwb = s.pwb := frame .pwb (by simp [mayChange])
  have fdc : t.fdc = s.fdc := frame .fdc (by simp [mayChange])
  have sch : t.sch = s.sch := frame .sch (by simp [mayChange])
  have fuel : FuelKept s t := .of_eq fdc
  have rounds := (requestBerth_cases runs).2
  refine ⟨.of_eq (by rw [occ]) (by rw [occ]), tablesSound_of (fun places => ?_) (.of_eq pwb) fuel.journal,
    fuel.sound, clockKept_of_reading (by rw [sch]) (by rw [sch]), fun fresh apart => ?_⟩
  · have lengths := rounds.imp (congrArg List.length) (And.imp_right (congrArg List.length))
    simp only [List.length_map, List.length_append, List.length_singleton] at lengths
    omega
  · rcases rounds with same | ⟨_, joined⟩
    · exact (RoundsKept.of_sublist (by rw [same])).apart apart
    · have absent := List.find?_eq_none.mp (fresh r rfl)
      unfold RoundsApart at apart ⊢
      rw [joined, List.nodup_append']
      refine ⟨apart, List.nodup_singleton _, fun x hx hy => ?_⟩
      obtain ⟨q, hq, rfl⟩ := List.mem_map.mp hx
      rw [List.mem_singleton] at hy
      exact absent q hq (by simpa using hy)

/-- A start leaves what it starts sound, and of what it retains keeps what was. -/
theorem Started.soundAfter (h : Started t) (occ : OccKept s t) (journal : JournalSound s → JournalSound t)
    (clock : ClockKept s t) : SoundAfter c s t := by
  obtain ⟨_, _, rounds, ⟨loans, demands⟩, fuel⟩ := h
  refine ⟨occ, fun ⟨_, _, _, sold⟩ => ?_, fun _ => fuel, clock, fun _ _ => ?_⟩
  · exact ⟨by simp [rounds], by simp [loans], by simp [demands], journal sold⟩
  · simp [RoundsApart, rounds]

theorem soundAfter_warmStart (inp : StartInputs) : SoundAfter c s (s.warmStart inp) :=
  (started_warmStart inp s).soundAfter (warmStart_occ inp s) (warmStart_journal inp s) (warmStart_clock inp s)

theorem soundAfter_coldStart (inp : StartInputs) : SoundAfter c s (s.coldStart inp) := by
  have occ : (s.coldStart inp).occ = Occ.cold := rfl
  have fdc : (s.coldStart inp).fdc = Fdc.cold inp := rfl
  have sch : (s.coldStart inp).sch = Sch.start 0 0 0 := rfl
  exact (started_coldStart inp s).soundAfter (fun _ => by simp [OccupancySound, occ, Occ.cold])
    (fun _ => by simp [JournalSound, fdc, Fdc.cold]) (fun _ => by simp [ClockSound, sch, Sch.start])

theorem soundAfter_restart {inp : StartInputs} (runs : exec (.restart inp) s = .next t) :
    SoundAfter (.restart inp) s t := by
  cases runs
  split
  · exact (kept_pnp s _).toTablesKept.soundAfter
  · exact soundAfter_warmStart inp

theorem soundAfter_powerUp {inp : StartInputs} {held agrees : Bool}
    (runs : exec (.powerUp inp held agrees) s = .next t) : SoundAfter (.powerUp inp held agrees) s t := by
  cases runs
  split
  · obtain ⟨occ, tables, fuel, clock, apart⟩ :=
      soundAfter_warmStart (c := .powerUp inp held agrees) (s := s) inp
    exact ⟨occ, tables, fuel, clock, apart⟩
  · obtain ⟨occ, tables, fuel, clock, apart⟩ :=
      soundAfter_coldStart (c := .powerUp inp held agrees) (s := s) inp
    exact ⟨occ, tables, fuel, clock, apart⟩

theorem soundAfter (c : Instr) (runs : exec c s = .next t) : SoundAfter c s t := by
  cases still : movesATable c with
  | false => exact (keeps c s still t runs).toTablesKept.soundAfter
  | true =>
    cases c with
    | join => exact soundAfter_join runs
    | listenEnd => exact soundAfter_listenEnd runs
    | txError => exact soundAfter_txError runs
    | silenceWatchEnd => exact soundAfter_silenceWatchEnd runs
    | frameHeard f =>
      exact ((frame_of_runs runs).tablesKept (by simp [mayChange]) (by simp [mayChange]) (by simp [mayChange])
        (by simp [mayChange]) (by simp [mayChange])).soundAfter
    | emergencyPress => exact soundAfter_emergencyPress runs
    | emergencyRelease => exact soundAfter_emergencyRelease runs
    | requestBerth r => exact soundAfter_requestBerth runs
    | restart inp => exact soundAfter_restart runs
    | powerUp inp held agrees => exact soundAfter_powerUp runs
    | _ => cases still

theorem kept_advance (s : State) (n : Nat) : Kept s (s.advance n) :=
  (within_advance s n).kept (clock := fun _ => clockKept_advance s n)

end

/-- Settles O58: every command keeps the table (`keeps`), the starts retain it or empty it. -/
theorem occupancyStaysSound : Obligations.OccupancyStaysSound := by
  intro s t sound runs
  rcases step_cases runs with ⟨c, rest, _, runs⟩ | rfl
  · exact (soundAfter c runs).occ sound
  · exact (kept_advance s 1).occ sound

/-- Settles O59: every command keeps each table (`keeps`); the emergency button is the one that has to stop what
was sound before it (`fuelSound_press`), REQUEST BERTH the one that gives a tag. -/
theorem tablesAndPumpsStaySound : Obligations.TablesAndPumpsStaySound := by
  refine ⟨fun s t sound runs => ?_, fun s t sound runs => ?_, fun s t sound runs => ?_,
    fun s t apart fresh runs => ?_⟩
  · rcases step_cases runs with ⟨c, rest, _, runs⟩ | rfl
    · exact (soundAfter c runs).tables sound
    · have time := (kept_advance s 1).toTablesKept
      exact tablesSound_of time.rounds.places time.pwb time.fuel.journal sound
  · rcases step_cases runs with ⟨c, rest, _, runs⟩ | rfl
    · exact (soundAfter c runs).fuel sound
    · exact (kept_advance s 1).fuel.sound sound
  · rcases step_cases runs with ⟨c, rest, _, runs⟩ | rfl
    · exact (soundAfter c runs).clock sound
    · exact (kept_advance s 1).clock sound
  · rcases step_cases runs with ⟨c, rest, front, runs⟩ | rfl
    · exact (soundAfter c runs).apart (fun q asked => fresh q rest (asked ▸ front)) apart
    · exact (kept_advance s 1).rounds.apart apart

end Sys2Proof.Machine
end

section
/-! PROOFS. The gate (06): what releases the latch and holds it again (R138, R139, R141 to R143), the door's
openings (R144, R145), the card reads in the order of their causes (R131 to R134) and the PIN entry (R135, R136). -/

namespace Sys2Proof.Machine

set_option Elab.async false

/-! ### The latch (R138, R139, R141) -/

/-- The latch is RELEASED by a decision that grants. -/
def Granted (t : State) : Prop := t.gtc.release.isSome = true ∧ ∃ d, t.gtc.last = some d ∧ d.cause = none

section
variable {s t : State} {c : Instr}

theorem release_event {body : State → State} (runs : (.next (s.event body) : Outcome) = .next t)
    (still : ∀ u, (body u).gtc.release = u.gtc.release) : t.gtc.release = s.gtc.release := by
  rcases event_of_runs runs with rfl | rfl
  · rfl
  · exact still s

theorem release_request {code : Nat} {body : State → State × Reply}
    (runs : (.next (s.request code body) : Outcome) = .next t)
    (still : ∀ u, (body u).1.gtc.release = u.gtc.release) : t.gtc.release = s.gtc.release := by
  rcases request_of_runs runs with ⟨p, rfl⟩ | ⟨p, q, rfl⟩
  · rfl
  · exact still _

theorem release_configure {ok clamped : Bool} {write : State → State}
    (runs : (.next (s.configure ok clamped write) : Outcome) = .next t)
    (still : ∀ u, (write u).gtc.release = u.gtc.release) : t.gtc.release = s.gtc.release :=
  release_request runs fun u => by
    split
    · rfl
    · split
      · rfl
      · exact still u

theorem release_firing {k : ScheduleKind} {act : State → State}
    (runs : (.next (s.takeAndFire k act) : Outcome) = .next t)
    (still : ∀ u, (act u).gtc.release = u.gtc.release) : t.gtc.release = s.gtc.release :=
  release_event runs fun u => (still _).trans (by rw [(within_takeFiring u k).frame .gtc (by decide)])

theorem grantRead_gtc (s : State) (card : Nat) (suspect : Bool) (f : Found) (pinAsked : Bool) :
    (s.grantRead card suspect f pinAsked).gtc = { s.gtc with
      release := some (s.elapsed + s.gtc.openTime * 1000000)
      last := some (s.decision card suspect (some f) pinAsked none) } := by
  have arrived := within_arriveOnGrant s f
  have gtc : (s.arriveOnGrant f).gtc = s.gtc := arrived.frame .gtc (by decide)
  have elapsed : (s.arriveOnGrant f).elapsed = s.elapsed := arrived.frame .elapsed (by decide)
  have sch : (s.arriveOnGrant f).sch = s.sch := arrived.frame .sch (by decide)
  simp [State.grantRead, State.decide_, State.releaseLatch, State.decision, State.now, Gtc.mode, gtc, elapsed, sch]

theorem refuseRead_gtc (s : State) (card : Nat) (suspect : Bool) (f : Option Found) (pinAsked : Bool)
    (cause : GateCause) : (s.refuseRead card suspect f pinAsked cause).gtc = { s.gtc with
      last := some (s.decision card suspect f pinAsked (some cause)) } := by
  simp [State.refuseRead, State.decide_]

theorem granted_grantRead (s : State) (card : Nat) (suspect : Bool) (f : Found) (pinAsked : Bool) :
    Granted (s.grantRead card suspect f pinAsked) := by
  rw [Granted, grantRead_gtc]
  exact ⟨rfl, _, rfl, rfl⟩

theorem refuseRead_release (s : State) (card : Nat) (suspect : Bool) (f : Option Found) (pinAsked : Bool)
    (cause : GateCause) : (s.refuseRead card suspect f pinAsked cause).gtc.release = s.gtc.release := by
  rw [refuseRead_gtc]

theorem decideRead_release (s : State) (card : Nat) (suspect : Bool) :
    (s.decideRead card suspect).gtc.release = s.gtc.release ∨ Granted (s.decideRead card suspect) := by
  unfold State.decideRead
  split
  · exact .inl (refuseRead_release _ _ _ _ _ _)
  · split
    · exact .inl (refuseRead_release _ _ _ _ _ _)
    · split
      · exact .inr (granted_grantRead _ _ _ _ _)
      · exact .inl (refuseRead_release _ _ _ _ _ _)
      · exact .inl rfl

theorem takeRead_release (s : State) (card : Nat) (suspect : Bool) :
    (s.takeRead card suspect).gtc.release = s.gtc.release ∨ Granted (s.takeRead card suspect) := by
  unfold State.takeRead
  split
  · exact .inl rfl
  · simpa using decideRead_release (s.setFlagIf suspect .suspectRead) card suspect

theorem pinOutcome_release (s : State) (f : Found) (correct : Bool) :
    (s.pinOutcome f correct).gtc.release = s.gtc.release := by
  unfold State.pinOutcome
  split
  · split
    · rfl
    · simp [State.modStaff]
  · split
    · rw [(within_correctPin s _).frame .gtc (by decide)]
    · rw [(within_wrongPin s _).frame .gtc (by decide)]

theorem judgeEntry_release (s : State) (e : PinEntry) :
    (s.judgeEntry e).gtc.release = s.gtc.release ∨ Granted (s.judgeEntry e) := by
  unfold State.judgeEntry
  dsimp only
  split
  · exact .inl (refuseRead_release _ _ _ _ _ _)
  · split
    · exact .inr (granted_grantRead _ _ _ _ _)
    · exact .inl ((refuseRead_release _ _ _ _ _ _).trans (pinOutcome_release _ _ _))

theorem takeKey_release (s : State) (e : PinEntry) (code : Nat) (known : code ≤ 11) :
    (s.takeKey e code).gtc.release = s.gtc.release ∨ code = 10 ∧ Granted (s.takeKey e code) := by
  unfold State.takeKey
  split
  · exact .inl rfl
  next notDigit =>
    split
    · exact .inl rfl
    next notClear =>
      split
      · exact .inl rfl
      · exact (judgeEntry_release s e).imp_right fun granted => ⟨by omega, granted⟩

theorem release_gateMode {mode : Nat} (runs : exec (.gateMode mode) s = .next t) :
    t.gtc.release = s.gtc.release :=
  release_request runs fun u => by
    split
    · dsimp only
      unfold State.gateMode
      split
      · rfl
      · split <;> rfl
    · rfl

theorem release_cardRead {card check : Nat} (runs : exec (.cardRead card check) s = .next t) :
    t.gtc.release = s.gtc.release ∨ Granted t := by
  rcases event_of_runs runs with rfl | rfl
  · exact .inl rfl
  · split
    · exact .inl rfl
    · exact takeRead_release _ _ _

theorem release_key {code : Nat} (runs : exec (.key code) s = .next t) :
    t.gtc.release = s.gtc.release ∨ code = 10 ∧ Granted t := by
  rcases event_of_runs runs with rfl | rfl
  · exact .inl rfl
  · split
    · split
      · exact .inl rfl
      next taken => exact takeKey_release _ _ _ (by simp at taken; omega)
    · exact .inl rfl

theorem release_pinEntryTimeout (runs : exec .pinEntryTimeout s = .next t) :
    t.gtc.release = s.gtc.release :=
  release_event runs fun u => by
    split
    · rw [refuseRead_release]
      simp [State.closeEntry, State.tellReader]
    · rfl

theorem release_doorOpenEdge (runs : exec .doorOpenEdge s = .next t) : t.gtc.release = s.gtc.release :=
  release_event runs fun u => by
    have stored : (u.capture .doorOpen).gtc.release = u.gtc.release :=
      congrArg Gtc.release ((within_capture u _).frame .gtc (by decide))
    dsimp only
    split
    · exact stored
    · split
      · exact stored
      · rw [(within_alarm _ _ _ _).frame .gtc (by decide)]
        exact stored

theorem release_doorShutEdge (runs : exec .doorShutEdge s = .next t) : t.gtc.release = s.gtc.release :=
  release_event runs fun u => by
    have stored : (u.capture .doorShut).gtc.release = u.gtc.release :=
      congrArg Gtc.release ((within_capture u _).frame .gtc (by decide))
    dsimp only
    split <;> exact stored

theorem release_heldLimitEnd (runs : exec .heldLimitEnd s = .next t) : t.gtc.release = s.gtc.release :=
  release_event runs fun u => by
    split
    · split
      · unfold State.holdDoor
        dsimp only
        rw [(within_alarm _ _ _ _).frame .gtc (by decide)]
        simp
      · rfl
    · rfl

theorem release_releaseEnd (runs : exec .releaseEnd s = .next t) :
    t.gtc.release = s.gtc.release ∨ t.gtc.release = none := by
  rcases event_of_runs runs with rfl | rfl
  · exact .inl rfl
  · split
    · exact .inr rfl
    · exact .inl rfl

end

/-- Settles O27: only the gate's own commands reach the latch (`everyCommandCompletesWithinItsParts`), and of
these all but the four leave its release as it is. -/
theorem onlyGrantsReleaseTheLatch : Obligations.OnlyGrantsReleaseTheLatch := by
  intro c s t runs noStart changed
  have own : Part.gtc ∈ mayChange c := by
    by_contra other
    exact changed (congrArg Gtc.release (frame_of_runs runs .gtc other))
  cases c with
  | configureGate v => exact absurd (release_configure runs fun u => rfl) changed
  | configureStaff staff card pin => exact absurd (release_configure runs fun u => rfl) changed
  | gateMode mode => exact absurd (release_gateMode runs) changed
  | pinEntryTimeout => exact absurd (release_pinEntryTimeout runs) changed
  | doorOpenEdge => exact absurd (release_doorOpenEdge runs) changed
  | doorShutEdge => exact absurd (release_doorShutEdge runs) changed
  | heldLimitEnd => exact absurd (release_heldLimitEnd runs) changed
  | nightOn | nightOff | lockdownOn | lockdownOff => exact absurd (release_firing runs fun u => rfl) changed
  | gateOpen =>
    refine ⟨fun held => ?_, fun _ => .inl rfl⟩
    rcases request_of_runs runs with ⟨p, rfl⟩ | ⟨p, q, rfl⟩
    · exact absurd rfl changed
    · exact nomatch held
  | exitButtonPress =>
    refine ⟨fun held => ?_, fun _ => .inr (.inl rfl)⟩
    rcases event_of_runs runs with rfl | rfl
    · exact absurd rfl changed
    · exact nomatch held
  | cardRead card check =>
    obtain ⟨released, granted⟩ := (release_cardRead runs).resolve_left changed
    exact ⟨fun held => by simp [held] at released, fun _ => .inr (.inr ⟨.inl ⟨card, check, rfl⟩, granted⟩)⟩
  | key code =>
    obtain ⟨rfl, released, granted⟩ := (release_key runs).resolve_left changed
    exact ⟨fun held => by simp [held] at released, fun _ => .inr (.inr ⟨.inr rfl, granted⟩)⟩
  | releaseEnd =>
    have held := (release_releaseEnd runs).resolve_left changed
    exact ⟨fun _ => rfl, fun released => by simp [held] at released⟩
  | restart | powerUp => cases noStart
  | _ => simp [mayChange, pwbParts, lineParts] at own

end Sys2Proof.Machine
end

section
/-! PROOFS. The frames the blocks queue (R163, R165, R208): the kind a frame was made with can be read back, so a
frame of a kind LIF accepts joins the transmit queue under the next note while there is room. -/

namespace Sys2Proof.Machine

set_option Elab.async false

/-! ### The kind of a frame (R208) -/

/-- The bits a list of key fields takes. -/
def keyWidth (fields : List (Nat × Nat)) : Nat := (fields.map Prod.fst).sum

/-- What is packed above the `free` low bits of a key leaves those bits clear. -/
theorem packFold_le (fields : List (Nat × Nat)) : ∀ free packed : Nat, keyWidth fields ≤ free →
    packed + 2 ^ free ≤ 2 ^ 19 → (fields.foldl (fun (a : Nat × Nat) f =>
      (a.1 - f.1, a.2 + f.2 % 2 ^ f.1 * 2 ^ (a.1 - f.1))) (free, packed)).2 < 2 ^ 19 := by
  induction fields with
  | nil =>
    intro free packed _ h
    have := Nat.two_pow_pos free
    simp only [List.foldl_nil]
    omega
  | cons f fields ih =>
    intro free packed fits h
    simp only [keyWidth, List.map_cons, List.sum_cons] at fits
    rw [List.foldl_cons]
    refine ih _ _ (by simp only [keyWidth]; omega) ?_
    have split : 2 ^ free = 2 ^ f.1 * 2 ^ (free - f.1) := by
      rw [← Nat.pow_add, Nat.add_sub_cancel' (by omega)]
    have value : f.2 % 2 ^ f.1 + 1 ≤ 2 ^ f.1 := Nat.mod_lt _ (Nat.two_pow_pos _)
    have := Nat.mul_le_mul_right (2 ^ (free - f.1)) value
    rw [Nat.add_mul, Nat.one_mul] at this
    dsimp only
    omega

theorem mkFrame_kind {kind : Nat} {fields : List (Nat × Nat)} (me : Nat) (data : List Byte) (known : kind < 32)
    (fits : keyWidth fields ≤ 19) : (mkFrame kind fields me data).kind = kind := by
  have key : packKey fields < 2 ^ 19 := packFold_le fields 19 0 fits (by norm_num)
  have sender : me % 32 < 32 := Nat.mod_lt _ (by norm_num)
  simp only [mkFrame, Frame.kind, BitVec.toNat_ofNat]
  omega

/-! ### Queueing (R165) -/

section
variable {s : State} {kind : Nat} {fields : List (Nat × Nat)} {data : List Byte}

/-- With room in the queue an accepted frame joins it under the next note, and nothing else changes. -/
theorem queueFrame_mk (on : s.lif.state = .onLine) (room : s.lif.tx.length < 12) (me : Nat)
    (accepted : 1 ≤ kind ∧ kind ≤ 16 := by decide) (fits : keyWidth fields ≤ 19 := by simp [keyWidth]) :
    s.queueFrame (mkFrame kind fields me data) = { s with lif := { s.lif with
      serial := s.lif.serial + 1
      tx := txInsert ⟨s.lif.serial, mkFrame kind fields me data⟩ s.lif.tx } } :=
  queueFrame_queued on room (by rw [mkFrame_kind _ _ (by omega) fits]; simpa [acceptedIn] using accepted)

theorem queueFrame_mem (on : s.lif.state = .onLine) (room : s.lif.tx.length < 12) (me : Nat)
    (accepted : 1 ≤ kind ∧ kind ≤ 16 := by decide) (fits : keyWidth fields ≤ 19 := by simp [keyWidth]) :
    ∃ f ∈ (s.queueFrame (mkFrame kind fields me data)).lif.tx,
      f.serial = s.lif.serial ∧ f.frame = mkFrame kind fields me data := by
  rw [queueFrame_mk on room me accepted fits]
  exact ⟨_, mem_txInsert.mpr (.inl rfl), rfl, rfl⟩

end

/-- An alarm is queued ON LINE alone, and there under the next note while the queue has room (R177). -/
theorem alarm_queued (s : State) (k : AlarmKind) (n v : Nat) :
    (s.lif.state ≠ .onLine → s.alarm k n v = s) ∧
    (s.lif.state = .onLine → s.lif.tx.length < 12 → ∃ f ∈ (s.alarm k n v).lif.tx,
      f.serial = s.lif.serial ∧ f.frame = alarmFrame s.me k n v) := by
  unfold State.alarm State.onLine
  refine ⟨fun off => by simp [off], fun on room => ?_⟩
  simp only [on, beq_self_eq_true, if_true]
  exact queueFrame_mem on room s.me

end Sys2Proof.Machine
end

section
/-! PROOFS. The gate's requests, its edges and its card reads (R130 to R134, R137 to R145, R213). -/

namespace Sys2Proof.Machine

set_option Elab.async false

/-! ### Releases and the gate mode (R130, R141 to R143) -/

theorem exec_gateMode {mode : Nat} {s : State} (taken : Takes 57 s) :
    exec (.gateMode mode) s = .next (if within 1 3 mode then
      { s.gateMode mode with pnp := s.pnp.answered 57 (.done (u8 (s.gateMode mode).gtc.mode.code)) }
      else { s with pnp := s.pnp.answered 57 (.refused .range) }) := by
  show Host.Outcome.next (s.request 57 _) = _
  rw [State.request_taken taken]
  split
  · unfold State.gateMode
    split
    · rfl
    · split <;> rfl
  · rfl

theorem gateMode_marks (mode : Nat) (s : State) :
    (mode = 1 → s.gateMode mode = { s with gtc := { s.gtc with night := false, lockdown := false } }) ∧
    (mode = 2 → s.gateMode mode = { s with gtc := { s.gtc with night := true, lockdown := false } }) ∧
    (mode = 3 → s.gateMode mode = { s with gtc := { s.gtc with lockdown := true } }) := by
  refine ⟨?_, ?_, ?_⟩ <;> rintro rfl <;> rfl

/-- Settles O23: the three releases, and the marks of each gate mode (`gateMode_marks`). -/
theorem latchReleasesAndGateMode : Obligations.LatchReleasesAndGateMode := by
  refine ⟨fun s taken => ?_, fun s on => ?_, fun e s on released => ?_, fun mode s taken => ?_⟩
  · show Host.Outcome.next (s.request 56 _) = _
    rw [State.request_taken taken]
    rfl
  · show Host.Outcome.next (s.event _) = _
    rw [State.event_on on]
    rfl
  · show Host.Outcome.next (s.event _) = _
    rw [State.event_on on]
    simp [released]
  · obtain ⟨day, night, lockdown⟩ := gateMode_marks mode s
    rw [exec_gateMode taken]
    refine ⟨fun h => ?_, fun h => ?_, fun h => ?_, fun h => ?_⟩
    · rw [day h]
      simp [h, within, u8, Gtc.mode, GateMode.code]
    · rw [night h]
      simp [h, within, u8, Gtc.mode, GateMode.code]
    · rw [lockdown h]
      simp [h, within, u8, Gtc.mode, GateMode.code]
    · have out : within 1 3 mode = false := by simp [within]; omega
      simp [out]

/-! ### The door (R144, R145, R177) -/

theorem doorOpen_taken {s : State} (on : s.powered = true) :
    exec .doorOpenEdge s = .next (if s.gtc.door.isOpen then s.capture .doorOpen else
      if s.gtc.release.isSome then (s.capture .doorOpen).openDoor
      else ((s.capture .doorOpen).openDoor.setFlag .gateForced).alarm .gateForced 0 s.sch.sec) := by
  have stored := within_capture s .doorOpen
  have gtc : (s.capture .doorOpen).gtc = s.gtc := stored.frame .gtc (by decide)
  have sch : (s.capture .doorOpen).sch = s.sch := stored.frame .sch (by decide)
  show Host.Outcome.next (s.event _) = _
  rw [State.event_on on]
  simp [gtc, State.openDoor, sch]

theorem holdDoor_eq {s : State} {o : Time} (opened : s.gtc.door.openTime = some o) (e : Nat) :
    s.holdDoor e = State.alarm .gateHeld 0 o.sec (State.setFlag .gateHeld { s.advanceTo e with
      gtc := { s.gtc with door := { s.gtc.door with heldEnd := none, held := true } } }) := by
  simp [State.holdDoor, opened]

theorem capture_hasFlag_of_ne (s : State) (e : Edge) {f : Flag} (h : f.bit &&& Flag.captureTaken.bit = 0) :
    (s.capture e).hasFlag f = s.hasFlag f := by
  unfold State.capture State.setFlagIf
  dsimp only
  split
  · have other : (s.pnp.flags ||| Flag.captureTaken.bit) &&& f.bit = s.pnp.flags &&& f.bit := by
      rw [BitVec.and_comm] at h
      rw [BitVec.and_or_distrib_right, h]
      exact BitVec.or_zero
    simpa [State.hasFlag] using congrArg (· != 0#64) other
  · rfl

/-- Settles O24: the edge's capture record changes CAP and PNP alone, so that the opening is decided as if it had
come first. -/
theorem doorOpeningsForcedAndHeld : Obligations.DoorOpeningsForcedAndHeld := by
  refine ⟨fun s on => ?_, fun s on => ?_, fun e o s on isOpen held opened => ?_⟩
  · have stored := within_capture s .doorOpen
    have gtc : (s.capture .doorOpen).gtc = s.gtc := stored.frame .gtc (by decide)
    have lif : (s.capture .doorOpen).lif = s.lif := stored.frame .lif (by decide)
    have sch : (s.capture .doorOpen).sch = s.sch := stored.frame .sch (by decide)
    have elapsed : (s.capture .doorOpen).elapsed = s.elapsed := stored.frame .elapsed (by decide)
    have door : (s.capture .doorOpen).openDoor.gtc = s.openDoor.gtc := by
      simp [State.openDoor, gtc, State.now, sch, elapsed]
    refine ⟨_, doorOpen_taken on, fun isOpen => ?_, fun shut => ?_⟩
    · rw [if_pos isOpen]
      exact ⟨gtc, lif⟩
    · rw [if_neg (by simp [shut])]
      refine ⟨?_, fun released => ?_, fun locked => ?_⟩
      · split
        · exact door
        · rw [(within_alarm _ _ _ _).frame .gtc (by decide)]
          exact door
      · rw [if_pos released]
        exact ⟨lif, capture_hasFlag_of_ne s _ (by decide)⟩
      · rw [if_neg (by simp [locked])]
        obtain ⟨off, queued⟩ := alarm_queued ((s.capture .doorOpen).openDoor.setFlag .gateForced)
          .gateForced 0 s.sch.sec
        have line : ((s.capture .doorOpen).openDoor.setFlag .gateForced).lif = s.lif := lif
        have me : ((s.capture .doorOpen).openDoor.setFlag .gateForced).me = s.me :=
          congrArg Straps.station (stored.frame .straps (by decide))
        rw [line, me] at queued
        rw [line] at off
        refine ⟨(within_alarm _ _ _ _).hasFlag (hasFlag_setFlag _ _), fun h => ?_, queued⟩
        rw [off h]
        exact lif
  · have stored := within_capture s .doorShut
    have gtc : (s.capture .doorShut).gtc = s.gtc := stored.frame .gtc (by decide)
    have runs : exec .doorShutEdge s = .next _ := congrArg Host.Outcome.next (State.event_on on)
    refine ⟨_, runs, ?_, frame_of_runs runs⟩
    simp only [gtc]
    split
    · simp [State.shutDoor, gtc]
    · exact gtc
  · have runs : exec .heldLimitEnd s = .next (s.holdDoor e) := by
      show Host.Outcome.next (s.event _) = _
      rw [State.event_on on]
      simp [held, isOpen]
    rw [holdDoor_eq opened] at runs
    refine ⟨_, runs, (within_alarm _ _ _ _).frame .gtc (by decide),
      (within_alarm _ _ _ _).hasFlag (hasFlag_setFlag _ _), (within_alarm _ _ _ _).frame .elapsed (by decide),
      fun on room => ?_, frame_of_runs runs⟩
    have time := within_advanceTo s e
    have line : (s.advanceTo e).lif = s.lif := time.frame .lif (by decide)
    have me : (s.advanceTo e).me = s.me := congrArg Straps.station (time.frame .straps (by decide))
    generalize s.advanceTo e = u at *
    rw [← line] at room on ⊢
    rw [← me]
    exact (alarm_queued _ .gateHeld 0 o.sec).2 on room

end Sys2Proof.Machine
end

section
/-! PROOFS. The bytes of the reader line (R213), card reads (R131 to R134, R137 to R139) and the PIN entry (R135,
R136): the decision a read comes to, cause by cause. -/

namespace Sys2Proof

set_option Elab.async false

/-! ### The reader line (R213) -/

/-- A byte that is no mark begins no frame. -/
theorem decodeReader_noMark (t : Nat) {b : Byte} (rest : List (Nat × Byte)) (h1 : b ≠ 0xC1#8) (h2 : b ≠ 0xC2#8) :
    decodeReader ((t, b) :: rest) = decodeReader rest := by
  have noFrame : readerLength b = none := by simp [readerLength, h1, h2]
  simp only [decodeReader, readerCommands, noFrame, Option.isSome_none, Bool.false_eq_true, if_false]
  exact readerCommands_idle t rest

/-- A mark begins a frame whose bytes are gathered from there. -/
theorem decodeReader_mark {t : Nat} {mark : Byte} {n : Nat} (known : readerLength mark = some n)
    (rest : List (Nat × Byte)) : decodeReader ((t, mark) :: rest) = readerCommands [mark] t rest := by
  simp [decodeReader, readerCommands, known]

/-- The byte that completes a frame in time makes its command. -/
theorem readerCommands_complete {mark : Byte} {n : Nat} (known : readerLength mark = some n) (t u : Nat)
    (held : List Byte) (b : Byte) (rest : List (Nat × Byte)) (inTime : u ≤ t + 100000) (full : n = held.length + 2) :
    readerCommands (mark :: held) t ((u, b) :: rest) =
      readerCommand (mark :: held ++ [b]) :: decodeReader rest := by
  simp [readerCommands, known, full, Nat.not_lt.mpr inTime, readerCommands_idle]

/-- A frame left incomplete is discarded at the next byte past its 100 ms, or with none to come, and that byte
is the next. -/
theorem readerCommands_late (mark : Byte) (held : List Byte) (t : Nat) (rest : List (Nat × Byte))
    (late : ∀ x more, rest = x :: more → t + 100000 < x.1) :
    readerCommands (mark :: held) t rest = .readerFrameTimeout (mark :: held) :: decodeReader rest := by
  cases rest with
  | nil => rfl
  | cons x more => simp [decodeReader, readerCommands, late x more rfl]

namespace Machine

theorem beBytes_length (w n : Nat) : (beBytes w n).length = w := by
  induction w with
  | zero => rfl
  | succ w ih => simp [beBytes, ih]

theorem beNat_foldl (l : List Byte) (a : Nat) :
    l.foldl (fun a b => a * 256 + b.toNat) a = a * 256 ^ l.length + beNat l := by
  unfold beNat
  induction l generalizing a with
  | nil => simp
  | cons b l ih =>
    rw [List.foldl_cons, List.foldl_cons, ih, ih (0 * 256 + b.toNat), List.length_cons]
    ring

theorem beNat_cons (b : Byte) (l : List Byte) : beNat (b :: l) = b.toNat * 256 ^ l.length + beNat l := by
  show l.foldl _ (0 * 256 + b.toNat) = _
  rw [beNat_foldl]
  ring

/-- A number that fits its bytes is read back from them. -/
theorem beNat_beBytes (w n : Nat) : beNat (beBytes w n) = n % 256 ^ w := by
  induction w with
  | zero => simp [beBytes, beNat, Nat.mod_one]
  | succ w ih =>
    rw [beBytes, beNat_cons, ih, beBytes_length, BitVec.toNat_ofNat, pow_succ 256 w, Nat.mod_mul, Nat.add_comm,
      Nat.mul_comm (256 ^ w)]

end Machine

open Machine in
/-- Seven bytes in time are a card read of the id and the check they carry. -/
theorem decodeReader_cardRead (t card : Nat) (check : Byte) (later rest : List (Nat × Byte))
    (small : card < 1099511627776) (spell : later.map Prod.snd = beBytes 5 card ++ [check])
    (inTime : ∀ x ∈ later, x.1 ≤ t + 100000) :
    decodeReader ((t, 0xC1#8) :: (later ++ rest)) = .cardRead card check.toNat :: decodeReader rest := by
  have known : readerLength 0xC1#8 = some 7 := rfl
  rcases List.eq_nil_or_concat later with rfl | ⟨early, last, rfl⟩
  · simpa using congrArg List.length spell
  · obtain ⟨u, b⟩ := last
    rw [List.concat_eq_append, List.map_append, List.map_singleton] at spell
    obtain ⟨bytes, rfl⟩ : early.map Prod.snd = beBytes 5 card ∧ b = check := by simpa using spell
    have five : early.length = 5 := by simpa [beBytes_length] using congrArg List.length bytes
    rw [List.concat_eq_append] at inTime ⊢
    rw [decodeReader_mark known, List.append_assoc, readerCommands_gather known t [] _ _
      (fun x hx => inTime x (by simp [hx])) (by simp [five]), List.nil_append, bytes, List.singleton_append,
      readerCommands_complete known t u _ _ _ (inTime (u, b) (by simp)) (by simp [beBytes_length])]
    congr 1
    have id : paramNum (0xC1#8 :: beBytes 5 card ++ [b]) 1 5 = card := by
      have : ((0xC1#8 :: beBytes 5 card ++ [b]).drop 1).take 5 = beBytes 5 card := by
        simp [beBytes_length]
      rw [paramNum, this, beNat_beBytes]
      exact Nat.mod_eq_of_lt (by simpa using small)
    have sum : paramNum (0xC1#8 :: beBytes 5 card ++ [b]) 6 1 = b.toNat := by
      have : ((0xC1#8 :: beBytes 5 card ++ [b]).drop 6).take 1 = [b] := by
        simp [beBytes_length]
      rw [paramNum, this]
      simp [Machine.beNat]
    rw [readerCommand, if_pos (by simp [beBytes_length]), id, sum]

theorem decodeReader_key (t u : Nat) (k : Byte) (rest : List (Nat × Byte)) (inTime : u ≤ t + 100000) :
    decodeReader ((t, 0xC2#8) :: (u, k) :: rest) = .key k.toNat :: decodeReader rest := by
  have known : readerLength 0xC2#8 = some 2 := rfl
  rw [decodeReader_mark known, readerCommands_complete known t u [] k rest inTime rfl]
  simp [readerCommand, paramNum, Machine.beNat]

theorem decodeReader_late (t : Nat) (mark : Byte) (later rest : List (Nat × Byte))
    (short : (mark = 0xC1#8 ∧ later.length < 6) ∨ (mark = 0xC2#8 ∧ later = []))
    (inTime : ∀ x ∈ later, x.1 ≤ t + 100000) (late : ∀ x more, rest = x :: more → t + 100000 < x.1) :
    decodeReader ((t, mark) :: (later ++ rest)) =
      .readerFrameTimeout (mark :: later.map Prod.snd) :: decodeReader rest := by
  obtain ⟨n, known, room⟩ : ∃ n, readerLength mark = some n ∧ 1 + later.length < n := by
    rcases short with ⟨rfl, few⟩ | ⟨rfl, rfl⟩
    · exact ⟨7, rfl, by omega⟩
    · exact ⟨2, rfl, by simp⟩
  rw [decodeReader_mark known, readerCommands_gather known t [] later rest inTime (by simpa using room),
    List.nil_append, readerCommands_late _ _ _ _ late]

end Sys2Proof

namespace Sys2Proof.Machine

set_option Elab.async false

/-! ### Decisions (R132 to R139) -/

section
variable {s : State} {card : Nat} {suspect : Bool} {f : Found}

theorem refuseRead_eq (f : Option Found) (pinAsked : Bool) (c : GateCause) :
    s.refuseRead card suspect f pinAsked c = { s with
      gtc := { s.gtc with last := some (s.decision card suspect f pinAsked (some c)) }
      pnp := (s.pnp.flagged Flag.gateDecided.bit).flagged Flag.gateRefused.bit } := rfl

theorem arriveOnGrant_eq : s.arriveOnGrant f = { s with occ := (s.arriveOnGrant f).occ } := by
  unfold State.arriveOnGrant
  split
  · split
    · split <;> rfl
    · rfl
  · rfl

theorem grantRead_eq (pinAsked : Bool) : s.grantRead card suspect f pinAsked = { s with
    occ := (s.arriveOnGrant f).occ
    gtc := { s.gtc with
      last := some (s.decision card suspect (some f) pinAsked none)
      release := some (s.elapsed + s.gtc.openTime * 1000000) }
    pnp := s.pnp.flagged Flag.gateDecided.bit } := by
  unfold State.grantRead
  rw [arriveOnGrant_eq]
  rfl

/-- What a read found is refused at its first cause, or meets its PIN demand (R132 to R134). -/
theorem decideRead_found (found : s.findCard card = some f) :
    (∀ c, s.readCause f = some c → s.decideRead card suspect = s.refuseRead card suspect (some f) false c) ∧
    (s.readCause f = none →
      (s.pinDemand f suspect = .granted → s.decideRead card suspect = s.grantRead card suspect f false) ∧
      (s.pinDemand f suspect = .refusedNoPin →
        s.decideRead card suspect = s.refuseRead card suspect (some f) false .noPin) ∧
      (s.pinDemand f suspect = .asked → s.decideRead card suspect = s.openEntry card suspect f)) := by
  refine ⟨fun c h => ?_, fun h => ⟨fun d => ?_, fun d => ?_, fun d => ?_⟩⟩ <;>
    simp only [State.decideRead, found, h] <;> simp only [d]

theorem decideRead_unknown (found : s.findCard card = none) :
    s.decideRead card suspect = s.refuseRead card suspect none false .unknown := by
  simp only [State.decideRead, found]

/-! ### What a card finds (R132) -/

theorem findCard_none (h : card = 0 ∨ ((∀ e ∈ s.gtc.staff, e.card ≠ card) ∧
    ∀ r ∈ s.occ.records, ∀ c : Credential, r.credential = some c → c.card ≠ card)) : s.findCard card = none := by
  unfold State.findCard
  split
  · rfl
  next nonzero =>
    obtain ⟨staff, records⟩ := h.resolve_left nonzero
    have noStaff : s.gtc.staff.find? (fun e => e.card == card) = none := by simpa using staff
    have noHolder : s.cardHolder card = none := by
      unfold State.cardHolder
      refine List.find?_eq_none.mpr fun r hr => ?_
      cases holds : r.credential with
      | none => simp
      | some c => simpa using records r hr c holds
    simp only [noStaff, noHolder, Option.map_none]

theorem findCard_staff {e : Staff} (nonzero : card ≠ 0)
    (found : s.gtc.staff.find? (fun e => e.card == card) = some e) : s.findCard card = some (.staff e.number) := by
  simp only [State.findCard, if_neg nonzero, found]

theorem findCard_occupancy {r : Occupancy} (nonzero : card ≠ 0) (staff : ∀ e ∈ s.gtc.staff, e.card ≠ card)
    (holder : s.cardHolder card = some r) : s.findCard card = some (.occupancy r.number) := by
  have noStaff : s.gtc.staff.find? (fun e => e.card == card) = none := by simpa using staff
  simp only [State.findCard, if_neg nonzero, noStaff, holder, Option.map_some]

/-! ### Eligibility (R132) and the PIN demand (R134) -/

/-- The grounds in a record's state that bar an occupancy read (R132). -/
theorem stateBars_iff (s : State) (r : Occupancy) : s.stateBars r = true ↔
    r.closureDue.isSome = true ∨ (r.state = .booked ∧ r.arrival ≠ s.today) ∨
      (r.state = .departing ∧ ∃ e, r.graceEnd = some e ∧ e.toMs ≤ s.now.toMs) := by
  unfold State.stateBars
  cases state : r.state with
  | booked => simp
  | alongside => simp
  | departing => cases grace : r.graceEnd <;> simp

/-- The causes of an occupancy read in their order (R132). -/
theorem occupancyCause_cases (s : State) (r : Occupancy) (c : Credential) :
    (s.gtc.mode = .lockdown → s.occupancyCause r c = some .mode) ∧
    (s.gtc.mode ≠ .lockdown → s.stateBars r = true → s.occupancyCause r c = some .state) ∧
    (s.gtc.mode ≠ .lockdown → ¬ s.stateBars r = true → r.account.state = .barred →
      s.occupancyCause r c = some .barred) ∧
    (s.gtc.mode ≠ .lockdown → ¬ s.stateBars r = true → r.account.state ≠ .barred → c.locked = true →
      s.occupancyCause r c = some .locked) ∧
    (s.gtc.mode ≠ .lockdown → ¬ s.stateBars r = true → r.account.state ≠ .barred → c.locked = false →
      s.occupancyCause r c = none) := by
  unfold State.occupancyCause
  refine ⟨fun a => ?_, fun a b => ?_, fun a b d => ?_, fun a b d e => ?_, fun a b d e => ?_⟩
  · simp [a]
  · simp [a, b]
  · simp [a, b, d]
  · simp [a, b, d, e]
  · simp [a, b, d, e]

theorem readCause_staff {e : Staff} {n : Nat} (listed : s.staff? n = some e) :
    s.readCause (.staff n) = if e.locked then some .locked else none := by
  simp only [State.readCause, listed]

theorem readCause_occupancy {r : Occupancy} {c : Credential} {n : Nat} (live : s.occ? n = some r)
    (bound : r.credential = some c) : s.readCause (.occupancy n) = s.occupancyCause r c := by
  simp only [State.readCause, live, bound]

theorem pinDemand_staff {e : Staff} {n : Nat} (listed : s.staff? n = some e) :
    s.pinDemand (.staff n) suspect =
      if !suspect && s.waiverRuns e.waiver && s.gtc.mode != .lockdown then .granted else .asked := by
  simp only [State.pinDemand, listed]

theorem pinDemand_occupancy {r : Occupancy} {c : Credential} {n : Nat} (live : s.occ? n = some r)
    (bound : r.credential = some c) : s.pinDemand (.occupancy n) suspect =
      if c.pin.isNone then (if !suspect && s.gtc.mode == .day then .granted else .refusedNoPin)
      else if !suspect && s.waiverRuns c.waiver then .granted else .asked := by
  simp only [State.pinDemand, live, Option.bind_some, bound]

/-- A grant to a staff card moves no record; one to an occupancy's brings a BOOKED record ALONGSIDE on its
arrival day where arrive on entry is set (R139). -/
theorem arriveOnGrant_staff (n : Nat) : (s.arriveOnGrant (.staff n)).occ = s.occ := rfl

theorem arriveOnGrant_occupancy {r : Occupancy} {n : Nat} (live : s.occ? n = some r) (free : ¬ s.stateBars r = true) :
    (s.arriveOnGrant (.occupancy n)).occ =
      if r.state = .booked ∧ s.gtc.arriveOnEntry = true then (s.toAlongside n).occ else s.occ := by
  have today : r.state = .booked → r.arrival = s.today := fun booked => by
    by_contra other
    exact free ((stateBars_iff s r).mpr (.inr (.inl ⟨booked, other⟩)))
  simp only [State.arriveOnGrant, live]
  by_cases booked : r.state = .booked
  · by_cases entry : s.gtc.arriveOnEntry = true
    · simp [booked, entry, today booked]
    · simp [entry]
  · simp [booked]

/-! ### A card read (R131, R132) -/

theorem exec_cardRead_taken (on : s.powered = true) (check : Nat) (joined : s.lif.state ≠ .unconfigured) :
    exec (.cardRead card check) s = .next (s.takeRead card (!cardGood card check)) := by
  show Host.Outcome.next (s.event _) = _
  rw [State.event_on on]
  simp [State.unconfigured, joined]

/-- A read in IDLE is decided at once, a suspect one flagged first. -/
theorem takeRead_idle (good : Bool) (idle : s.gtc.entry = none) : s.takeRead card (!good) =
    State.decideRead card (!good) { s with
      pnp := if good = true then s.pnp else s.pnp.flagged Flag.suspectRead.bit } := by
  cases good
  · simp [State.takeRead, idle, State.setFlagIf, State.setFlag, Pnp.flagged, Pnp.examine]
  · simp [State.takeRead, idle, State.setFlagIf]

end

/-- Settles O25: the reader's bytes frame by frame, and the decision of a read by what its card finds, its first
cause and its PIN demand. -/
theorem cardReadsAreDecidedInOrder : Obligations.CardReadsAreDecidedInOrder := by
  refine ⟨⟨fun t b rest => decodeReader_noMark t rest, decodeReader_cardRead, decodeReader_key,
    decodeReader_late⟩, fun card check s on => ?_⟩
  intro good base decision refused asked
  refine ⟨fun off => ?_, fun joined pending => ?_, fun joined idle => ?_⟩
  · show Host.Outcome.next (s.event _) = _
    rw [State.event_on on]
    simp [State.unconfigured, off]
  · rw [exec_cardRead_taken on check joined]
    simp [State.takeRead, pending, State.setFlag, Pnp.flagged, Pnp.examine]
  have runs : exec (.cardRead card check) s = .next (State.decideRead card (!good) { s with pnp := base }) := by
    rw [exec_cardRead_taken on check joined, takeRead_idle good idle]
  have refuse : ∀ f c, State.decideRead card (!good) { s with pnp := base } =
      State.refuseRead card (!good) f false c { s with pnp := base } → refused f c := by
    intro f c e
    show exec _ _ = _
    rw [runs, e]
    rfl
  have ask : ∀ f, State.decideRead card (!good) { s with pnp := base } =
      State.openEntry card (!good) f { s with pnp := base } → asked f := by
    intro f e
    show exec _ _ = _
    rw [runs, e]
    rfl
  refine ⟨fun none => ?_, fun e nonzero first listed => ?_, fun r c nonzero staff holder live bound => ?_⟩
  · exact refuse _ _ (decideRead_unknown (s := { s with pnp := base }) (findCard_none none))
  · have found := findCard_staff (s := { s with pnp := base }) nonzero first
    obtain ⟨bars, demand⟩ := decideRead_found (suspect := !good) found
    have cause : State.readCause { s with pnp := base } (.staff e.number) = _ :=
      readCause_staff (s := s) listed
    have pin : State.pinDemand { s with pnp := base } (.staff e.number) (!good) = _ :=
      pinDemand_staff (s := s) (suspect := !good) listed
    refine ⟨fun locked => ?_, fun free noWaiver => ?_, fun free ok waiver mode => ?_⟩
    · exact refuse _ _ (bars _ (cause.trans (if_pos locked)))
    · refine ask _ ((demand (cause.trans (if_neg (by simp [free])))).2.2 (pin.trans (if_neg fun h => noWaiver ?_)))
      simpa [and_assoc] using h
    · have granted := (demand (cause.trans (if_neg (by simp [free])))).1
        (pin.trans (if_pos (by simpa [ok, mode] using waiver)))
      rw [runs, granted, grantRead_eq]
      rfl
  · have found := findCard_occupancy (s := { s with pnp := base }) nonzero staff holder
    obtain ⟨bars, demand⟩ := decideRead_found (suspect := !good) found
    have cause : State.readCause { s with pnp := base } (.occupancy r.number) = _ :=
      readCause_occupancy (s := s) live bound
    have pin : State.pinDemand { s with pnp := base } (.occupancy r.number) (!good) = _ :=
      pinDemand_occupancy (s := s) (suspect := !good) live bound
    obtain ⟨mode, state, barred, locked, free⟩ := occupancyCause_cases s r c
    simp only [stateBars_iff] at state barred locked free
    refine ⟨fun h => ?_, fun a h => ?_, fun a b h => ?_, fun a b d h => ?_, fun h noPin out => ?_,
      fun h hasPin out => ?_, fun h ok how => ?_⟩
    · exact refuse _ _ (bars _ (cause.trans (mode h)))
    · exact refuse _ _ (bars _ (cause.trans (state a h)))
    · exact refuse _ _ (bars _ (cause.trans (barred a b h)))
    · exact refuse _ _ (bars _ (cause.trans (locked a b d h)))
    · obtain ⟨lockdown, noState, noBar, unlocked⟩ := h
      refine refuse _ _ ((demand (cause.trans (free lockdown noState noBar unlocked))).2.1 (pin.trans ?_))
      rw [if_pos (by simp [noPin]), if_neg fun h => out (by simpa using h)]
    · obtain ⟨lockdown, noState, noBar, unlocked⟩ := h
      refine ask _ ((demand (cause.trans (free lockdown noState noBar unlocked))).2.2 (pin.trans ?_))
      obtain ⟨p, hp⟩ := Option.isSome_iff_exists.mp hasPin
      rw [if_neg (by simp [hp]), if_neg fun h => out (by simpa using h)]
    · obtain ⟨lockdown, noState, noBar, unlocked⟩ := h
      have granted : State.pinDemand { s with pnp := base } (.occupancy r.number) (!good) = .granted := by
        rw [pin]
        rcases how with ⟨noPin, day⟩ | ⟨hasPin, waiver⟩
        · rw [if_pos (by simp [noPin]), if_pos (by simp [ok, day])]
        · obtain ⟨p, hp⟩ := Option.isSome_iff_exists.mp hasPin
          rw [if_neg (by simp [hp]), if_pos (by simpa [ok] using waiver)]
      have arrived : (State.arriveOnGrant (.occupancy r.number) { s with pnp := base }).occ =
          if r.state = .booked ∧ s.gtc.arriveOnEntry = true then (s.toAlongside r.number).occ else s.occ :=
        arriveOnGrant_occupancy (s := { s with pnp := base }) live fun h => noState ((stateBars_iff s r).mp h)
      rw [runs, (demand (cause.trans (free lockdown noState noBar unlocked))).1 granted, grantRead_eq, arrived]
      have unflagged : base = s.pnp := if_pos ok
      rw [unflagged]
      rfl

end Sys2Proof.Machine
end

section
/-! PROOFS. The PIN entry (R135, R136): its keys, what an ENTER judges, and the outcome told to the credential's
owner (R47, R129). -/

namespace Sys2Proof.Machine

set_option Elab.async false

/-! ### The outcome of a PIN (R47, R129) -/

section
variable {s : State} {e : PinEntry}

/-- The outcome goes to the staff entry or the record alone, with LOCKOUT where it locks. -/
theorem pinOutcome_eq (f : Found) (correct : Bool) : s.pinOutcome f correct = { s with
    gtc := { s.gtc with staff := (s.pinOutcome f correct).gtc.staff }
    occ := (s.pinOutcome f correct).occ
    pnp := (s.pinOutcome f correct).pnp } := by
  unfold State.pinOutcome
  split
  · split
    · rfl
    · unfold State.setFlagIf
      dsimp only
      split <;> split <;> rfl
  · split
    · rfl
    · unfold State.wrongPin State.setFlagIf
      split
      · rfl
      · split <;> rfl

theorem staff?_modStaff {f : Staff → Staff} (keeps : ∀ x, (f x).number = x.number) {n : Nat} {x : Staff}
    (listed : s.staff? n = some x) : (s.modStaff n f).staff? n = some (f x) := by
  have same := lookupKey_modifyKey keeps n n s.gtc.staff
  rw [if_pos rfl] at same
  exact same.trans (congrArg (Option.map f) listed)

theorem occ?_modCredential {f : Credential → Credential} {n : Nat} {r : Occupancy} {c : Credential}
    (live : s.occ? n = some r) (bound : r.credential = some c) :
    (s.modCredential n f).occ? n = some { r with credential := some (f c) } := by
  have changed := modOcc_occ? s (f := fun r => { r with credential := r.credential.map f }) (fun _ => rfl) n n
  rw [if_pos rfl, live] at changed
  unfold State.modCredential
  rw [changed]
  simp [bound]

theorem Staff.wrongPin_eq {x : Staff} (free : x.locked = false) :
    x.wrongPin = { x with count := min 3 (x.count + 1), locked := decide (2 ≤ x.count) } := by
  have third : (min 3 (x.count + 1) == 3) = decide (2 ≤ x.count) := by
    rw [Bool.eq_iff_iff, beq_iff_eq, decide_eq_true_iff]
    omega
  simp [Staff.wrongPin, free, third]

theorem Credential.wrongPin_eq {c : Credential} (free : c.locked = false) :
    c.wrongPin = { c with count := min 3 (c.count + 1), locked := decide (2 ≤ c.count) } := by
  have third : (min 3 (c.count + 1) == 3) = decide (2 ≤ c.count) := by
    rw [Bool.eq_iff_iff, beq_iff_eq, decide_eq_true_iff]
    omega
  simp [Credential.wrongPin, free, third]

/-- The third wrong PIN in a row of a staff entry locks it, with LOCKOUT flagged (R129). -/
theorem pinOutcome_staff_wrong {n : Nat} {x : Staff} (listed : s.staff? n = some x) (free : x.locked = false) :
    (s.pinOutcome (.staff n) false).staff? n = some { x with
      count := min 3 (x.count + 1)
      locked := decide (2 ≤ x.count) } ∧
    (s.pinOutcome (.staff n) false).occ = s.occ ∧
    (2 ≤ x.count → (s.pinOutcome (.staff n) false).hasFlag .lockout = true) := by
  have after : (s.modStaff n Staff.wrongPin).staff? n = some x.wrongPin :=
    staff?_modStaff (f := Staff.wrongPin) (fun _ => rfl) listed
  rw [Staff.wrongPin_eq free] at after
  simp only [State.pinOutcome, Bool.false_eq_true, if_false, listed, free, Bool.not_false, Bool.true_and]
  rw [Staff.wrongPin_eq free]
  refine ⟨?_, setFlagIf_occ _ _ _, fun locks => ?_⟩
  · unfold State.staff? at after ⊢
    rw [setFlagIf_gtc]
    exact after
  · simp only [State.setFlagIf, locks, decide_true, if_true]
    exact hasFlag_setFlag _ _

/-- The third wrong PIN in a row of a record's credential locks it, with LOCKOUT flagged (R47). -/
theorem pinOutcome_occupancy_wrong {n : Nat} {r : Occupancy} {c : Credential} (live : s.occ? n = some r)
    (bound : r.credential = some c) (free : c.locked = false) :
    (s.pinOutcome (.occupancy n) false).occ? n = some { r with credential := some { c with
      count := min 3 (c.count + 1)
      locked := decide (2 ≤ c.count) } } ∧
    (2 ≤ c.count → (s.pinOutcome (.occupancy n) false).hasFlag .lockout = true) := by
  have after := occ?_modCredential (f := Credential.wrongPin) live bound
  rw [Credential.wrongPin_eq free] at after
  simp only [State.pinOutcome, Bool.false_eq_true, if_false, State.wrongPin, live, Option.bind_some, bound, free,
    Bool.not_false, Bool.true_and]
  rw [Credential.wrongPin_eq free]
  refine ⟨?_, fun locks => ?_⟩
  · unfold State.occ? at after ⊢
    rw [setFlagIf_occ]
    exact after
  · simp only [State.setFlagIf, locks, decide_true, if_true]
    exact hasFlag_setFlag _ _

/-- A grant leaves a record's credential, and all of a record ALONGSIDE (R139). -/
theorem arriveOnGrant_occ? {n : Nat} {r : Occupancy} (live : s.occ? n = some r) :
    ∃ r', (s.arriveOnGrant (.occupancy n)).occ? n = some r' ∧ r'.credential = r.credential ∧
      (r.state = .alongside → r' = r) := by
  simp only [State.arriveOnGrant, live]
  split
  next arrives =>
    have booked : r.state = .booked := by
      simp only [Bool.and_eq_true, decide_eq_true_eq] at arrives
      exact arrives.1.1
    refine ⟨{ r with state := .alongside }, ?_, rfl, fun h => nomatch booked.symm.trans h⟩
    have moved := modOcc_occ? (s := s) (f := fun r => { r with state := .alongside }) (fun _ => rfl) n n
    rw [if_pos rfl, live] at moved
    exact moved
  · exact ⟨r, live, rfl, fun _ => rfl⟩

/-! ### What an ENTER judges (R136) -/

/-- An entry judged is closed, and its decision recorded. -/
def EntryClosed (t : State) : Prop :=
  t.gtc.entry = none ∧ t.gtc.readerOut = [0xC8#8, 0#8] ∧ t.hasFlag .gateDecided = true

theorem entryClosed_refuseRead {u : State} (closed : u.gtc.entry = none ∧ u.gtc.readerOut = [0xC8#8, 0#8])
    (card : Nat) (suspect : Bool) (f : Option Found) (pinAsked : Bool) (c : GateCause) :
    EntryClosed (u.refuseRead card suspect f pinAsked c) ∧
    (u.refuseRead card suspect f pinAsked c).hasFlag .gateRefused = true := by
  refine ⟨⟨closed.1, closed.2, ?_⟩, hasFlag_setFlag _ _⟩
  exact (within_setFlagIf _ _ _).hasFlag (hasFlag_setFlag _ _)

theorem entryClosed_grantRead {u : State} (closed : u.gtc.entry = none ∧ u.gtc.readerOut = [0xC8#8, 0#8])
    (card : Nat) (suspect : Bool) (f : Found) (pinAsked : Bool) :
    EntryClosed (u.grantRead card suspect f pinAsked) := by
  refine ⟨?_, ?_, ?_⟩
  · rw [grantRead_gtc]
    exact closed.1
  · rw [grantRead_gtc]
    exact closed.2
  · exact (within_setFlagIf _ _ _).hasFlag (hasFlag_setFlag _ _)

/-- A judged entry refused at a cause leaves what it was compared with (R136). -/
theorem judgeEntry_refused {c : GateCause} (judged : s.judgePin e = .error c) :
    EntryClosed (s.judgeEntry e) ∧ (s.judgeEntry e).gtc.release = s.gtc.release ∧
    (s.judgeEntry e).gtc.last = some (s.decision e.card e.suspect (some e.found) true (some c)) ∧
    (s.judgeEntry e).occ = s.occ ∧ (s.judgeEntry e).hasFlag .gateRefused = true := by
  have same : s.closeEntry.judgePin e = .error c := judged
  have shape : s.judgeEntry e = s.closeEntry.refuseRead e.card e.suspect (some e.found) true c := by
    simp only [State.judgeEntry, same]
  obtain ⟨closed, flagged⟩ := entryClosed_refuseRead (u := s.closeEntry) ⟨rfl, rfl⟩ e.card e.suspect
    (some e.found) true c
  rw [shape]
  exact ⟨closed, rfl, rfl, rfl, flagged⟩

/-- A wrong PIN is told to the credential's owner and refused, LOCKED where it locked (R136). -/
theorem judgeEntry_wrong {pin : List Nat} (judged : s.judgePin e = .ok pin) (wrong : e.digits ≠ pin) :
    EntryClosed (s.judgeEntry e) ∧ (s.judgeEntry e).gtc.release = s.gtc.release ∧
    (s.judgeEntry e).gtc.last = some (s.decision e.card e.suspect (some e.found) true
      (some (if (s.closeEntry.pinOutcome e.found false).foundLocked e.found then .locked else .wrongPin))) ∧
    (s.judgeEntry e).occ = (s.closeEntry.pinOutcome e.found false).occ ∧
    (s.judgeEntry e).gtc.staff = (s.closeEntry.pinOutcome e.found false).gtc.staff ∧
    (s.judgeEntry e).hasFlag .gateRefused = true ∧
    ((s.closeEntry.pinOutcome e.found false).hasFlag .lockout = true →
      (s.judgeEntry e).hasFlag .lockout = true) := by
  have same : s.closeEntry.judgePin e = .ok pin := judged
  have shape : s.judgeEntry e = (s.closeEntry.pinOutcome e.found false).refuseRead e.card e.suspect
      (some e.found) true (if (s.closeEntry.pinOutcome e.found false).foundLocked e.found
        then .locked else .wrongPin) := by
    simp only [State.judgeEntry, same, if_neg wrong]
  have told := pinOutcome_eq (s := s.closeEntry) e.found false
  rw [shape]
  generalize s.closeEntry.pinOutcome e.found false = u at told
  obtain ⟨closed, flagged⟩ := entryClosed_refuseRead (u := u) (by rw [told]; exact ⟨rfl, rfl⟩) e.card e.suspect
    (some e.found) true (if u.foundLocked e.found then .locked else .wrongPin)
  refine ⟨closed, ?_, ?_, rfl, rfl, flagged, (within_refuseRead _ _ _ _ _ _).hasFlag⟩
  · rw [refuseRead_release, told]
    rfl
  · rw [refuseRead_gtc]
    have decided : ∀ c, u.decision e.card e.suspect (some e.found) true c =
        s.decision e.card e.suspect (some e.found) true c := by
      rw [told]
      exact fun _ => rfl
    exact congrArg some (decided _)

/-- The right PIN is told to the credential's owner and grants (R136, R139). -/
theorem judgeEntry_right {pin : List Nat} (judged : s.judgePin e = .ok pin) (right : e.digits = pin) :
    EntryClosed (s.judgeEntry e) ∧
    (s.judgeEntry e).gtc.release = some (s.elapsed + s.gtc.openTime * 1000000) ∧
    (s.judgeEntry e).gtc.last = some (s.decision e.card e.suspect (some e.found) true none) ∧
    (s.judgeEntry e).occ = ((s.closeEntry.pinOutcome e.found true).arriveOnGrant e.found).occ ∧
    (s.judgeEntry e).gtc.staff = (s.closeEntry.pinOutcome e.found true).gtc.staff := by
  have same : s.closeEntry.judgePin e = .ok pin := judged
  have shape : s.judgeEntry e =
      (s.closeEntry.pinOutcome e.found true).grantRead e.card e.suspect e.found true := by
    simp only [State.judgeEntry, same, if_pos right]
  have told := pinOutcome_eq (s := s.closeEntry) e.found true
  rw [shape]
  generalize s.closeEntry.pinOutcome e.found true = u at told
  refine ⟨entryClosed_grantRead (by rw [told]; exact ⟨rfl, rfl⟩) _ _ _ _, ?_, ?_, by rw [grantRead_eq], ?_⟩
  · rw [grantRead_gtc, told]
    rfl
  · rw [grantRead_gtc, told]
    rfl
  · rw [grantRead_gtc]

theorem judgePin_staff {x : Staff} {n : Nat} (found : e.found = .staff n) (listed : s.staff? n = some x) :
    s.judgePin e = if x.locked then .error .locked else .ok x.pin := by
  simp only [State.judgePin, found, listed]

theorem judgePin_noRecord {n : Nat} (found : e.found = .occupancy n) (gone : s.occ? n = none) :
    s.judgePin e = .error .changed := by
  simp only [State.judgePin, found, gone]

theorem judgePin_noCredential {r : Occupancy} {n : Nat} (found : e.found = .occupancy n)
    (live : s.occ? n = some r) (unbound : r.credential = none) : s.judgePin e = .error .changed := by
  simp only [State.judgePin, found, live, unbound]

theorem judgePin_otherCard {r : Occupancy} {c : Credential} {n : Nat} (found : e.found = .occupancy n)
    (live : s.occ? n = some r) (bound : r.credential = some c) (other : c.card ≠ e.card) :
    s.judgePin e = .error .changed := by
  have : (c.card != e.card) = true := by simpa using other
  simp only [State.judgePin, found, live, bound, this, if_true]

/-- The same card's credential is judged by its first cause, then by its PIN, and one without a PIN is changed. -/
theorem judgePin_card {r : Occupancy} {c : Credential} {n : Nat} (found : e.found = .occupancy n)
    (live : s.occ? n = some r) (bound : r.credential = some c) (same : c.card = e.card) :
    (∀ x, s.occupancyCause r c = some x → s.judgePin e = .error x) ∧
    (s.occupancyCause r c = none → (∀ p, c.pin = some p → s.judgePin e = .ok p) ∧
      (c.pin = none → s.judgePin e = .error .changed)) := by
  have kept : (c.card != e.card) = false := by simpa using same
  refine ⟨fun x cause => ?_, fun none => ⟨fun p pin => ?_, fun pin => ?_⟩⟩
  · simp only [State.judgePin, found, live, bound, kept, Bool.false_eq_true, if_false, cause]
  · simp only [State.judgePin, found, live, bound, kept, Bool.false_eq_true, if_false, none, pin]
  · simp only [State.judgePin, found, live, bound, kept, Bool.false_eq_true, if_false, none, pin]

theorem foundLocked_staff {x : Staff} {n : Nat} (listed : s.staff? n = some x) :
    s.foundLocked (.staff n) = x.locked := by
  simp only [State.foundLocked, listed]

theorem foundLocked_occupancy {r : Occupancy} {c : Credential} {n : Nat} (live : s.occ? n = some r)
    (bound : r.credential = some c) : s.foundLocked (.occupancy n) = c.locked := by
  simp only [State.foundLocked, live, Option.bind_some, bound]

theorem unlocked_of_noCause {r : Occupancy} {c : Credential} (none : s.occupancyCause r c = none) :
    c.locked = false := by
  unfold State.occupancyCause at none
  by_contra locked
  rw [Bool.not_eq_false] at locked
  simp only [locked, if_true] at none
  split_ifs at none

/-! ### Keys (R131, R135) -/

theorem exec_key_taken {code : Nat} (on : s.powered = true) (joined : s.lif.state ≠ .unconfigured)
    (pending : s.gtc.entry = some e) (known : code ≤ 11) : exec (.key code) s = .next (s.takeKey e code) := by
  show Host.Outcome.next (s.event _) = _
  rw [State.event_on on]
  simp [pending, State.unconfigured, joined, Nat.not_lt.mpr known]

theorem exec_key_ignored {code : Nat}
    (ignored : s.gtc.entry = none ∨ s.lif.state = .unconfigured ∨ 11 < code) : exec (.key code) s = .next s := by
  show Host.Outcome.next (s.event _) = _
  unfold State.event
  split
  · dsimp only
    split
    next pending =>
      simp only [pending, reduceCtorEq, false_or] at ignored
      simp [State.unconfigured, ignored]
    · rfl
  · rfl

end

/-- Settles O26: a key edits the entry, or judges it by what the card found stands at now (`judgePin_staff`,
`judgePin_card`). -/
theorem pinEntryKeysAndOutcome : Obligations.PinEntryKeysAndOutcome := by
  refine ⟨fun code s _ ignored => exec_key_ignored ignored, fun code e s on joined pending => ?_,
    fun e s on pending => ?_, fun _ _ => rfl⟩
  · intro kept refused
    have taken := fun known => exec_key_taken (code := code) on joined pending known
    refine ⟨fun digit room => ?_, fun digit full => ?_, ?_, ?_, ?_⟩
    · refine (taken (by omega)).trans ?_
      simp [State.takeKey, digit, room, State.editEntry, Config.pinTimeoutUs]
    · refine (taken (by omega)).trans ?_
      simp [State.takeKey, digit, Nat.not_lt.mpr full, State.editEntry, Config.pinTimeoutUs]
    · rintro rfl
      exact taken (by omega)
    · rintro rfl empty
      refine (taken (by omega)).trans ?_
      simp [State.takeKey, empty, State.editEntry, Config.pinTimeoutUs]
    · rintro rfl digits
      have runs : exec (.key 10) s = .next (s.judgeEntry e) := by
        refine (taken (by omega)).trans ?_
        simp [State.takeKey, digits]
      suffices facts : EntryClosed (s.judgeEntry e) ∧ _ by
        obtain ⟨⟨entry, reader, decided⟩, rest⟩ := facts
        exact ⟨_, runs, entry, reader, decided, rest⟩
      refine ⟨?_, fun x found listed => ?_, fun n found gone => ?_, fun r found live unbound => ?_,
        fun r c found live bound => ?_⟩
      · cases judged : s.judgePin e with
        | error c => exact (judgeEntry_refused judged).1
        | ok pin =>
          by_cases right : e.digits = pin
          · exact (judgeEntry_right judged right).1
          · exact (judgeEntry_wrong judged right).1
      · have judged := judgePin_staff found listed
        refine ⟨fun locked => ?_, fun free wrong => ?_, fun free right => ?_⟩
        · obtain ⟨-, release, last, -⟩ := judgeEntry_refused (judged.trans (if_pos locked))
          exact ⟨last, release⟩
        · obtain ⟨-, release, last, -, staff, flagged, lockout⟩ :=
            judgeEntry_wrong (judged.trans (if_neg (by simp [free]))) wrong
          obtain ⟨counted, -, locks⟩ := pinOutcome_staff_wrong (s := s.closeEntry) listed free
          rw [found] at last staff lockout
          rw [foundLocked_staff counted] at last
          refine ⟨?_, ?_, fun two => lockout (locks two), release, flagged⟩
          · rw [last]
            simp [refused, State.decision, found]
          · rw [State.staff?, staff]
            exact counted
        · obtain ⟨-, release, last, -, staff⟩ :=
            judgeEntry_right (judged.trans (if_neg (by simp [free]))) right
          rw [found] at staff
          refine ⟨last, ?_, release⟩
          rw [State.staff?, staff]
          exact staff?_modStaff (s := s.closeEntry) (f := fun e => { e with count := 0, waiver := s.newWaiver })
            (fun _ => rfl) listed
      · obtain ⟨-, release, last, occ, -⟩ := judgeEntry_refused (judgePin_noRecord found gone)
        exact ⟨last, release, occ⟩
      · obtain ⟨-, release, last, occ, -⟩ := judgeEntry_refused (judgePin_noCredential found live unbound)
        exact ⟨last, release, occ⟩
      · refine ⟨fun other => ?_, fun same => ?_, fun same none p pin wrong => ?_, fun same none pin => ?_⟩
        · obtain ⟨-, -, last, occ, -⟩ := judgeEntry_refused (judgePin_otherCard found live bound other)
          exact ⟨last, occ⟩
        · obtain ⟨cause, noCause⟩ := judgePin_card found live bound same
          have refuses : ∀ x, s.judgePin e = .error x → (s.judgeEntry e).gtc.last = some (refused x) ∧
              (s.judgeEntry e).gtc.release = s.gtc.release ∧ (s.judgeEntry e).occ = s.occ ∧
              (s.judgeEntry e).hasFlag .gateRefused = true := fun x h => by
            obtain ⟨-, release, last, occ, flagged⟩ := judgeEntry_refused h
            exact ⟨last, release, occ, flagged⟩
          obtain ⟨mode, state, barred, locked, free⟩ := occupancyCause_cases s r c
          simp only [stateBars_iff] at state barred locked free
          refine ⟨fun h => ?_, fun a h => ?_, fun a b h => ?_, fun a b d h => ?_, fun a b d f h => ?_⟩
          · exact refuses _ (cause _ (mode h))
          · exact refuses _ (cause _ (state a h))
          · exact refuses _ (cause _ (barred a b h))
          · exact refuses _ (cause _ (locked a b d h))
          · exact refuses _ ((noCause (free a b d f)).2 h)
        · have judged := ((judgePin_card found live bound same).2 none).1 p pin
          obtain ⟨-, release, last, occ, -, -, lockout⟩ := judgeEntry_wrong judged wrong
          obtain ⟨counted, locks⟩ := pinOutcome_occupancy_wrong (s := s.closeEntry) live bound
            (unlocked_of_noCause none)
          rw [found] at last occ lockout
          rw [foundLocked_occupancy counted rfl] at last
          refine ⟨?_, release, ?_, fun two => lockout (locks two)⟩
          · rw [last]
            simp [refused, State.decision, found]
          · rw [State.occ?, occ]
            exact counted
        · have judged := ((judgePin_card found live bound same).2 none).1 _ pin
          obtain ⟨-, release, last, occ, -⟩ := judgeEntry_right judged rfl
          refine ⟨last, release, ?_⟩
          rw [found] at occ
          have reset : (s.closeEntry.pinOutcome (.occupancy r.number) true).occ? r.number = some { r with
              credential := some { c with count := 0, waiver := s.newWaiver } } :=
            occ?_modCredential (s := s.closeEntry) live bound
          obtain ⟨r', there, credential, alongside⟩ := arriveOnGrant_occ? reset
          refine ⟨r', ?_, credential, fun h => ?_⟩
          · rw [State.occ?, occ]
            exact there
          · rw [alongside h]
  · have runs : exec .pinEntryTimeout s = .next ((s.advanceTo e.timeout).closeEntry.refuseRead e.card e.suspect
        (some e.found) true .timeout) := by
      show Host.Outcome.next (s.event _) = _
      rw [State.event_on on]
      simp only [pending]
    have time := within_advanceTo s e.timeout
    have gtc := advanceTo_gtc s e.timeout
    have pnp : (s.advanceTo e.timeout).pnp = s.pnp := by
      unfold State.advanceTo State.advance
      split <;> rfl
    refine ⟨_, runs, rfl, rfl, ?_, rfl, ?_, ?_, frame_of_runs runs⟩
    · rw [refuseRead_gtc]
      simp [State.decision, State.closeEntry, State.tellReader, Gtc.mode, State.now]
    · rw [refuseRead_release]
      simp [State.closeEntry, State.tellReader]
    · rw [refuseRead_eq]
      simp [State.closeEntry, State.tellReader]

end Sys2Proof.Machine
end

section
/-! PROOFS. Time (R147), the starts (R203 to R206, R127) and the frames PNP refuses itself (R182 to R184, R210). -/

namespace Sys2Proof.Machine

set_option Elab.async false

/-- A step that sets no flag leaves PNP too. -/
theorem Within.quiet {ps : List Part} {s t : State} (h : Within ps s t) (pnp : t.pnp = s.pnp) :
    OnlyChanges ps s t := by
  intro p hp
  by_cases port : p = .pnp
  · subst port
    exact pnp
  · exact h.frame p (by simpa [port] using hp)

/-! ### Time (R147) -/

theorem micros_setMicros (c : Sch) (n : Nat) :
    (c.setMicros n).micros = n % (4294967296 * 1000000) := by
  simp only [Sch.micros, Sch.setMicros, Config.secModulus]
  omega

theorem advance_pos {n : Nat} (s : State) (h : 0 < n) : s.advance n =
    { s with elapsed := s.elapsed + n, sch := s.sch.setMicros (s.sch.micros + n) } := by
  rw [State.advance, if_neg (by omega)]

/-- Settles O3: both clocks move by the same count, the station's reading set from it. -/
theorem timeRunsOnTogether : Obligations.TimeRunsOnTogether := by
  refine ⟨fun s idle => by simp [step, idle], fun n s inRange => ?_, fun n s later => ?_⟩
  · have frame := (within_advance s n).quiet (advance_pnp s n)
    rcases Nat.eq_zero_or_pos n with rfl | later
    · rw [advance_zero, Nat.add_zero, Nat.add_zero, Nat.mod_eq_of_lt inRange]
      exact ⟨rfl, rfl, rfl, rfl, rfl, .refl _ s⟩
    · rw [advance_pos s later] at frame ⊢
      exact ⟨rfl, micros_setMicros _ _, rfl, rfl, rfl, frame⟩
  · rw [advance_pos s later]
    exact ⟨Nat.mod_lt _ (by decide), Nat.mod_lt _ (by decide), Nat.mod_lt _ (by decide)⟩

/-! ### The starts (R203 to R206) -/

theorem cap_start_get (e : Edge) : Cap.start.get e = Capture.start := by
  cases e <;> rfl

/-- Settles O4: a start from nothing, read off its parts. -/
theorem powerUpColdStart : Obligations.PowerUpColdStart := by
  intro inp held agrees s invalid
  have runs : exec (.powerUp inp held agrees) s =
      .next ((s.coldStart inp).keepTransaction s.pnp.transaction.isSome) := by
    show Host.Outcome.next (State.keepTransaction _ (if (held && agrees) = true then _ else _)) = _
    rw [if_neg (by simp [invalid])]
  have posts : ∀ q ∈ (Spc.start s.elapsed).posts, q.state = .good ∧ q.bad = 0 := by
    intro q hq
    obtain ⟨i, _, rfl⟩ := List.mem_map.mp hq
    exact ⟨rfl, rfl⟩
  have door : (Gtc.start inp s.elapsed ⟨0, 0⟩).door.isOpen = inp.doorOpen := by
    cases h : inp.doorOpen <;> simp [Gtc.start, h]
  have pumps : ∀ p, p = (Fdc.cold inp).pump1 ∨ p = (Fdc.cold inp).pump2 →
      p.config = none ∧ p.sale = none ∧ p.askSeq = 0 ∧ p.stray = 0 ∧ p.main = false ∧ p.slow = false := by
    rintro p (rfl | rfl) <;> exact ⟨rfl, rfl, rfl, rfl, rfl, rfl⟩
  exact ⟨_, runs, rfl, rfl, rfl, rfl, rfl, rfl, rfl, rfl, rfl, rfl, rfl, rfl, rfl, rfl, rfl, posts, pumps, rfl, rfl, rfl,
    rfl, rfl, rfl, rfl, rfl, rfl, rfl, rfl, rfl, rfl, door, rfl, rfl, rfl, rfl, cap_start_get, rfl, rfl, rfl, rfl, rfl,
    rfl, rfl, rfl, rfl, rfl, rfl, rfl, rfl, rfl⟩

/-- What a warm start makes of a journal record: a CLOSED one stays, an OPEN one is closed INTERRUPTED, priced
where it had begun and was not yet (R127). -/
theorem interrupt_closed {r : JournalRecord} (now : Time) (closed : r.closed = true) : r.interrupt now = r := by
  simp [JournalRecord.interrupt, closed]

theorem interrupt_open {r : JournalRecord} (now : Time) (opened : r.closed = false) :
    (r.interrupt now).closed = true ∧ (r.interrupt now).flags.interrupted = true ∧
    (r.card.isSome = true → (r.interrupt now).flags.unsettled = true) ∧
    (r.charged.isSome = true → (r.interrupt now).charged = r.charged ∧ (r.interrupt now).endTime = r.endTime) ∧
    (r.charged = none → r.startTime.isSome = true →
      (r.interrupt now).charged = some (min ((r.volume * r.price + 50) / 100) r.preset)) ∧
    (r.charged = none → r.startTime = none → (r.interrupt now).volume = 0 ∧ (r.interrupt now).charged = some 0) := by
  unfold JournalRecord.interrupt
  rw [if_neg (by simp [opened])]
  cases charged : r.charged with
  | some c => simpa [charged] using .inr
  | none =>
    cases started : r.startTime with
    | some t => simpa [JournalRecord.priced, saleAmount] using .inr
    | none => simpa using .inr

/-- PNP as a start leaves it, and with further flags set: every group is disabled, so the line stays undriven. -/
structure PortStarted (k : StartKind) (p : Pnp) : Prop where
  answer : p.answer = Answer.start k
  answerNo : p.answerNo = 0
  ready : p.ready = true
  enables : p.enables = 0
  quiet : p.attention = false

theorem portStarted_flagged {k : StartKind} {p : Pnp} (h : PortStarted k p) (m : BitVec 64) :
    PortStarted k (p.flagged m) where
  answer := h.answer
  answerNo := h.answerNo
  ready := h.ready
  enables := h.enables
  quiet := by simp [Pnp.flagged, Pnp.pendingMask, h.enables]

theorem Within.portStarted {k : StartKind} {ps : List Part} {s t : State} (h : Within ps s t)
    (start : PortStarted k s.pnp) : PortStarted k t.pnp := by
  rcases h.port with same | ⟨m, flagged⟩
  · rwa [same]
  · rw [flagged]
    exact portStarted_flagged start m

theorem hasFlag_setFlagIf_of_ne (s : State) (c : Bool) {f g : Flag} (h : f.bit &&& g.bit = 0) :
    (s.setFlagIf c g).hasFlag f = s.hasFlag f := by
  unfold State.setFlagIf
  split
  · have other : (s.pnp.flags ||| g.bit) &&& f.bit = s.pnp.flags &&& f.bit := by
      rw [BitVec.and_comm] at h
      rw [BitVec.and_or_distrib_right, h]
      exact BitVec.or_zero
    simpa [State.hasFlag] using congrArg (· != 0#64) other
  · rfl

/-- The flags of a warm start: its own, and those of the sales it closed (R127, R203). -/
theorem warmStart_flags (inp : StartInputs) (s : State) :
    ((s.warmStart inp).hasFlag .saleClosed = true ↔ ∃ r ∈ s.fdc.journal, r.closed = false) ∧
    (s.warmStart inp).hasFlag .warmStart = true ∧ (s.warmStart inp).hasFlag .coldStart = false := by
  unfold State.warmStart
  dsimp only
  refine ⟨?_, ?_, ?_⟩
  · rw [hasFlag_setFlagIf_of_ne _ _ (by decide)]
    have opened : (!(s.fdc.journal.filter fun r => !r.closed).isEmpty) = true ↔
        ∃ r ∈ s.fdc.journal, r.closed = false := by
      simp [List.filter_eq_nil_iff]
    rw [← opened]
    unfold State.setFlagIf
    split
    next some => exact iff_of_true (hasFlag_setFlag _ _) some
    next none => exact iff_of_false (by simp [State.hasFlag, State.started, Pnp.start, Flag.bit, Flag.number]) none
  · rw [hasFlag_setFlagIf_of_ne _ _ (by decide), hasFlag_setFlagIf_of_ne _ _ (by decide)]
    exact (by decide : ((Pnp.start .warm).flags &&& Flag.warmStart.bit != 0) = true)
  · rw [hasFlag_setFlagIf_of_ne _ _ (by decide), hasFlag_setFlagIf_of_ne _ _ (by decide)]
    exact (by decide : ((Pnp.start .warm).flags &&& Flag.coldStart.bit != 0) = false)

/-- The state of a warm start before its flags: what is kept put back into a start. -/
def State.restarted (inp : StartInputs) (s : State) : State :=
  { s.started .warm inp (Sch.start s.sch.sec s.sch.ms s.sch.us) with
    occ := { s.occ with notices := [] }
    fdc := { Fdc.cold inp with
      journal := s.fdc.journal.map fun r => r.interrupt s.now
      saleNo := s.fdc.saleNo } }

theorem within_restarted (inp : StartInputs) (s : State) : Within [] (s.restarted inp) (s.warmStart inp) :=
  (within_setFlagIf _ _ _).trans (within_setFlagIf _ _ _)

/-- A RESTART taken and a power-up with a valid backup are warm starts, but for the transaction. -/
theorem exec_warm {c : Instr} {inp : StartInputs} {s : State} (h : c = .powerUp inp true true ∨
    (c = .restart inp ∧ s.powered = true ∧ s.pnp.discards = false)) :
    ∃ x, exec c s = .next { s.warmStart inp with pnp := { (s.warmStart inp).pnp with transaction := x } } := by
  rcases h with rfl | ⟨rfl, on, chosen⟩
  · exact ⟨_, rfl⟩
  · refine ⟨(s.warmStart inp).pnp.transaction, ?_⟩
    show Host.Outcome.next (if (s.pnp.discards || !s.powered) = true then _ else _) = _
    rw [if_neg (by simp [on, chosen])]

/-- Settles O5: a warm start keeps what it puts back (`State.restarted`) and closes the OPEN records
(`interrupt_open`). -/
theorem warmStartRetains : Obligations.WarmStartRetains := by
  intro c inp s how
  obtain ⟨x, runs⟩ := exec_warm how
  obtain ⟨sold, warm, cold⟩ := warmStart_flags inp s
  have flags := within_restarted inp s
  have port : PortStarted .warm (s.warmStart inp).pnp := flags.portStarted ⟨rfl, rfl, rfl, rfl, rfl⟩
  have powered : (s.warmStart inp).powered = true := flags.frame .powered (by decide)
  have kind : (s.warmStart inp).startKind = .warm := flags.frame .startKind (by decide)
  have straps : (s.warmStart inp).straps = ⟨inp.station, inp.slowLine, inp.dock⟩ := flags.frame .straps (by decide)
  have occ : (s.warmStart inp).occ = { s.occ with notices := [] } := flags.frame .occ (by decide)
  have fdc : (s.warmStart inp).fdc = (s.restarted inp).fdc := flags.frame .fdc (by decide)
  have sch : (s.warmStart inp).sch = Sch.start s.sch.sec s.sch.ms s.sch.us := flags.frame .sch (by decide)
  have lif : (s.warmStart inp).lif = Lif.start := flags.frame .lif (by decide)
  have bal : (s.warmStart inp).bal = Bal.start := flags.frame .bal (by decide)
  have pwb : (s.warmStart inp).pwb = Pwb.start := flags.frame .pwb (by decide)
  have spc : (s.warmStart inp).spc = Spc.start s.elapsed := flags.frame .spc (by decide)
  have gtc : (s.warmStart inp).gtc = Gtc.start inp s.elapsed ⟨s.sch.sec, s.sch.ms⟩ := flags.frame .gtc (by decide)
  have pending : (s.warmStart inp).pending = s.pending := flags.frame .pending (by decide)
  have journal : (s.warmStart inp).fdc.journal = s.fdc.journal.map fun r => r.interrupt s.now := by rw [fdc]; rfl
  have numbers : (s.warmStart inp).fdc.journal.map JournalRecord.number = s.fdc.journal.map JournalRecord.number := by
    rw [journal, List.map_map]
    exact List.map_congr_left fun r _ => interrupt_number r _
  have closed : ∀ (i : Nat) (r : JournalRecord), s.fdc.journal[i]? = some r → r.closed = true →
      (s.warmStart inp).fdc.journal[i]? = some r := fun i r at_ closed => by
    rw [journal, List.getElem?_map, at_, Option.map_some, interrupt_closed _ closed]
  have opened : ∀ (i : Nat) (r : JournalRecord), s.fdc.journal[i]? = some r →
      (s.warmStart inp).fdc.journal[i]? = some (r.interrupt s.now) := fun i r at_ => by
    rw [journal, List.getElem?_map, at_, Option.map_some]
  refine ⟨_, runs, powered, kind, straps, (congrArg Occ.records occ :), (congrArg Occ.closures occ :), (congrArg Occ.holdId occ :),
    (congrArg Fdc.saleNo fdc :), (congrArg Sch.sec sch :), (congrArg Sch.ms sch :), numbers, closed,
    fun i r at_ still => ⟨_, opened i r at_, interrupt_open _ still⟩, sold, warm, cold, port.answer, port.answerNo,
    port.ready, port.quiet, (congrArg Lif.state lif :), (congrArg Lif.tx lif :), (congrArg Lif.rx lif :), bal, pwb,
    (congrArg Spc.points spc :), (congrArg Spc.links spc :), (congrArg Spc.heldBack spc :), ?_, ?_, ?_, (congrArg Gtc.staff gtc :),
    (congrArg Gtc.night gtc :), (congrArg Gtc.lockdown gtc :), (congrArg Gtc.release gtc :), (congrArg Sch.places sch :),
    (congrArg Sch.tariffSet sch :), pending⟩
  · simp [State.acknowledges, State.onSegment, lif, Lif.start]
  · exact congrArg (fun f => f.pump1.sale) fdc
  · exact congrArg (fun f => f.pump2.sale) fdc

end Sys2Proof.Machine
end

section
/-! PROOFS. The frames PNP refuses itself (R182 to R184), and the request a frame's bytes spell (R183, R210). -/

namespace Sys2Proof.Machine

set_option Elab.async false

/-! ### What a frame's bytes spell (R183, R210) -/

/-- The codes whose frames spell NULL and RESTART are answered otherwise; every other request has its code. -/
def SpellsCode (inp : StartInputs) (code : Nat) (i : Instr) : Prop :=
  (code = 0 → i = .null) ∧ (code = 3 → i = .restart inp) ∧ (code ≠ 0 → code ≠ 3 → requestCode i = some code)

/-- The codes of the part other than CONFIGURE's. -/
def requestCodes : List Nat :=
  [0, 2, 3, 4, 5, 6, 7, 8, 9, 16, 17, 18, 19, 20, 21, 22, 23, 24, 25, 26, 27, 28, 29, 30, 31, 32, 33, 34,
    40, 41, 42, 43, 44, 48, 49, 50, 51, 52, 53, 54, 56, 57, 58]

/-- A section kind bears on the length of CONFIGURE alone. -/
theorem requestLength_kind {code : Nat} (kind : Nat) (other : code ≠ 1) :
    requestLength code kind = requestLength code 0 := by
  simp only [requestLength, other, if_false]

theorem of_ite_eq {α : Type} {c : Prop} [Decidable c] {x y z : α} (h : (if c then x else y) = z) :
    c ∨ ¬ c ∧ y = z := by
  by_cases hc : c
  · exact .inl hc
  · exact .inr ⟨hc, by rwa [if_neg hc] at h⟩

theorem mem_requestCodes {code len : Nat} (known : requestLength code 0 = some len) (other : code ≠ 1) :
    code ∈ requestCodes := by
  unfold requestLength at known
  obtain bare | ⟨-, known⟩ := of_ite_eq known
  · exact (by decide : [0, 2, 3, 6, 7, 40, 24, 25, 53, 54, 56] ⊆ requestCodes) bare
  obtain one | ⟨-, known⟩ := of_ite_eq known
  · exact absurd one other
  obtain byte | ⟨-, known⟩ := of_ite_eq known
  · exact (by decide : [5, 17, 20, 21, 22, 23, 29, 30, 33, 34, 41, 44, 49, 50, 51, 52, 57] ⊆ requestCodes) byte
  obtain two | ⟨-, known⟩ := of_ite_eq known
  · exact (by decide : [18, 58] ⊆ requestCodes) two
  obtain four | ⟨-, known⟩ := of_ite_eq known
  · exact (by decide : [42, 43] ⊆ requestCodes) four
  obtain five | ⟨-, known⟩ := of_ite_eq known
  · exact (by decide : [27, 31] ⊆ requestCodes) five
  obtain six | ⟨-, known⟩ := of_ite_eq known
  · exact (by decide : [4, 26] ⊆ requestCodes) six
  have single : code = 16 ∨ code = 8 ∨ code = 28 ∨ code = 32 ∨ code = 48 ∨ code = 19 ∨ code = 9 := by
    by_contra none
    simp only [not_or] at none
    simp [none] at known
  rcases single with rfl | rfl | rfl | rfl | rfl | rfl | rfl <;> decide

/-- A CONFIGURE section of a kind that has a length is one of the eight. -/
theorem configureKind_of_length {kind len : Nat} (h : requestLength 1 kind = some len) :
    kind ∈ [1, 2, 3, 4, 5, 6, 7, 8] ∧ 1 ≤ len := by
  obtain bare | ⟨-, h⟩ := of_ite_eq h
  · exact absurd bare (by decide)
  rw [if_pos rfl] at h
  split at h <;> cases h <;> decide

theorem sectionOf_known {ps : List Byte} {len : Nat} (h : requestLength 1 (paramNum ps 0 1) = some len) :
    ∃ i, sectionOf ps = some i ∧ requestCode i = some 1 := by
  have kind := (configureKind_of_length h).1
  unfold sectionOf
  dsimp only
  simp only [List.mem_cons, List.not_mem_nil, or_false] at kind
  rcases kind with k | k | k | k | k | k | k | k <;> rw [k] <;> exact ⟨_, rfl, rfl⟩

/-- Every frame of a code and its length spells a request of that code. -/
theorem requestOf_known {inp : StartInputs} {code kind len : Nat} {ps : List Byte}
    (known : requestLength code kind = some len) (kind_ : code = 1 → kind = paramNum ps 0 1) :
    ∃ i, requestOf inp code ps = some i ∧ SpellsCode inp code i := by
  by_cases one : code = 1
  · subst one
    rw [kind_ rfl] at known
    obtain ⟨i, spelt, code⟩ := sectionOf_known known
    exact ⟨i, spelt, nofun, nofun, fun _ _ => code⟩
  · rw [requestLength_kind kind one] at known
    have listed := mem_requestCodes known one
    simp only [requestCodes, List.mem_cons, List.not_mem_nil, or_false] at listed
    rcases listed with rfl | rfl | rfl | rfl | rfl | rfl | rfl | rfl | rfl | rfl | rfl | rfl | rfl | rfl | rfl | rfl |
      rfl | rfl | rfl | rfl | rfl | rfl | rfl | rfl | rfl | rfl | rfl | rfl | rfl | rfl | rfl | rfl | rfl | rfl | rfl |
      rfl | rfl | rfl | rfl | rfl | rfl | rfl | rfl <;>
      exact ⟨_, rfl, by simp [SpellsCode, requestCode]⟩

/-- The section kind a frame gives: its first parameter byte for CONFIGURE. -/
def frameKind (code : Nat) (ps : List Byte) : Nat := if code = 1 then paramNum ps 0 1 else 0

/-- A frame that passes R183's checks. -/
def Formed (c l : Byte) (ps : List Byte) : Prop :=
  codeKnown c.toNat = true ∧ requestLength c.toNat (frameKind c.toNat ps) = some l.toNat ∧ l.toNat ≤ ps.length

theorem frameMalformed_iff (c l : Byte) (ps : List Byte) :
    frameMalformed c.toNat l.toNat (min 255 ps.length) (frameKind c.toNat ps) = true ↔ ¬ Formed c l ps := by
  have byte := l.isLt
  have enough : min 255 ps.length < l.toNat ↔ ¬ l.toNat ≤ ps.length := by omega
  rw [Formed, ← Decidable.not_iff_not]
  simp [frameMalformed, enough, and_assoc]

theorem decodeRequest_formed (inp : StartInputs) {c l : Byte} {ps : List Byte} (formed : Formed c l ps) :
    decodeRequest inp (c :: l :: ps) = requestOf inp c.toNat (ps.take l.toNat) := by
  have whole := mt (frameMalformed_iff c l ps).mp (not_not.mpr formed)
  exact if_neg whole

theorem decodeRequest_malformed (inp : StartInputs) {c l : Byte} {ps : List Byte} (broken : ¬ Formed c l ps) :
    decodeRequest inp (c :: l :: ps) =
      some (.malformedRequest c.toNat l.toNat (min 255 ps.length) (frameKind c.toNat ps)) :=
  if_pos ((frameMalformed_iff c l ps).mpr broken)

/-- The first parameter byte of a CONFIGURE frame that is formed stands within its length. -/
theorem Formed.first {c l : Byte} {ps : List Byte} (formed : Formed c l ps) (configure : c.toNat = 1) :
    ∃ b rest, ps = b :: rest ∧ 1 ≤ l.toNat := by
  obtain ⟨_, length, enough⟩ := formed
  rw [configure] at length
  have := (configureKind_of_length length).2
  cases ps with
  | nil => simp at enough; omega
  | cons b rest => exact ⟨b, rest, rfl, this⟩

/-- Bytes past the declared length are ignored (R183). -/
theorem Formed.append {c l : Byte} {ps : List Byte} (formed : Formed c l ps) (more : List Byte) :
    Formed c l (ps ++ more) := by
  obtain ⟨known, length, enough⟩ := id formed
  refine ⟨known, ?_, by simp; omega⟩
  have same : frameKind c.toNat (ps ++ more) = frameKind c.toNat ps := by
    unfold frameKind
    split
    next configure =>
      obtain ⟨b, rest, rfl, _⟩ := formed.first configure
      simp [paramNum]
    · rfl
  rwa [same]

theorem Formed.spells (inp : StartInputs) {c l : Byte} {ps : List Byte} (formed : Formed c l ps) :
    ∃ i, decodeRequest inp (c :: l :: ps) = some i ∧ SpellsCode inp c.toNat i := by
  rw [decodeRequest_formed inp formed]
  refine requestOf_known formed.2.1 fun configure => ?_
  obtain ⟨b, rest, rfl, one⟩ := formed.first configure
  obtain ⟨len, hlen⟩ : ∃ len, l.toNat = len + 1 := ⟨l.toNat - 1, by omega⟩
  rw [frameKind, if_pos configure, hlen]
  rfl

/-- Settles O9: PNP's own refusals, and the request that the bytes of a frame spell (`Formed.spells`). -/
theorem framesRefusedBeforeTheirBlocks : Obligations.FramesRefusedBeforeTheirBlocks := by
  refine ⟨fun c code s ofCode on chosen off unlisted => ?_, ⟨fun s on chosen => ?_,
    fun code len received kind s on chosen known broken => ?_, fun code len received kind s on chosen unknown => ?_⟩,
    fun inp c l ps => ?_⟩
  · obtain ⟨ps, body, runs, _⟩ := asks_of_requestCode s ofCode
    rw [runs, State.request_unconfigured on chosen off (by simpa [takenUnconfigured] using unlisted)]
  · show Host.Outcome.next (if (s.pnp.discards || !s.powered) = true then _ else _) = _
    rw [if_neg (by simp [on, chosen])]
  · have malformed : frameMalformed code len received kind = true := by
      simpa [frameMalformed, known] using broken
    simp [exec, execMalformedRequest, on, chosen, malformed, known, State.refuseFrame, State.writeAnswer,
      Pnp.refusedBy, Pnp.answered]
  · have malformed : frameMalformed code len received kind = true := by simp [frameMalformed, unknown]
    simp [exec, execMalformedRequest, on, chosen, malformed, unknown, State.refuseFrame, State.writeAnswer,
      Pnp.refusedBy, Pnp.answered, Reply.refusedWith, u8]
  · have first : (match ps with | b :: _ => b.toNat | [] => 0) = paramNum ps 0 1 := by
      cases ps <;> simp [paramNum, beNat]
    intro code kind formed
    have kindEq : kind = frameKind c.toNat ps := congrArg (fun n => if code = 1 then n else 0) first
    have same : formed ↔ Formed c l ps := by
      show codeKnown code = true ∧ requestLength code kind = some l.toNat ∧ _ ↔ _
      rw [kindEq]
      rfl
    rw [same]
    refine ⟨fun broken => ?_, fun whole => ⟨whole.spells inp, fun more => ?_⟩⟩
    · rw [decodeRequest_malformed inp broken, kindEq]
    · rw [decodeRequest_formed inp whole, decodeRequest_formed inp (whole.append more),
        List.take_append_of_le_length whole.2.2]

end Sys2Proof.Machine
end

section
/-! PROOFS. The CONFIGURE sections (R196 to R198): taken in UNCONFIGURED alone, their values clamped, each written
over its own entry. -/

namespace Sys2Proof.Machine

set_option Elab.async false

/-! ### Taking a section (R196) -/

section
variable {s : State} {ok clamped : Bool} {write : State → State}

/-- A section in range is written and answered with CLAMPED where a value moved. -/
theorem configure_done (taken : Takes 1 s) (off : s.lif.state = .unconfigured) (inRange : ok = true)
    (apart : ∀ p, write { s with pnp := p } = { write s with pnp := p }) : s.configure ok clamped write =
      { write s with pnp := s.pnp.answered 1 ⟨.done, clamped, none, []⟩ } := by
  have here : (s.takeFrame 1).unconfigured = true := by simp [State.unconfigured, off]
  rw [State.configure, State.request_taken taken]
  simp only [here, inRange, Bool.not_true, Bool.false_eq_true, if_false]
  rw [State.takeFrame, apart]
  rfl

theorem configure_range (taken : Takes 1 s) (off : s.lif.state = .unconfigured) (outOfRange : ok = false) :
    s.configure ok clamped write = { s with pnp := s.pnp.answered 1 (.refused .range) } := by
  have here : (s.takeFrame 1).unconfigured = true := by simp [State.unconfigured, off]
  rw [State.configure, State.request_taken taken]
  simp only [here, outOfRange, Bool.not_true, Bool.not_false, Bool.false_eq_true, if_false, if_true]
  rfl

theorem configure_state (taken : Takes 1 s) (on : s.lif.state ≠ .unconfigured) :
    s.configure ok clamped write = { s with pnp := s.pnp.answered 1 (.refused .state) } := by
  have here : (s.takeFrame 1).unconfigured = false := by simpa [State.unconfigured] using on
  rw [State.configure, State.request_taken taken]
  simp only [here, Bool.not_false, if_true]
  rfl

end

/-! ### Ranges (R196) -/

theorem clamp_eq_self_iff {lo hi n : Nat} (order : lo ≤ hi) : clamp lo hi n = n ↔ lo ≤ n ∧ n ≤ hi := by
  unfold clamp
  omega

theorem clamp_zero (hi n : Nat) : clamp 0 hi n = min hi n := by
  simp [clamp]

/-- A yes/no byte moved into its range says yes where it is not 0 (R210). -/
theorem clamp_one_beq (n : Nat) : (clamp 0 1 n == 1) = decide (1 ≤ n) := by
  rw [Bool.eq_iff_iff, beq_iff_eq, decide_eq_true_iff, clamp]
  omega

theorem bne_eq_false_iff {α : Type} [DecidableEq α] {a b : α} : (a != b) = false ↔ a = b := by
  simp

/-- The berth classes a class mask names (R1, R210). -/
theorem classMask_bits (n : Nat) :
    (clamp 0 3 n % 2 == 1) = decide (min 3 n = 1 ∨ min 3 n = 3) ∧
    (clamp 0 3 n / 2 % 2 == 1) = decide (min 3 n = 2 ∨ min 3 n = 3) := by
  rw [clamp_zero]
  have small : min 3 n ≤ 3 := Nat.min_le_left _ _
  generalize min 3 n = k at small
  interval_cases k <;> decide

/-! ### The sections -/

/-- Settles O11: the STATION section is clamped value by value, and only its settings and capture modes written. -/
theorem configureStationTakesClampedValues : Obligations.ConfigureStationTakesClampedValues := by
  intro v s taken off
  have runs : exec (.configureStation v) s = .next { State.writeStation (clampStation v) s with
      pnp := s.pnp.answered 1 ⟨.done, clampStation v != v, none, []⟩ } :=
    congrArg Host.Outcome.next (configure_done taken off rfl fun _ => rfl)
  have unmoved : clampStation v = v ↔ settingsOf (clampStation v) = settingsOf v := by
    refine ⟨congrArg settingsOf, fun same => ?_⟩
    simp only [settingsOf, Settings.mk.injEq] at same
    obtain ⟨window, bidStep, fender, keel, limit, warn, hold, overdue, grace, share, keep, pledge, period, fault⟩ := same
    have modes : (clampStation v).captureModes = v.captureModes := rfl
    cases h : clampStation v
    cases v
    simp_all
  refine ⟨_, runs, ?_, fun e i listed => ?_, ?_, rfl, frame_of_runs runs⟩
  · simp only [State.writeStation, settingsOf, clampStation, clamp_zero, leastWindow, clampInt, Config.ceilingMax]
    rfl
  · simp only [List.mem_cons, Prod.mk.injEq, List.not_mem_nil, or_false] at listed
    rcases listed with ⟨rfl, rfl⟩ | ⟨rfl, rfl⟩ | ⟨rfl, rfl⟩ | ⟨rfl, rfl⟩ | ⟨rfl, rfl⟩ | ⟨rfl, rfl⟩ | ⟨rfl, rfl⟩ |
      ⟨rfl, rfl⟩ <;> rfl
  · exact bne_eq_false_iff.trans unmoved

theorem exec_configureBerth {v : BerthSection} {s : State} (taken : Takes 1 s) (off : s.lif.state = .unconfigured)
    (low : 1 ≤ v.berth) (high : v.berth ≤ 48) : exec (.configureBerth v) s =
      .next { State.writeBerth (clampBerth v) s with
        pnp := s.pnp.answered 1 ⟨.done, clampBerth v != v, none, []⟩ } :=
  congrArg Host.Outcome.next (configure_done taken off (by simp [within, low, high]) fun _ => rfl)

theorem clampBerth_eq_self_iff (v : BerthSection) : clampBerth v = v ↔
    20 ≤ v.length ∧ v.length ≤ 800 ∧ 15 ≤ v.width ∧ v.width ≤ 200 ∧ v.depth ≤ 100 ∧ v.point ≤ 32 ∧
      v.classMask ≤ 3 ∧ v.reserved ≤ 1 := by
  cases v
  simp [clampBerth, clamp_eq_self_iff, and_assoc]

theorem berthOf_clampBerth (v : BerthSection) : berthOf (clampBerth v) =
    { number := v.berth
      length := max 20 (min 800 v.length)
      width := max 15 (min 200 v.width)
      depth := min 100 v.depth
      point := if v.point = 0 then none else some (min 32 v.point)
      visitor := decide (min 3 v.classMask = 1 ∨ min 3 v.classMask = 3)
      member := decide (min 3 v.classMask = 2 ∨ min 3 v.classMask = 3)
      reserved := decide (1 ≤ v.reserved)
      mark := none } := by
  obtain ⟨visitor, member⟩ := classMask_bits v.classMask
  have point : (clamp 0 32 v.point = 0) ↔ v.point = 0 := by
    unfold clamp
    omega
  simp only [berthOf, clampBerth, visitor, member, clamp_one_beq, point]
  simp only [clamp_zero]
  rfl

theorem configureBerth_written {v : BerthSection} {s : State} (taken : Takes 1 s) (off : s.lif.state = .unconfigured)
    (low : 1 ≤ v.berth) (high : v.berth ≤ 48) :
    ∃ t, exec (.configureBerth v) s = .next t ∧ t.berth? v.berth = some (berthOf (clampBerth v)) ∧
      (∀ n, n ≠ v.berth → t.berth? n = s.berth? n) ∧
      (t.pnp.answer.clamped = false ↔ clampBerth v = v) ∧
      t.pnp.answer.result = .done ∧ OnlyChanges [.pnp, .bal] s t ∧
      t.bal.rounds = s.bal.rounds ∧ t.bal.result = s.bal.result ∧ t.bal.await = s.bal.await := by
  have runs := exec_configureBerth taken off low high
  exact ⟨_, runs, lookupKey_insertKey Berth.number (berthOf (clampBerth v)) _,
    fun n other => lookupKey_insertKey_ne Berth.number (berthOf (clampBerth v)) _ other, bne_eq_false_iff, rfl,
    frame_of_runs runs, rfl, rfl, rfl⟩

theorem clampPoint_eq_self_iff (v : PointSection) :
    clampPoint v = v ↔ v.maxRating ≤ 3 ∧ v.three ≤ 1 ∧ v.tap ≤ 1 := by
  cases v
  simp [clampPoint, clamp_eq_self_iff]

theorem clampPump_eq_self_iff (v : PumpSection) : clampPump v = v ↔
    1 ≤ v.grade ∧ v.grade ≤ 2 ∧ 100 ≤ v.pulses ∧ v.pulses ≤ 2000 ∧ 1 ≤ v.price ∧ v.price ≤ 999 ∧ v.load ≤ 32 ∧
      30 ≤ v.authTimeout ∧ v.authTimeout ≤ 600 ∧ 60 ≤ v.suspendLimit ∧ v.suspendLimit ≤ 900 := by
  cases v
  simp [clampPump, clamp_eq_self_iff, and_assoc]

theorem pumpOf_clampPump (v : PumpSection) : pumpOf (clampPump v) =
    { grade := if v.grade ≤ 1 then .diesel else .petrol
      pulses := max 100 (min 2000 v.pulses)
      price := max 1 (min 999 v.price)
      load := min 32 v.load
      authTimeout := max 30 (min 600 v.authTimeout)
      suspendLimit := max 60 (min 900 v.suspendLimit) } := by
  have grade : (max 1 (min 2 v.grade) = 1) ↔ v.grade ≤ 1 := by omega
  simp only [pumpOf, clampPump, clamp, grade, Nat.zero_max]

/-- A PUMP section of a pump of the dock describes that pump, and any other is kept among the stray ones. -/
theorem writePump_pumps (v : PumpSection) (s : State) :
    (v.pump = 1 → s.writePump v = { s with fdc := { s.fdc with
      pump1 := { s.fdc.pump1 with config := some (pumpOf v) } } }) ∧
    (v.pump = 2 → s.writePump v = { s with fdc := { s.fdc with
      pump2 := { s.fdc.pump2 with config := some (pumpOf v) } } }) ∧
    (v.pump ≠ 1 → v.pump ≠ 2 → s.writePump v = { s with fdc := { s.fdc with
      straySections := insertKey PumpSection.pump v s.fdc.straySections } }) := by
  unfold State.writePump
  refine ⟨fun h => by simp [h, within, State.modPump], fun h => by simp [h, within, State.modPump], fun h k => ?_⟩
  have stray : within 1 2 v.pump = false := by simp [within]; omega
  simp [stray]

theorem exec_configurePump {v : PumpSection} {s : State} (taken : Takes 1 s) (off : s.lif.state = .unconfigured) :
    exec (.configurePump v) s = .next { State.writePump (clampPump v) s with
      pnp := s.pnp.answered 1 ⟨.done, clampPump v != v, none, []⟩ } := by
  refine congrArg Host.Outcome.next (configure_done taken off rfl fun p => ?_)
  unfold State.writePump State.modPump
  split
  · split
    · rfl
    · split <;> rfl
  · rfl

theorem mem_insertKey_self {α : Type} (key : α → Nat) (x : α) (l : List α) : x ∈ insertKey key x l :=
  (lookupKey_some (lookupKey_insertKey key x l)).1

theorem configurePump_written {v : PumpSection} {s : State} (taken : Takes 1 s)
    (off : s.lif.state = .unconfigured) : ∃ t, exec (.configurePump v) s = .next t ∧
      (v.pump = 1 ∨ v.pump = 2 → ∃ p q, s.pump? v.pump = some p ∧ t.pump? v.pump = some q ∧
        q.config = some (pumpOf (clampPump v)) ∧ q = { p with config := q.config }) ∧
      (v.pump ≠ 1 → v.pump ≠ 2 → (∃ w ∈ t.fdc.straySections, w.pump = v.pump)) ∧
      (v.pump ≠ 1 → t.fdc.pump1 = s.fdc.pump1) ∧ (v.pump ≠ 2 → t.fdc.pump2 = s.fdc.pump2) ∧
      (t.pnp.answer.clamped = false ↔ clampPump v = v) ∧
      t.pnp.answer.result = .done ∧ OnlyChanges [.pnp, .fdc] s t ∧ t.fdc.journal = s.fdc.journal := by
  have runs := exec_configurePump (v := v) taken off
  have frame := frame_of_runs runs
  obtain ⟨one, two, stray⟩ := writePump_pumps (clampPump v) s
  refine ⟨_, runs, ?_, fun a b => ?_, fun a => ?_, fun b => ?_, bne_eq_false_iff, rfl, frame, ?_⟩
  · rintro (h | h)
    · rw [one h]
      exact ⟨s.fdc.pump1, _, by rw [h]; rfl, by rw [h]; rfl, rfl, rfl⟩
    · rw [two h]
      exact ⟨s.fdc.pump2, _, by rw [h]; rfl, by rw [h]; rfl, rfl, rfl⟩
  · rw [stray a b]
    exact ⟨_, mem_insertKey_self _ _ _, rfl⟩
  all_goals
    by_cases h : v.pump = 1
    · simp_all [one h]
    · by_cases k : v.pump = 2
      · simp_all [two k]
      · simp_all [stray h k]

theorem exec_configureGate {v : GateSection} {s : State} (taken : Takes 1 s) (off : s.lif.state = .unconfigured) :
    exec (.configureGate v) s = .next { s with
      gtc := { s.gtc with
        openTime := max 2 (min 30 v.openTime)
        heldLimit := max 10 (min 300 v.heldLimit)
        waiverLength := min 12 v.waiverLength
        arriveOnEntry := decide (1 ≤ v.arriveOnEntry) }
      pnp := s.pnp.answered 1 ⟨.done, decide (v.openTime < 2 ∨ 30 < v.openTime ∨ v.heldLimit < 10 ∨
        300 < v.heldLimit ∨ 12 < v.waiverLength ∨ 1 < v.arriveOnEntry), none, []⟩ } := by
  have moved : (clampGate v != v) = decide (v.openTime < 2 ∨ 30 < v.openTime ∨ v.heldLimit < 10 ∨
      300 < v.heldLimit ∨ 12 < v.waiverLength ∨ 1 < v.arriveOnEntry) := by
    rw [Bool.eq_iff_iff, bne_iff_ne, decide_eq_true_iff]
    cases v
    simp [clampGate, clamp_eq_self_iff]
    omega
  refine congrArg Host.Outcome.next ((configure_done taken off rfl fun _ => rfl).trans ?_)
  rw [moved]
  simp only [State.writeGate, clampGate, clamp_one_beq]
  simp only [clamp_zero]
  rfl

theorem pinDigits_some {pin : PinField} (low : 4 ≤ pin.count) (high : pin.count ≤ 6) (halves : ∀ d ∈ pin.halves, d ≤ 9) :
    pinDigits pin = some (pin.halves.take pin.count) := by
  have inRange : (within 4 6 pin.count && pin.halves.all (· ≤ 9)) = true := by
    simpa [within, low, high] using halves
  rw [pinDigits, if_pos inRange]

theorem pinDigits_none {pin : PinField} (out : pin.count < 4 ∨ 6 < pin.count ∨ ∃ d ∈ pin.halves, 9 < d) :
    pinDigits pin = none := by
  refine if_neg fun inRange => ?_
  simp only [within, Bool.and_eq_true, decide_eq_true_eq, List.all_eq_true] at inRange
  obtain ⟨⟨low, high⟩, halves⟩ := inRange
  obtain h | h | ⟨d, hd, h⟩ := out
  · omega
  · omega
  · have := halves d hd
    omega

theorem clampCycle_eq_self_iff (n : Nat) : clampCycle n = n ↔ n = 0 ∨ 60 ≤ n ∧ n ≤ 604800 := by
  unfold clampCycle clamp
  split <;> omega

theorem scheduleKindOf_listed {n : Nat} {k : ScheduleKind}
    (listed : (n, k) ∈ [(1, ScheduleKind.nightOn), (2, .nightOff), (3, .lockdownOn), (4, .lockdownOff),
      (5, .tariff1), (6, .tariff2), (7, .dayRoll)]) : scheduleKindOf n = some k := by
  simp only [List.mem_cons, Prod.mk.injEq, List.not_mem_nil, or_false] at listed
  rcases listed with ⟨rfl, rfl⟩ | ⟨rfl, rfl⟩ | ⟨rfl, rfl⟩ | ⟨rfl, rfl⟩ | ⟨rfl, rfl⟩ | ⟨rfl, rfl⟩ | ⟨rfl, rfl⟩ <;> rfl

/-- Settles O12: each section in range is written over the entry of its number. -/
theorem configureSectionsAreWritten : Obligations.ConfigureSectionsAreWritten := by
  refine ⟨fun s taken off => ⟨fun v low high => ?_, fun v low high => ?_, fun set energy water known => ?_,
    fun v => ?_⟩, fun s taken off => ⟨fun v => ?_, fun staff card pin low high noZero wide few many halves => ?_,
    fun v k low high listed => ?_⟩⟩
  · rw [← berthOf_clampBerth, ← clampBerth_eq_self_iff]
    exact configureBerth_written taken off low high
  · have runs : exec (.configurePoint v) s = .next { State.writePoint (clampPoint v) s with
        pnp := s.pnp.answered 1 ⟨.done, clampPoint v != v, none, []⟩ } :=
      congrArg Host.Outcome.next (configure_done taken off (by simp [within, low, high]) fun _ => rfl)
    refine ⟨_, _, runs, lookupKey_insertKey Point.number (pointOf (clampPoint v)) _, clamp_zero _ _, ?_, ?_, rfl, rfl,
      rfl, rfl, rfl, rfl, fun n other => lookupKey_insertKey_ne Point.number (pointOf (clampPoint v)) _ other,
      bne_eq_false_iff.trans (clampPoint_eq_self_iff v), rfl, frame_of_runs runs, rfl, rfl, rfl⟩
    · exact clamp_one_beq v.three
    · exact clamp_one_beq v.tap
  · have moved : (clamp 0 9999 energy != energy || clamp 0 9999 water != water) =
        decide (9999 < energy ∨ 9999 < water) := by
      rw [Bool.eq_iff_iff, decide_eq_true_iff]
      simp [clamp]
    refine congrArg Host.Outcome.next ((configure_done taken off ?_ fun p => ?_).trans ?_)
    · rcases known with rfl | rfl <;> rfl
    · rfl
    · rw [moved]
      simp only [clamp_zero]
      rcases known with rfl | rfl <;> rfl
  · rw [← pumpOf_clampPump, ← clampPump_eq_self_iff]
    exact configurePump_written taken off
  · exact exec_configureGate taken off
  · have digits := pinDigits_some few many halves
    have runs : exec (.configureStaff staff card pin) s =
        .next { State.writeStaff staff card ((pinDigits pin).getD []) s with
          pnp := s.pnp.answered 1 ⟨.done, false, none, []⟩ } :=
      congrArg Host.Outcome.next (configure_done taken off
        (by simp [within, low, high, cardOk, noZero, Config.cardMax, wide, digits]) fun _ => rfl)
    rw [digits, Option.getD_some] at runs
    refine ⟨_, runs, ?_, fun n other => ?_, rfl, rfl, frame_of_runs runs⟩
    · exact lookupKey_insertKey Staff.number (Staff.mk staff card (pin.halves.take pin.count) 0 false none) _
    · exact lookupKey_insertKey_ne Staff.number (Staff.mk staff card (pin.halves.take pin.count) 0 false none) _ other
  · have kind := scheduleKindOf_listed listed
    have runs : exec (.configureSchedule v) s =
        .next { State.writeSchedule v ((scheduleKindOf v.kind).getD .dayRoll) s with
          pnp := s.pnp.answered 1 ⟨.done, clampCycle v.cycle != v.cycle || clamp 0 1 v.check != v.check, none, []⟩ } :=
      congrArg Host.Outcome.next (configure_done taken off (by simp [within, low, high, kind]) fun _ => rfl)
    rw [kind, Option.getD_some] at runs
    refine ⟨_, runs, ?_, fun n other => ?_, ?_, rfl, rfl, frame_of_runs runs⟩
    · rw [← clamp_one_beq]
      exact lookupKey_insertKey ScheduleEntry.place
        (ScheduleEntry.mk v.place k v.start (clampCycle v.cycle) (clamp 0 1 v.check == 1) .idle none) _
    · exact lookupKey_insertKey_ne ScheduleEntry.place
        (ScheduleEntry.mk v.place k v.start (clampCycle v.cycle) (clamp 0 1 v.check == 1) .idle none) _ other
    · have still := clampCycle_eq_self_iff v.cycle
      have yes := clamp_eq_self_iff (n := v.check) (Nat.zero_le 1)
      show (_ || _) = false ↔ _
      rw [Bool.or_eq_false_iff, bne_eq_false_iff, bne_eq_false_iff, still, yes]
      simp

/-- Settles O13: outside UNCONFIGURED every section is refused STATE (`configure_state`), in it one out of its range
RANGE (`configure_range`). -/
theorem configureRefusals : Obligations.ConfigureRefusals := by
  refine ⟨fun c s ofCode taken on => ?_, fun c s taken off out => ?_⟩
  · cases c with
    | configureStation | configureBerth | configurePoint | configureTariff | configurePump | configureGate
    | configureStaff | configureSchedule => exact congrArg Host.Outcome.next (configure_state taken on)
    | _ => simp [requestCode] at ofCode
  · rcases out with ⟨v, rfl, out⟩ | ⟨v, rfl, out⟩ | ⟨set, energy, water, rfl, out⟩ | ⟨staff, card, pin, rfl, out⟩ |
      ⟨v, rfl, out⟩
    · refine congrArg Host.Outcome.next (configure_range taken off ?_)
      simp [within]
      omega
    · refine congrArg Host.Outcome.next (configure_range taken off ?_)
      simp [within]
      omega
    · refine congrArg Host.Outcome.next (configure_range taken off ?_)
      simp [within]
      omega
    · refine congrArg Host.Outcome.next (configure_range taken off ?_)
      have parts : (staff = 0 ∨ 8 < staff) ∨ (card = 0 ∨ 1099511627775 < card) ∨
          (pin.count < 4 ∨ 6 < pin.count ∨ ∃ d ∈ pin.halves, 9 < d) := by tauto
      rcases parts with h | h | h
      · have : within 1 8 staff = false := by simp [within]; omega
        simp [this]
      · have : cardOk card = false := by
          rw [cardOk, within, Bool.and_eq_false_iff, decide_eq_false_iff_not, decide_eq_false_iff_not, Config.cardMax]
          omega
        simp [this]
      · simp [pinDigits_none h]
    · refine congrArg Host.Outcome.next (configure_range taken off ?_)
      have parts : (v.place = 0 ∨ 12 < v.place) ∨ (v.kind = 0 ∨ 7 < v.kind) := by tauto
      rcases parts with h | h
      · have : within 1 12 v.place = false := by simp [within]; omega
        simp [this]
      · have : scheduleKindOf v.kind = none := by
          unfold scheduleKindOf
          split <;> first | omega | rfl
        simp [this]

end Sys2Proof.Machine
end

section
/-! PROOFS. Station time and the schedule table (R147 to R156): an entry is found by its place, so a walk of the
table changes each entry once and in its place. -/

namespace Sys2Proof.Machine

set_option Elab.async false

/-! ### Entries by their places -/

/-- The entry of a place, in a table with no place twice, is changed where it stands. -/
theorem modifyKey_middle {α : Type} {key : α → Nat} (f : α → α) {done rest : List α} {e : α}
    (apart : ((done ++ e :: rest).map key).Nodup) :
    modifyKey key (key e) f (done ++ e :: rest) = done ++ f e :: rest := by
  rw [List.map_append, List.nodup_append', List.map_cons, List.nodup_cons] at apart
  obtain ⟨_, ⟨later, _⟩, earlier⟩ := apart
  have others : ∀ l : List α, key e ∉ l.map key → l.map (fun x => if key x = key e then f x else x) = l :=
    fun l absent => by
      conv_rhs => rw [← List.map_id l]
      refine List.map_congr_left fun x hx => ?_
      rw [if_neg fun same => absent (List.mem_map.mpr ⟨x, hx, same⟩)]
      rfl
  have first : key e ∉ done.map key := fun h => earlier h (by simp)
  rw [modifyKey, List.map_append, List.map_cons, others done first, others rest later, if_pos rfl]

/-- The entry with a next due, or EXPIRED where none can come (R153, R154, R156). -/
def ScheduleEntry.dueAt (e : ScheduleEntry) (d : Nat) : ScheduleEntry :=
  if d < 4294967296 then { e with state := .armed, due := some d } else { e with state := .expired, due := none }

/-- The entry spent. -/
def ScheduleEntry.spent (e : ScheduleEntry) : ScheduleEntry := { e with state := .expired, due := none }

section
variable (s : State)

theorem setDue_eq (place d : Nat) : s.setDue place d = { s with
    sch := { s.sch with places := modifyKey ScheduleEntry.place place (fun e => e.dueAt d) s.sch.places }
    pnp := if d < 4294967296 then s.pnp else s.pnp.flagged Flag.scheduleExpired.bit } := by
  unfold State.setDue ScheduleEntry.dueAt Config.secModulus
  split <;> rfl

theorem expire_eq (place : Nat) : s.expire place = { s with
    sch := { s.sch with places := modifyKey ScheduleEntry.place place ScheduleEntry.spent s.sch.places } } := rfl

end

/-! ### Due entries and the wrap (R147, R154, R156) -/

theorem ScheduleEntry.dueAt_place (e : ScheduleEntry) (d : Nat) : (e.dueAt d).place = e.place := by
  unfold ScheduleEntry.dueAt
  split <;> rfl

theorem exec_scheduleDue {s : State} {place d : Nat} {e : ScheduleEntry} (on : s.powered = true)
    (found : lookupKey ScheduleEntry.place place s.sch.places = some e) (armed : e.state = .armed)
    (due : e.due = some d) : exec (.scheduleDue place) s = .next (s.dueEntry e d) := by
  show Host.Outcome.next (s.event _) = _
  rw [State.event_on on]
  simp only [found, armed, due]

/-- What the firing of a due entry leaves (R154). -/
theorem dueEntry_eq (s : State) (e : ScheduleEntry) (d : Nat) : s.dueEntry e d =
    { s.advanceToTime ⟨d, 0⟩ with
      sch := { (s.advanceToTime ⟨d, 0⟩).sch with
        firings := (s.advanceToTime ⟨d, 0⟩).sch.firings ++ [e.kind]
        places := modifyKey ScheduleEntry.place e.place
          (fun x => if e.cycle = 0 then x.spent else x.dueAt (d + e.cycle)) (s.advanceToTime ⟨d, 0⟩).sch.places }
      pnp := if e.cycle ≠ 0 ∧ 4294967296 ≤ d + e.cycle then s.pnp.flagged Flag.scheduleExpired.bit else s.pnp } := by
  have pnp : (s.advanceToTime ⟨d, 0⟩).pnp = s.pnp := advance_pnp s _
  unfold State.dueEntry
  generalize s.advanceToTime ⟨d, 0⟩ = u at pnp
  by_cases cycle : e.cycle = 0
  · simp [cycle, expire_eq, State.fire, ← pnp]
  · by_cases late : d + e.cycle < 4294967296
    · simp [cycle, late, setDue_eq, State.fire, ← pnp, Nat.not_le.mpr late]
    · simp [cycle, late, setDue_eq, State.fire, ← pnp, Nat.not_lt.mp late]

theorem advance_schedule (s : State) (n : Nat) : (s.advance n).sch.places = s.sch.places ∧
    (s.advance n).sch.firings = s.sch.firings ∧ (s.advance n).sch.tariffSet = s.sch.tariffSet := by
  unfold State.advance
  split <;> exact ⟨rfl, rfl, rfl⟩

theorem now_advanceToTime {s : State} {d : Nat} (sound : ClockSound s) (small : d < 4294967296)
    (later : s.sch.micros ≤ d * 1000000) : (s.advanceToTime ⟨d, 0⟩).now = ⟨d, 0⟩ := by
  obtain ⟨ms, us⟩ := sound
  have target : (⟨d, 0⟩ : Time).toMs * 1000 = d * 1000000 := by simp only [Time.toMs]; omega
  unfold State.advanceToTime
  rw [target]
  rcases Nat.eq_or_lt_of_le later with same | before
  · rw [same, Nat.sub_self]
    simp only [Sch.micros] at same
    have sec : s.sch.sec = d := by omega
    have rest : s.sch.ms = 0 := by omega
    show (⟨s.sch.sec, s.sch.ms⟩ : Time) = _
    rw [sec, rest]
  · rw [advance_pos s (by omega)]
    have sum : s.sch.micros + (d * 1000000 - s.sch.micros) = d * 1000000 := by omega
    simp only [State.now, Sch.setMicros, sum, Config.secModulus, Time.mk.injEq]
    omega

/-- Settles O18: a due entry by its place (`dueEntry_eq`), and the wrap as time running on. -/
theorem dueEntriesFireAndTheWrapFiresNone : Obligations.DueEntriesFireAndTheWrapFiresNone := by
  refine ⟨fun place d e s on found armed due => ?_, fun s inRange => ?_⟩
  · have runs := exec_scheduleDue on found armed due
    obtain ⟨places, firings, tariff⟩ := advance_schedule s ((⟨d, 0⟩ : Time).toMs * 1000 - s.sch.micros)
    have time : ClockSound s → d < 4294967296 → s.sch.micros ≤ d * 1000000 → (s.dueEntry e d).now = ⟨d, 0⟩ :=
      fun sound small later => by
        rw [dueEntry_eq]
        exact now_advanceToTime sound small later
    have frame := frame_of_runs runs
    obtain rfl : e.place = place := (lookupKey_some found).2
    have keeps : ∀ x : ScheduleEntry,
        (if e.cycle = 0 then x.spent else x.dueAt (d + e.cycle)).place = x.place := fun x => by
      split
      · rfl
      · exact x.dueAt_place _
    refine ⟨_, runs, ?_, ?_, fun n other => ?_, time, ?_, ?_, frame⟩
    · rw [dueEntry_eq]
      exact congrArg (· ++ [e.kind]) firings
    · rw [dueEntry_eq]
      show lookupKey _ _ (modifyKey _ _ _ (s.advance _).sch.places) = _
      rw [lookupKey_modifyKey keeps, if_pos rfl, places, found, Option.map_some]
      by_cases cycle : e.cycle = 0
      · simp [cycle, ScheduleEntry.spent]
      · by_cases late : d + e.cycle < 4294967296
        · simp [cycle, ScheduleEntry.dueAt, late, Nat.not_le.mpr late, ← armed]
        · simp [cycle, ScheduleEntry.dueAt, late, Nat.not_lt.mp late]
    · rw [dueEntry_eq]
      show lookupKey _ _ (modifyKey _ _ _ (s.advance _).sch.places) = _
      rw [lookupKey_modifyKey keeps, if_neg other, places]
    · rw [dueEntry_eq]
      exact tariff
    · rw [dueEntry_eq]
  · have later : 0 < 4294967296 * 1000000 - s.sch.micros := by omega
    have runs : exec .clockWrap s = .next (s.advance (4294967296 * 1000000 - s.sch.micros)) := rfl
    have frame := frame_of_runs runs
    rw [advance_pos s later] at runs frame
    have sum : s.sch.micros + (4294967296 * 1000000 - s.sch.micros) = 4294967296 * 1000000 := by omega
    refine ⟨_, runs, ?_, ?_, rfl, rfl, rfl, rfl, frame⟩
    · simp [State.now, Sch.setMicros, sum, Config.secModulus]
    · simp [Sch.setMicros, sum]

/-! ### Firings and the tariff set (R151, R155) -/

theorem takeFirst_erase {α : Type} [DecidableEq α] (x : α) (l : List α) :
    takeFirst (· == x) l = if x ∈ l then some (x, l.erase x) else none := by
  induction l with
  | nil => simp [takeFirst]
  | cons y l ih =>
    unfold takeFirst
    by_cases same : y = x
    · simp [same]
    · have differ : (y == x) = false := by simpa using same
      have erased : (y :: l).erase x = y :: l.erase x := List.erase_cons_tail (by simp [same])
      simp only [differ, Bool.false_eq_true, if_false, ih, List.mem_cons, Ne.symm same, false_or, erased]
      split <;> rfl

theorem takeFiring_eq (s : State) (k : ScheduleKind) :
    s.takeFiring k = { s with sch := { s.sch with firings := s.sch.firings.erase k } } := by
  unfold State.takeFiring
  rw [takeFirst_erase]
  by_cases waits : k ∈ s.sch.firings
  · simp only [waits, if_true]
  · simp only [waits, if_false, List.erase_of_not_mem waits]

theorem takeAndFire_on {s : State} (on : s.powered = true) (k : ScheduleKind) (act : State → State) :
    s.takeAndFire k act = act { s with sch := { s.sch with firings := s.sch.firings.erase k } } := by
  rw [State.takeAndFire, State.event_on on, takeFiring_eq]

/-- Settles O19: a firing taken leaves the list (`takeFiring_eq`) and acts on its mark or tariff set. -/
theorem firingsSetWhatTheyName : Obligations.FiringsSetWhatTheyName := by
  refine ⟨fun s on => ?_, fun set s taken => ⟨fun known => ?_, fun unknown => ?_⟩⟩
  · refine ⟨?_, ?_, ?_, ?_, ?_, ?_⟩ <;> exact congrArg Host.Outcome.next (takeAndFire_on on _ _)
  · have listed : within 1 2 set = true := by simp [within]; omega
    show Host.Outcome.next (s.request 5 _) = _
    rw [State.request_taken taken]
    simp only [listed, if_true]
    rfl
  · have unlisted : within 1 2 set = false := by simp [within]; omega
    show Host.Outcome.next (s.request 5 _) = _
    rw [State.request_taken taken]
    simp only [unlisted, Bool.false_eq_true, if_false]
    rfl

/-! ### The steps of the clock (R148 to R150, R156) -/

/-- An ARMED entry whose next due lies in a forward step. -/
def ScheduleEntry.passed (e : ScheduleEntry) (old new : Nat) : Bool :=
  e.state == .armed && (e.due.any fun d => decide (old < d * 1000) && decide (d * 1000 ≤ new))

/-- A passed entry moved to the first time of its sequence later than the new time, or spent (R152, R156). -/
def ScheduleEntry.moved (e : ScheduleEntry) (new : Nat) : ScheduleEntry :=
  if e.cycle = 0 then e.spent else e.dueAt (firstAfter e.start e.cycle new)

/-- A forward step's work on one entry. -/
def ScheduleEntry.stepped (e : ScheduleEntry) (old new : Nat) : ScheduleEntry :=
  if e.passed old new then e.moved new else e

theorem ScheduleEntry.moved_place (e : ScheduleEntry) (new : Nat) : (e.moved new).place = e.place := by
  unfold ScheduleEntry.moved
  split
  · rfl
  · exact e.dueAt_place _

/-- Past an entry a forward step fires it and moves it, or leaves all as it is. -/
theorem passEntry_eq (old : Nat) (s : State) (e : ScheduleEntry) : State.passEntry old s e =
    if e.passed old s.now.toMs then { s with
      sch := { s.sch with
        firings := s.sch.firings ++ [e.kind]
        places := modifyKey ScheduleEntry.place e.place (fun x => if e.cycle = 0 then x.spent
          else x.dueAt (firstAfter e.start e.cycle s.now.toMs)) s.sch.places }
      pnp := if e.cycle ≠ 0 ∧ 4294967296 ≤ firstAfter e.start e.cycle s.now.toMs
        then s.pnp.flagged Flag.scheduleExpired.bit else s.pnp }
    else s := by
  have still : (s.fire e.kind).now = s.now := rfl
  unfold State.passEntry ScheduleEntry.passed
  cases state : e.state with
  | idle => simp
  | expired => simp
  | armed =>
    cases due : e.due with
    | none => simp
    | some d =>
      by_cases inStep : old < d * 1000 ∧ d * 1000 ≤ s.now.toMs
      · by_cases cycle : e.cycle = 0
        · simp [inStep, cycle, expire_eq, State.fire]
        · by_cases late : firstAfter e.start e.cycle s.now.toMs < 4294967296
          · simp [inStep, cycle, still, setDue_eq, late, Nat.not_le.mpr late]
            simp [State.fire]
          · simp [inStep, cycle, still, setDue_eq, late, Nat.not_lt.mp late]
            simp [State.fire]
      · simp [inStep]

end Sys2Proof.Machine
end

section
/-! PROOFS. The clock set by SET CLOCK and TIME (R148 to R150), and the forward step (R43, R156): a walk of the
schedule table that passes each entry once, and the lapse of every hold it passes. -/

namespace Sys2Proof.Machine

set_option Elab.async false

/-! ### The walk of the schedule table (R156) -/

theorem passEntry_passed {old : Nat} {s : State} {e : ScheduleEntry} {done rest : List ScheduleEntry}
    (places : s.sch.places = done ++ e :: rest) (apart : ((done ++ e :: rest).map ScheduleEntry.place).Nodup)
    (passed : e.passed old s.now.toMs = true) :
    (State.passEntry old s e).sch = { s.sch with
      places := done ++ e.moved s.now.toMs :: rest
      firings := s.sch.firings ++ [e.kind] } ∧
    (e.cycle ≠ 0 → 4294967296 ≤ firstAfter e.start e.cycle s.now.toMs →
      (State.passEntry old s e).hasFlag .scheduleExpired = true) := by
  rw [passEntry_eq, if_pos passed]
  refine ⟨?_, fun cycle late => ?_⟩
  · simp only [places, modifyKey_middle (key := ScheduleEntry.place) _ apart]
    rfl
  · rw [if_pos ⟨cycle, late⟩]
    exact hasFlag_setFlag s .scheduleExpired

theorem passEntry_other {old : Nat} {s : State} {e : ScheduleEntry} (passed : e.passed old s.now.toMs = false) :
    State.passEntry old s e = s := by
  rw [passEntry_eq, if_neg (by simp [passed])]

/-- The walk over the rest of the table, the entries before it done. -/
theorem foldl_passEntry (old new : Nat) (l : List ScheduleEntry) : ∀ (done : List ScheduleEntry) (s : State),
    s.sch.places = done ++ l → ((done ++ l).map ScheduleEntry.place).Nodup → s.now.toMs = new →
    (l.foldl (State.passEntry old) s).sch = { s.sch with
      places := done ++ l.map fun e => e.stepped old new
      firings := s.sch.firings ++ (l.filter fun e => e.passed old new).map ScheduleEntry.kind } ∧
    ∀ e ∈ l, e.passed old new = true → e.cycle ≠ 0 → 4294967296 ≤ firstAfter e.start e.cycle new →
      (l.foldl (State.passEntry old) s).hasFlag .scheduleExpired = true := by
  induction l with
  | nil =>
    intro done s places _ _
    simp [← places]
  | cons e rest ih =>
    intro done s places apart now
    subst now
    rw [List.foldl_cons]
    cases passed : e.passed old s.now.toMs with
    | true =>
      obtain ⟨sch, flagged⟩ := passEntry_passed places apart passed
      have now : (State.passEntry old s e).now = s.now := by
        simp only [State.now, sch]
      have apart' : (((done ++ [e.moved s.now.toMs]) ++ rest).map ScheduleEntry.place).Nodup := by
        simpa [ScheduleEntry.moved_place] using apart
      obtain ⟨rest_, late⟩ := ih (done ++ [e.moved s.now.toMs]) (State.passEntry old s e)
        (by rw [sch]; simp) apart' (by rw [now])
      refine ⟨?_, fun x hx past cycle none => ?_⟩
      · rw [rest_, sch]
        simp [passed, ScheduleEntry.stepped]
      · rcases List.mem_cons.mp hx with rfl | hx
        · exact (Within.foldl _ (within_passEntry · old) rest _).hasFlag (flagged cycle none)
        · exact late x hx past cycle none
    | false =>
      rw [passEntry_other passed]
      obtain ⟨rest_, late⟩ := ih (done ++ [e]) s (by simpa using places) (by simpa using apart) rfl
      refine ⟨?_, fun x hx past cycle none => ?_⟩
      · rw [rest_]
        simp [passed, ScheduleEntry.stepped]
      · rcases List.mem_cons.mp hx with rfl | hx
        · exact absurd past (by simp [passed])
        · exact late x hx past cycle none

/-- The first time of an entry's sequence later than the new time (R156). -/
theorem firstAfter_eq {start cycle new : Nat} (cycle0 : cycle ≠ 0) : firstAfter start cycle new =
    if new < start * 1000 then start else start + ((new - start * 1000) / (cycle * 1000) + 1) * cycle := by
  unfold firstAfter firstNotBefore
  by_cases before : new < start * 1000
  · rw [if_pos (by omega), if_pos before]
  · rw [if_neg (by omega), if_neg before]
    have rounded : (new + 1 - start * 1000 + cycle * 1000 - 1) / (cycle * 1000) =
        (new - start * 1000) / (cycle * 1000) + 1 := by
      rw [← Nat.add_div_right _ (by omega)]
      congr 1
      omega
    rw [rounded]

/-! ### The lapse of holds (R43) -/

/-- The holds of the table, each with the number of its record. -/
def State.heldPairs (s : State) : List (Nat × Hold) :=
  s.occ.records.flatMap fun r => r.holds.map fun h => (r.number, h)

theorem mem_heldPairs {s : State} {n : Nat} {h : Hold} :
    (n, h) ∈ s.heldPairs ↔ ∃ r ∈ s.occ.records, r.number = n ∧ h ∈ r.holds := by
  simp only [State.heldPairs, List.mem_flatMap, List.mem_map, Prod.mk.injEq]
  constructor
  · rintro ⟨r, hr, x, hx, rfl, rfl⟩
    exact ⟨r, hr, rfl, hx⟩
  · rintro ⟨r, hr, rfl, hx⟩
    exact ⟨r, hr, h, hx, rfl, rfl⟩

theorem heldPairs_of_records {s t : State} (h : ∀ r ∈ t.occ.records, r ∈ s.occ.records) :
    t.heldPairs ⊆ s.heldPairs := by
  rintro ⟨n, x⟩ hx
  obtain ⟨r, hr, number, held⟩ := mem_heldPairs.mp hx
  exact mem_heldPairs.mpr ⟨r, h r hr, number, held⟩

theorem heldPairs_closeOcc (s : State) (n : Nat) (c : CloseReason) : (s.closeOcc n c).heldPairs ⊆ s.heldPairs := by
  unfold State.closeOcc
  split
  · exact List.Subset.refl _
  · exact heldPairs_of_records fun r hr => List.mem_of_mem_filter hr

theorem heldPairs_testRemoval (s : State) (n : Nat) : (s.testRemoval n).heldPairs ⊆ s.heldPairs := by
  unfold State.testRemoval
  split
  · exact List.Subset.refl _
  · split
    · split
      · exact heldPairs_closeOcc _ _ _
      · exact List.Subset.refl _
    · split
      · split
        · exact heldPairs_closeOcc _ _ _
        · exact List.Subset.refl _
      · exact List.Subset.refl _

theorem mem_heldPairs_dropHold {s : State} {n id m : Nat} {h : Hold} (held : (m, h) ∈ (s.dropHold n id).heldPairs) :
    (m, h) ∈ s.heldPairs ∧ ¬ (m = n ∧ h.id = id) := by
  obtain ⟨r, hr, number, hold⟩ := mem_heldPairs.mp held
  obtain ⟨r, there, rfl⟩ := List.mem_map.mp hr
  by_cases same : r.number = n
  · rw [if_pos same] at number hold
    obtain ⟨hold, other⟩ := List.mem_filter.mp hold
    exact ⟨mem_heldPairs.mpr ⟨r, there, number, hold⟩, fun ⟨_, id⟩ => by simp [id] at other⟩
  · rw [if_neg same] at number hold
    exact ⟨mem_heldPairs.mpr ⟨r, there, number, hold⟩, fun ⟨here, _⟩ => same (number.trans here)⟩

theorem mem_heldPairs_lapseHold {s : State} {n id m : Nat} {h : Hold}
    (held : (m, h) ∈ (s.lapseHold n id).heldPairs) : (m, h) ∈ s.heldPairs ∧ ¬ (m = n ∧ h.id = id) :=
  mem_heldPairs_dropHold (heldPairs_testRemoval ((s.dropHold n id).setFlag .holdLapsed) n held)

theorem mem_heldPairs_foldl {l : List (Nat × Nat)} : ∀ {s : State} {m : Nat} {h : Hold},
    (m, h) ∈ (l.foldl (fun s x => s.lapseHold x.1 x.2) s).heldPairs → (m, h) ∈ s.heldPairs ∧ (m, h.id) ∉ l := by
  induction l with
  | nil => exact fun held => ⟨held, List.not_mem_nil⟩
  | cons x l ih =>
    intro s m h held
    obtain ⟨kept, later⟩ := ih held
    obtain ⟨before, other⟩ := mem_heldPairs_lapseHold kept
    refine ⟨before, fun listed => ?_⟩
    rcases List.mem_cons.mp listed with here | listed
    · exact other ⟨congrArg Prod.fst here, congrArg Prod.snd here⟩
    · exact later listed

/-- After the lapse no hold of the table has an expiry the clock has reached. -/
theorem lapseDue_holds (s : State) : ∀ r ∈ s.lapseDue.occ.records, ∀ h ∈ r.holds, s.now.toMs < h.expiry.toMs := by
  intro r hr h hh
  by_contra due
  obtain ⟨held, spared⟩ := mem_heldPairs_foldl (mem_heldPairs.mpr ⟨r, hr, rfl, hh⟩)
  obtain ⟨r', hr', number, hh'⟩ := mem_heldPairs.mp held
  refine spared (List.mem_flatMap.mpr ⟨r', hr', List.mem_map.mpr ⟨h, ?_, by rw [number]⟩⟩)
  exact List.mem_filter.mpr ⟨hh', by simpa using due⟩

/-! ### The step (R150, R156) -/

/-- The clock with the values given, before a forward step is applied. -/
def State.clocked (sec ms : Nat) (s : State) : State := { s with sch := { s.sch with sec := sec, ms := ms, us := 0 } }

/-- A step that is not forward sets the clock alone. -/
theorem setClock_back {s : State} {sec ms : Nat} (back : sec * 1000 + ms ≤ s.now.toMs) :
    s.setClock sec ms = (s.clocked sec ms).setFlag .clockSet := by
  have still : ¬ s.now.toMs < (⟨sec, ms⟩ : Time).toMs := Nat.not_lt.mpr back
  exact congrArg (State.setFlag .clockSet) (if_neg still)

/-- A forward step passes the schedule table, and past UNCONFIGURED the holds. -/
theorem setClock_forward {s : State} {sec ms : Nat} (forward : s.now.toMs < sec * 1000 + ms) :
    s.setClock sec ms = (if s.unconfigured then s.sch.places.foldl (State.passEntry s.now.toMs) (s.clocked sec ms)
      else (s.sch.places.foldl (State.passEntry s.now.toMs) (s.clocked sec ms)).lapseDue).setFlag .clockSet := by
  have moves : s.now.toMs < (⟨sec, ms⟩ : Time).toMs := forward
  have state : (s.sch.places.foldl (State.passEntry s.now.toMs) (s.clocked sec ms)).unconfigured = s.unconfigured := by
    have line := (Within.foldl _ (within_passEntry · s.now.toMs) s.sch.places (s.clocked sec ms)).lif
    simp only [State.unconfigured, line]
    rfl
  rw [← state]
  exact congrArg (State.setFlag .clockSet) (if_pos moves)

theorem passEntry_clock (old : Nat) (s : State) (e : ScheduleEntry) :
    (State.passEntry old s e).now = s.now ∧ (State.passEntry old s e).sch.us = s.sch.us ∧
    (State.passEntry old s e).sch.tariffSet = s.sch.tariffSet := by
  rw [passEntry_eq]
  split <;> exact ⟨rfl, rfl, rfl⟩

theorem foldl_passEntry_clock (old : Nat) (l : List ScheduleEntry) (s : State) :
    (l.foldl (State.passEntry old) s).now = s.now ∧ (l.foldl (State.passEntry old) s).sch.us = s.sch.us ∧
    (l.foldl (State.passEntry old) s).sch.tariffSet = s.sch.tariffSet := by
  induction l generalizing s with
  | nil => exact ⟨rfl, rfl, rfl⟩
  | cons e l ih =>
    obtain ⟨now, us, tariff⟩ := ih (State.passEntry old s e)
    obtain ⟨now', us', tariff'⟩ := passEntry_clock old s e
    exact ⟨now.trans now', us.trans us', tariff.trans tariff'⟩

/-- The clock shows the values it was set to, whatever the step. -/
theorem setClock_clock (s : State) (sec ms : Nat) : (s.setClock sec ms).now = ⟨sec, ms⟩ ∧
    (s.setClock sec ms).sch.us = 0 ∧ (s.setClock sec ms).sch.tariffSet = s.sch.tariffSet ∧
    (s.setClock sec ms).hasFlag .clockSet = true := by
  suffices clock : (s.setClock sec ms).now = ⟨sec, ms⟩ ∧ (s.setClock sec ms).sch.us = 0 ∧
      (s.setClock sec ms).sch.tariffSet = s.sch.tariffSet from
    ⟨clock.1, clock.2.1, clock.2.2, hasFlag_setFlag _ _⟩
  rcases Nat.lt_or_ge s.now.toMs (sec * 1000 + ms) with forward | back
  · obtain ⟨now, us, tariff⟩ := foldl_passEntry_clock s.now.toMs s.sch.places (s.clocked sec ms)
    rw [setClock_forward forward]
    generalize s.sch.places.foldl (State.passEntry s.now.toMs) (s.clocked sec ms) = v at now us tariff
    have sch : (if s.unconfigured then v else v.lapseDue).sch = v.sch := by
      split
      · rfl
      · exact (within_lapseDue v).frame .sch (by decide)
    unfold State.now at now ⊢
    rw [setFlag_sch, sch]
    exact ⟨now, us, tariff⟩
  · rw [setClock_back back]
    exact ⟨rfl, rfl, rfl⟩

theorem exec_setClock {s : State} {sec ms : Nat} (taken : Takes 4 s) (known : ms ≤ 999) : exec (.setClock sec ms) s =
    .next (((s.takeFrame 4).setClock sec ms).writeAnswer 4 (.done [⟨4, sec⟩, ⟨2, ms⟩])) := by
  show Host.Outcome.next (s.request 4 _) = _
  rw [State.request_taken taken]
  simp only [Nat.not_lt.mpr known, if_false]
  rfl

theorem exec_timeFrame {s u : State} {src : RxSource} {f : Frame} {note : Option Nat} (on : s.powered = true)
    (took : s.takeRx 18 src = some (f, note, u)) : exec (.timeFrame src) s =
      .next (if f.sender = 0 ∧ f.num 4 2 ≤ 999 then u.setClock (f.num 0 4) (f.num 4 2) else u) := by
  show Host.Outcome.next (s.frameEvent 18 src _) = _
  rw [State.frameEvent_taken on took]
  simp

/-- Settles O16: the clock by the values set (`setClock_clock`), and a step that is not forward (`setClock_back`). -/
theorem settingTheClock : Obligations.SettingTheClock := by
  refine ⟨fun sec ms s taken => ⟨fun known => ?_, fun above => ?_⟩, fun src f note s u on took => ⟨?_, ?_⟩⟩
  · have runs := exec_setClock (sec := sec) taken known
    obtain ⟨now, us, tariff, flag⟩ := setClock_clock (s.takeFrame 4) sec ms
    refine ⟨_, runs, now, us, tariff, flag, fun back => ?_, rfl, rfl, frame_of_runs runs⟩
    rw [setClock_back (s := s.takeFrame 4) back]
    exact ⟨rfl, rfl, rfl, rfl, rfl⟩
  · show Host.Outcome.next (s.request 4 _) = _
    rw [State.request_taken taken]
    simp only [above, if_true]
    rfl
  · rintro ⟨station, known⟩
    have runs := exec_timeFrame on took
    rw [if_pos ⟨station, known⟩] at runs
    obtain ⟨now, us, tariff, flag⟩ := setClock_clock u (f.num 0 4) (f.num 4 2)
    have received := State.takeRx_frame took
    have sch : u.sch = s.sch := received.frame .sch (by decide)
    have occ : u.occ = s.occ := received.frame .occ (by decide)
    have spc : u.spc = s.spc := received.frame .spc (by decide)
    rw [sch] at tariff
    refine ⟨_, runs, now, us, flag, tariff, (within_setClock u _ _).lif, fun back => ?_, frame_of_runs runs⟩
    have here : u.now = s.now := by simp only [State.now, sch]
    rw [setClock_back (by rw [here]; exact back), ← sch, ← occ, ← spc]
    exact ⟨rfl, rfl, rfl, rfl⟩
  · intro other
    rw [exec_timeFrame on took, if_neg (by rintro ⟨h, k⟩; rcases other with h' | h' <;> omega)]

/-- What a forward step leaves of the schedule table and the holds. -/
theorem setClock_forward_says {s : State} {sec ms : Nat} (forward : s.now.toMs < sec * 1000 + ms)
    (apart : (s.sch.places.map ScheduleEntry.place).Nodup) :
    (s.setClock sec ms).sch.places = s.sch.places.map (fun e => e.stepped s.now.toMs (sec * 1000 + ms)) ∧
    (s.setClock sec ms).sch.firings = s.sch.firings ++
      (s.sch.places.filter fun e => e.passed s.now.toMs (sec * 1000 + ms)).map ScheduleEntry.kind ∧
    (∀ e ∈ s.sch.places, e.passed s.now.toMs (sec * 1000 + ms) = true → e.cycle ≠ 0 →
      4294967296 ≤ firstAfter e.start e.cycle (sec * 1000 + ms) →
      (s.setClock sec ms).hasFlag .scheduleExpired = true) ∧
    (s.lif.state ≠ .unconfigured → ∀ r ∈ (s.setClock sec ms).occ.records, ∀ h ∈ r.holds,
      sec * 1000 + ms < h.expiry.toMs) := by
  obtain ⟨walked, late⟩ := foldl_passEntry s.now.toMs (sec * 1000 + ms) s.sch.places [] (s.clocked sec ms) rfl apart rfl
  obtain ⟨now, -, -⟩ := foldl_passEntry_clock s.now.toMs s.sch.places (s.clocked sec ms)
  rw [setClock_forward forward]
  generalize s.sch.places.foldl (State.passEntry s.now.toMs) (s.clocked sec ms) = v at walked late now
  have holds := within_lapseDue v
  have sch : (if s.unconfigured then v else v.lapseDue).sch = v.sch := by
    split
    · rfl
    · exact holds.frame .sch (by decide)
  rw [setFlag_sch, sch, walked]
  refine ⟨rfl, rfl, fun e he passed cycle none => (within_setFlag _ _).hasFlag ?_, fun on => ?_⟩
  · have flagged := late e he passed cycle none
    split
    · exact flagged
    · exact holds.hasFlag flagged
  · have past : ¬ s.unconfigured = true := by simpa [State.unconfigured] using on
    rw [setFlag_occ, if_neg past]
    have spared := lapseDue_holds v
    rw [now] at spared
    exact spared

/-- SET CLOCK and a TIME of station 0 are the same step, in a state with the clock, the tables and the line state of
the one before it. -/
theorem exec_stepsClock {c : Instr} {sec ms : Nat} {s : State} (known : ms ≤ 999)
    (how : (c = .setClock sec ms ∧ Takes 4 s) ∨ (∃ src f note u, c = .timeFrame src ∧ s.powered = true ∧
      s.takeRx 18 src = some (f, note, u) ∧ f.sender = 0 ∧ f.num 0 4 = sec ∧ f.num 4 2 = ms)) :
    ∃ u t : State, exec c s = .next t ∧ u.sch = s.sch ∧ u.lif.state = s.lif.state ∧ t.sch = (u.setClock sec ms).sch ∧
      t.occ = (u.setClock sec ms).occ ∧ t.pnp.flags = (u.setClock sec ms).pnp.flags := by
  rcases how with ⟨rfl, taken⟩ | ⟨src, f, note, u, rfl, on, took, station, rfl, rfl⟩
  · exact ⟨s.takeFrame 4, _, exec_setClock taken known, rfl, rfl, rfl, rfl, rfl⟩
  · have received := State.takeRx_frame took
    refine ⟨u, _, (exec_timeFrame on took).trans (by rw [if_pos ⟨station, known⟩]),
      received.frame .sch (by decide), ?_, rfl, rfl, rfl⟩
    exact (kept_takeRx took).line.state

/-- Settles O17: the walk of the table (`setClock_forward_says`), entry by entry. -/
theorem forwardStepFiresWhatItPasses : Obligations.ForwardStepFiresWhatItPasses := by
  intro c sec ms s how known forward apart new next passed
  obtain ⟨u, t, runs, sch, line, tsch, tocc, flags⟩ := exec_stepsClock known how
  have here : u.now = s.now := by simp only [State.now, sch]
  obtain ⟨places, firings, expired, holds⟩ := setClock_forward_says (s := u) (by rw [here]; exact forward)
    (by rw [sch]; exact apart)
  obtain ⟨now, -⟩ := setClock_clock u sec ms
  have passes : ∀ e : ScheduleEntry, e.passed s.now.toMs new = true ↔ passed e := fun e => by
    show _ ↔ e.state = .armed ∧ ∃ d, e.due = some d ∧ s.now.toMs < d * 1000 ∧ d * 1000 ≤ new
    simp [ScheduleEntry.passed, Option.any_eq_true]
  have nextDue : ∀ e : ScheduleEntry, e.cycle ≠ 0 → firstAfter e.start e.cycle new = next e := fun e cycle =>
    firstAfter_eq cycle
  rw [← tsch, here, sch] at places firings
  rw [here, sch] at expired
  rw [line, ← tocc] at holds
  have nowT : t.now = ⟨sec, ms⟩ := by
    rw [← now]
    simp only [State.now, tsch]
  refine ⟨t, runs, nowT, ⟨_, List.filter_sublist, firings, fun e he => ?_⟩, by rw [places, List.length_map],
    fun i e at_ => ?_, fun on => ?_⟩
  · rw [List.mem_filter, ← passes]
    exact and_iff_right he
  · have stepped : t.sch.places[i]? = some (e.stepped s.now.toMs new) := by
      rw [places, List.getElem?_map, at_]
      rfl
    rw [← passes]
    refine ⟨fun other => ?_, fun past => ⟨fun spent => ?_, fun cycle soon => ?_, fun cycle late => ?_⟩⟩
    · rw [stepped, ScheduleEntry.stepped, if_neg other]
    · rw [stepped, ScheduleEntry.stepped, if_pos past, ScheduleEntry.moved]
      by_cases cycle : e.cycle = 0
      · rw [if_pos cycle]
        rfl
      · rw [if_neg cycle, nextDue e cycle, ScheduleEntry.dueAt, if_neg (by omega)]
    · rw [stepped, ScheduleEntry.stepped, if_pos past, ScheduleEntry.moved, if_neg cycle, nextDue e cycle,
        ScheduleEntry.dueAt, if_pos soon]
      have armed : e.state = .armed := ((passes e).mp past).1
      rw [← armed]
    · have flagged := expired e (List.mem_of_getElem? at_) past cycle (by rw [nextDue e cycle]; exact late)
      unfold State.hasFlag at flagged ⊢
      rwa [flags]
  · rw [nowT]
    exact holds on

end Sys2Proof.Machine
end

section
/-! PROOFS. The requests that read (R187): each answers from the state as it stands, its data field by field. -/

namespace Sys2Proof.Machine

set_option Elab.async false

/-! ### Fields of an answer (R211) -/

theorem yn_eq (b : Bool) : yn b = [⟨1, b.toNat⟩] := rfl

theorem optD_some (zero d : List Datum) : optD zero (some d) = [⟨1, 1⟩] ++ d := rfl

theorem listD_eq (l : List (List Datum)) : listD l = [⟨1, l.length⟩] ++ l.flatten := rfl

/-- The time left to an optional moment, field by field. -/
def leftFields (now : Nat) (x : Option Nat) : List Datum :=
  match x with
  | some d => [⟨1, 1⟩, ⟨4, ((d - now) / 1000000 : Nat)⟩, ⟨2, ((d - now) / 1000 % 1000 : Nat)⟩]
  | none => [⟨1, 0⟩, ⟨4, 0⟩, ⟨2, 0⟩]

theorem leftOpt_eq (now : Nat) (x : Option Nat) : leftOpt now x = leftFields now x := by
  cases x <;> rfl

/-! ### READ STATION (R187) -/

section
variable (s : State)

/-- The data rate's field. -/
def State.rateField (s : State) : Datum := ⟨1, if s.straps.slowLine = true then 2 else 1⟩

/-- The station state's field. -/
def State.stateField (s : State) : Datum :=
  ⟨1, match s.lif.state with | .unconfigured => 1 | .joining => 2 | .onLine => 3 | .lineOff => 4⟩

theorem stateField_eq : u8 s.lif.state.code = [s.stateField] := by
  unfold State.stateField
  cases s.lif.state <;> rfl

theorem rateField_eq : u8 (if s.straps.slowLine then 2 else 1) = [s.rateField] := by
  unfold State.rateField
  cases s.straps.slowLine <;> rfl

theorem strapsD_eq : s.strapsD = [⟨1, s.straps.station⟩, s.rateField, ⟨1, s.straps.dock.toNat⟩,
    ⟨1, match s.startKind with | .cold => 1 | .warm => 2⟩, s.stateField] := by
  rw [State.strapsD, rateField_eq, stateField_eq]
  cases s.startKind <;> rfl

theorem captureModeD_eq (c : Capture) : captureModeD c = [⟨1, if c.single = true then 2 else 1⟩] := by
  unfold captureModeD
  cases c.single <;> rfl

/-- A schedule place's fields. -/
def placeFields (x : Option ScheduleEntry) : List Datum :=
  match x with
  | some e => [⟨1, e.kind.code⟩, ⟨4, e.start⟩, ⟨4, e.cycle⟩, ⟨1, e.check.toNat⟩, ⟨1, e.state.code⟩] ++
      (match e.due with | some d => [Datum.mk 1 1, ⟨4, d⟩] | none => [⟨1, 0⟩, ⟨4, 0⟩])
  | none => [⟨1, 0⟩, ⟨4, 0⟩, ⟨4, 0⟩, ⟨1, 0⟩, ⟨1, 0⟩, ⟨1, 0⟩, ⟨4, 0⟩]

theorem placeD_eq (x : Option ScheduleEntry) : placeD x = placeFields x := by
  cases x with
  | none => rfl
  | some e => cases h : e.due <;> simp [placeD, placeFields, h, u8, u32, yn, optD]

theorem timeD_eq : s.timeD_ = [⟨4, s.sch.sec⟩, ⟨2, s.sch.ms⟩, ⟨2, ((s.sch.sec / 86400 : Nat) : Int)⟩,
    ⟨4, ((s.sch.sec % 86400 : Nat) : Int)⟩, ⟨1, s.sch.tariffSet⟩] ++
    (List.range 12).flatMap fun i => placeFields (lookupKey ScheduleEntry.place (i + 1) s.sch.places) := by
  unfold State.timeD_
  simp only [placeD_eq]
  rfl

/-- The PIN entry's fields before its time left. -/
def entryFields (x : Option PinEntry) : List Datum :=
  match x with
  | some e => [Datum.mk 1 2, ⟨1, e.digits.length⟩]
  | none => [⟨1, 1⟩, ⟨1, 0⟩]

/-- The last decision's fields. -/
def lastFields (x : Option Decision) : List Datum :=
  match x with
  | some d => Datum.mk 1 1 :: Decision.datum d
  | none => ⟨1, 0⟩ :: Decision.zero

/-- The fields of the time since the open edge. -/
def openedFields (now : Nat) (x : Option Nat) : List Datum :=
  match x with
  | some o => [Datum.mk 1 1, ⟨4, ((now - o) / 1000000 : Nat)⟩, ⟨2, ((now - o) / 1000 % 1000 : Nat)⟩]
  | none => [⟨1, 0⟩, ⟨4, 0⟩, ⟨2, 0⟩]

theorem lastFields_eq (x : Option Decision) : optD Decision.zero (x.map Decision.datum) = lastFields x := by
  cases x <;> rfl

theorem openedFields_eq (now : Nat) (x : Option Nat) :
    optD (timeD ⟨0, 0⟩) (x.map fun t => leftD t now) = openedFields now x := by
  cases x <;> rfl

theorem gateD_eq : s.gateD = [⟨1, s.gtc.mode.code⟩, ⟨1, s.gtc.night.toNat⟩, ⟨1, s.gtc.lockdown.toNat⟩] ++
    entryFields s.gtc.entry ++ leftFields s.elapsed (s.gtc.entry.map PinEntry.timeout) ++ lastFields s.gtc.last ++
    [⟨1, if s.gtc.release.isSome = true then 2 else 1⟩] ++ leftFields s.elapsed s.gtc.release ++
    [⟨1, if s.gtc.door.isOpen = true then 1 else 2⟩] ++ openedFields s.elapsed s.gtc.door.openedAt ++
    [⟨1, s.gtc.door.held.toNat⟩, ⟨1, s.gtc.staff.length⟩] ++ s.gtc.staff.flatMap Staff.datum := by
  have staff : s.gtc.staff.flatMap Staff.datum = (s.gtc.staff.map Staff.datum).flatten := List.flatMap_def
  have released : u8 (if s.gtc.release.isSome then 2 else 1) =
      [⟨1, if s.gtc.release.isSome = true then 2 else 1⟩] := by cases s.gtc.release <;> rfl
  have door : u8 (if s.gtc.door.isOpen then 1 else 2) = [⟨1, if s.gtc.door.isOpen = true then 1 else 2⟩] := by
    cases s.gtc.door.isOpen <;> rfl
  unfold State.gateD
  dsimp only
  rw [leftOpt_eq, leftOpt_eq, lastFields_eq, openedFields_eq, listD_eq, staff, released, door, List.length_map]
  cases s.gtc.entry <;> simp [u8, yn_eq, entryFields]

theorem txFields_eq (f : TxFrame) : u8 f.frame.kind ++ u32 (f.frame.keyField 0 19) ++
    yn (s.lif.attempt == some f.serial) = [⟨1, f.frame.kind⟩, ⟨4, f.frame.keyField 0 19⟩,
      ⟨1, (decide (s.lif.attempt = some f.serial)).toNat⟩] := by
  have same : (s.lif.attempt == some f.serial) = decide (s.lif.attempt = some f.serial) := by
    rw [Bool.eq_iff_iff, beq_iff_eq, decide_eq_true_iff]
  rw [same]
  rfl

theorem lineD_eq : s.lineD = [s.stateField, ⟨1, s.lif.failed⟩, ⟨1, s.lif.tx.length⟩] ++
    (s.lif.tx.flatMap fun f => [⟨1, f.frame.kind⟩, ⟨4, f.frame.keyField 0 19⟩,
      ⟨1, (decide (s.lif.attempt = some f.serial)).toNat⟩]) ++
    [⟨1, s.lif.rx.length⟩, ⟨2, s.lif.dropped⟩,
      ⟨1, if s.lif.state = .joining then (if s.lif.listenEnd.isSome = true then 2 else 1) else 0⟩] ++
    leftFields s.elapsed s.lif.listenEnd ++ leftFields s.elapsed s.lif.silenceEnd ++ [s.rateField] := by
  have listens : u8 (if s.lif.state = .joining then (if s.lif.listenEnd.isSome then 2 else 1) else 0) =
      [⟨1, if s.lif.state = .joining then (if s.lif.listenEnd.isSome = true then 2 else 1) else 0⟩] := by
    unfold u8
    split
    · split <;> rfl
    · rfl
  unfold State.lineD
  dsimp only
  simp only [stateField_eq, rateField_eq, leftOpt_eq, listD_eq, txFields_eq, listens, List.flatMap_def, List.length_map]
  simp [u8, u16]

theorem settingsD_eq : s.settingsD = [⟨1, s.settings.window⟩, ⟨1, s.settings.bidStep⟩, ⟨1, s.settings.fender⟩,
    ⟨1, s.settings.keel⟩, ⟨4, s.settings.creditLimit⟩, ⟨4, s.settings.warnLevel⟩, ⟨1, s.settings.holdLifetime⟩,
    ⟨1, s.settings.overdueGrace⟩, ⟨1, s.settings.departureGrace⟩, ⟨2, s.settings.baseShare⟩,
    ⟨1, s.settings.keepMargin⟩, ⟨1, s.settings.pledgeTimeout⟩, ⟨2, s.settings.recallPeriod⟩,
    ⟨2, s.settings.faultGrace⟩] ++
    ([Edge.doorOpen, .doorShut, .lift1, .hang1, .lift2, .hang2, .press, .released].map fun e =>
      Datum.mk 1 (if (s.cap.get e).single = true then 2 else 1)) := by
  unfold State.settingsD
  dsimp only
  simp only [captureModeD_eq, u8, u16, u32, i32, List.cons_append, List.nil_append,
    List.map_cons, List.map_nil]
  rfl

theorem countsD_eq : s.countsD = [⟨1, s.occ.records.length⟩, ⟨1, s.occ.closures.length⟩,
    ⟨1, ((64 - s.fdc.journal.length : Nat) : Int)⟩, ⟨1, s.bal.rounds.length⟩,
    ⟨1, s.bal.berths.length⟩, ⟨1, s.spc.points.length⟩,
    ⟨1, ((s.fdc.pump1.config.isSome.toNat + s.fdc.pump2.config.isSome.toNat : Nat) : Int)⟩,
    ⟨1, s.fdc.emergency.toNat⟩] := rfl

end

/-! ### READ LOANS (R73) -/

/-- The fields of a loan place. -/
def loanFields (now : Nat) (x : Option Loan) : List Datum :=
  match x with
  | some l => [⟨1, l.partner⟩, ⟨1, if l.lent = true then 2 else 1⟩, ⟨2, l.amount⟩,
      ⟨1, match l.state with | .pledged => 1 | .active => 2 | .recalled => 3⟩, ⟨1, l.pledge⟩] ++
      (match l.addition with | some a => [Datum.mk 1 1, ⟨2, a⟩] | none => [⟨1, 0⟩, ⟨2, 0⟩]) ++
      leftFields now l.deadline
  | none => [⟨1, 0⟩, ⟨1, 0⟩, ⟨2, 0⟩, ⟨1, 0⟩, ⟨1, 0⟩, ⟨1, 0⟩, ⟨2, 0⟩] ++ leftFields now none

theorem loanD_eq (now : Nat) (x : Option Loan) : loanD now x = loanFields now x := by
  cases x with
  | none => rfl
  | some l =>
    simp only [loanD, loanFields, leftOpt_eq]
    cases l.lent <;> cases l.state <;> cases l.addition <;> rfl

/-- The fields of a demand. -/
def demandFields (d : Demand) : List Datum :=
  [⟨1, match d.kind with | .energise => 1 | .raise => 2 | .pump => 3⟩, ⟨1, d.source⟩, ⟨1, d.need⟩]

theorem demandD_eq (d : Demand) : u8 d.kind.code ++ u8 d.source ++ u8 d.need = demandFields d := by
  unfold demandFields
  cases d.kind <;> rfl

/-- The fields of the ask state. -/
def askFields (now : Nat) (x : Option Collection) : List Datum :=
  match x with
  | some c => [Datum.mk 1 1, ⟨1, c.seq⟩, ⟨2, c.amount⟩, ⟨1, c.offers.length⟩] ++
      (c.offers.flatMap fun o => [⟨1, o.lender⟩, ⟨2, o.amount⟩]) ++ leftFields now c.closeAt
  | none => [⟨1, 0⟩, ⟨1, 0⟩, ⟨2, 0⟩, ⟨1, 0⟩] ++ leftFields now none

theorem askD_eq (now : Nat) (x : Option Collection) :
    optD (u8 0 ++ u16 0 ++ u8 0 ++ leftOpt 0 none) (x.map (Collection.datum now)) = askFields now x := by
  cases x with
  | none => rfl
  | some c =>
    simp only [Option.map_some, optD_some, Collection.datum, askFields, leftOpt_eq, listD_eq, List.flatMap_def,
      List.length_map]
    simp [u8, u16]

/-- The fields of the shed list's front. -/
def shedFields (l : List OutletLoad) : List Datum :=
  match l with | e :: _ => [Datum.mk 1 1, ⟨1, e.figure⟩] | [] => [⟨1, 0⟩, ⟨1, 0⟩]

theorem shedD_eq (l : List OutletLoad) : optD (u8 0) (l.head?.map fun e => u8 e.figure) = shedFields l := by
  cases l <;> rfl

/-- The field of what the head waits for. -/
def State.waitField (s : State) : Datum :=
  ⟨1, match s.pwb.demands with
    | [] => 0
    | d :: _ => match s.pwb.collection with
      | some c => if c.demand = d.id then 2 else 3
      | none => if ∃ l ∈ s.pwb.loans, l.lent = true ∧ l.state = .recalled ∧ l.partner ∈ d.recalls then 1 else 0⟩

theorem headWait_eq (s : State) : u8 s.headWait = [s.waitField] := by
  unfold State.headWait State.waitField u8
  cases s.pwb.demands with
  | nil => rfl
  | cons d rest =>
    cases s.pwb.collection with
    | some c => by_cases own : c.demand = d.id <;> simp [own]
    | none =>
      have recalled : s.recallsOut d = true ↔
          ∃ l ∈ s.pwb.loans, l.lent = true ∧ l.state = .recalled ∧ l.partner ∈ d.recalls := by
        simp [State.recallsOut, and_assoc]
      by_cases out : s.recallsOut d = true
      · simp [out, recalled.mp out]
      · simp [out, mt recalled.mpr out]

theorem loansAnswer_eq (s : State) : s.loansAnswer =
    [⟨2, s.settings.baseShare⟩, ⟨2, s.ceiling⟩, ⟨2, s.ownCeiling⟩, ⟨2, s.load⟩, ⟨1, s.pumpLoads⟩,
      ⟨1, s.settings.keepMargin⟩] ++ ((List.range 16).flatMap fun i => loanFields s.elapsed s.pwb.loans[i]?) ++
    [⟨1, s.pwb.demands.length⟩] ++ s.pwb.demands.flatMap demandFields ++ [s.waitField] ++
    askFields s.elapsed s.pwb.collection ++ [⟨1, s.pwb.shed.length⟩] ++ shedFields s.pwb.shed := by
  unfold State.loansAnswer
  rw [askD_eq, shedD_eq, headWait_eq, listD_eq]
  simp only [loanD_eq, demandD_eq, List.flatMap_def, List.length_map]
  simp [u8, u16]

/-! ### The other reading requests -/

section
variable {s : State}

theorem exec_readRequest {code : Nat} {body : State → Reply} {r : Reply} (taken : Takes code s)
    (answers : body (s.takeFrame code) = r) : (.next (s.readRequest code body) : Outcome) =
      .next { s with pnp := s.pnp.answered code r } := by
  rw [State.readRequest_taken taken, answers]

/-- A request for a record is refused RANGE or UNKNOWN by its number, or decided by the record. -/
theorem occRequest_taken {code : Nat} (taken : Takes code s) (n : Nat)
    (body : Occupancy → State → State × Reply) :
    (n = 0 ∨ 64 < n → s.occRequest code n body = { s with pnp := s.pnp.answered code (.refused .range) }) ∧
    (1 ≤ n → n ≤ 64 → s.occ? n = none →
      s.occRequest code n body = { s with pnp := s.pnp.answered code (.refused .unknown) }) ∧
    (1 ≤ n → n ≤ 64 → ∀ r : Occupancy, s.occ? n = some r → s.occRequest code n body =
      (body r (s.takeFrame code)).1.writeAnswer code (body r (s.takeFrame code)).2) := by
  rw [State.occRequest, State.request_taken taken]
  refine ⟨fun out => ?_, fun low high gone => ?_, fun low high r live => ?_⟩
  · have outside : within 1 64 n = false := by simp [within]; omega
    simp only [outside, Bool.not_false, if_true]
    rfl
  · have inside : within 1 64 n = true := by simp [within, low, high]
    have gone' : (s.takeFrame code).occ? n = none := gone
    simp only [inside, Bool.not_true, Bool.false_eq_true, if_false, gone']
    rfl
  · have inside : within 1 64 n = true := by simp [within, low, high]
    have live' : (s.takeFrame code).occ? n = some r := live
    simp only [inside, Bool.not_true, Bool.false_eq_true, if_false, live']

/-- A request for a pump is refused RANGE or UNKNOWN by its number, or decided by the pump and its description. -/
theorem pumpRequest_taken {code : Nat} (taken : Takes code s) (n : Nat)
    (body : Pump → PumpConfig → State → State × Reply) :
    (n = 0 ∨ 2 < n → s.pumpRequest code n body = { s with pnp := s.pnp.answered code (.refused .range) }) ∧
    (∀ p, s.pump? n = some p → p.config = none →
      s.pumpRequest code n body = { s with pnp := s.pnp.answered code (.refused .unknown) }) ∧
    (∀ p c, s.pump? n = some p → p.config = some c → s.pumpRequest code n body =
      (body p c (s.takeFrame code)).1.writeAnswer code (body p c (s.takeFrame code)).2) := by
  rw [State.pumpRequest, State.request_taken taken]
  refine ⟨fun out => ?_, fun p here bare => ?_, fun p c here described => ?_⟩
  · have gone : (s.takeFrame code).pump? n = none := by
      unfold State.pump?
      rw [if_neg (by omega), if_neg (by omega)]
    simp only [gone]
    rfl
  · have here' : (s.takeFrame code).pump? n = some p := here
    simp only [here', bare]
    rfl
  · have here' : (s.takeFrame code).pump? n = some p := here
    simp only [here', described]

theorem readRound_reads (taken : Takes 17 s) (n : Nat) :
    (n = 0 → exec (.readRound n) s = .next { s with pnp := s.pnp.answered 17 (.done s.bal.originationD) }) ∧
    (1 ≤ n → n ≤ 4 → exec (.readRound n) s =
      .next { s with pnp := s.pnp.answered 17 (.done (roundD s.elapsed s.bal.rounds[n - 1]?)) }) ∧
    (4 < n → exec (.readRound n) s = .next { s with pnp := s.pnp.answered 17 (.refused .range) }) := by
  refine ⟨fun zero => ?_, fun low high => ?_, fun above => ?_⟩
  · refine exec_readRequest taken ?_
    rw [if_neg (by omega), if_pos zero]
    rfl
  · refine exec_readRequest taken ?_
    rw [if_neg (by omega), if_neg (by omega)]
    rfl
  · refine exec_readRequest taken ?_
    rw [if_pos above]

theorem readBerth_reads (taken : Takes 18 s) (b night : Nat) :
    (b = 0 ∨ 48 < b ∨ 59 < night →
      exec (.readBerth b night) s = .next { s with pnp := s.pnp.answered 18 (.refused .range) }) ∧
    (1 ≤ b → b ≤ 48 → night ≤ 59 → s.berth? b = none →
      exec (.readBerth b night) s = .next { s with pnp := s.pnp.answered 18 (.refused .unknown) }) ∧
    (1 ≤ b → b ≤ 48 → night ≤ 59 → ∀ x, s.berth? b = some x → exec (.readBerth b night) s =
      .next { s with pnp := s.pnp.answered 18 (.done (berthD x (s.coverer b (s.today + night)))) }) := by
  refine ⟨fun out => ?_, fun low high near gone => ?_, fun low high near x there => ?_⟩
  · refine exec_readRequest taken ?_
    have outside : (!within 1 48 b || decide (59 < night)) = true := by simp [within]; omega
    rw [if_pos outside]
  · refine exec_readRequest taken ?_
    have inside : (!within 1 48 b || decide (59 < night)) = false := by simp [within, low, high, near]
    have gone' : (s.takeFrame 18).berth? b = none := gone
    simp only [inside, Bool.false_eq_true, if_false, gone']
  · refine exec_readRequest taken ?_
    have inside : (!within 1 48 b || decide (59 < night)) = false := by simp [within, low, high, near]
    have there' : (s.takeFrame 18).berth? b = some x := there
    simp only [inside, Bool.false_eq_true, if_false, there']
    rfl

theorem readPoint_reads (taken : Takes 41 s) (n : Nat) :
    (n = 0 ∨ 32 < n → exec (.readPoint n) s = .next { s with pnp := s.pnp.answered 41 (.refused .range) }) ∧
    (1 ≤ n → n ≤ 32 → s.point? n = none →
      exec (.readPoint n) s = .next { s with pnp := s.pnp.answered 41 (.refused .unknown) }) ∧
    (1 ≤ n → n ≤ 32 → ∀ p, s.point? n = some p →
      exec (.readPoint n) s = .next { s with pnp := s.pnp.answered 41 (.done (s.pointAnswer p)) }) := by
  refine ⟨fun out => ?_, fun low high gone => ?_, fun low high p there => ?_⟩
  · refine exec_readRequest taken ?_
    have outside : within 1 32 n = false := by simp [within]; omega
    simp only [outside, Bool.not_false, if_true]
  · refine exec_readRequest taken ?_
    have inside : within 1 32 n = true := by simp [within, low, high]
    have gone' : (s.takeFrame 41).point? n = none := gone
    simp only [inside, Bool.not_true, Bool.false_eq_true, if_false, gone']
  · refine exec_readRequest taken ?_
    have inside : within 1 32 n = true := by simp [within, low, high]
    have there' : (s.takeFrame 41).point? n = some p := there
    simp only [inside, Bool.not_true, Bool.false_eq_true, if_false, there']
    rfl

/-- A profile request is refused by its number, by a record that charges no point or has no profile, or
decided by the record, its point and its profile. -/
theorem profileRequest_taken {code : Nat} (taken : Takes code s) (n : Nat)
    (body : Occupancy → Point → Profile → State → State × Reply) :
    (n = 0 ∨ 64 < n → s.profileRequest code n body = { s with pnp := s.pnp.answered code (.refused .range) }) ∧
    (1 ≤ n → n ≤ 64 → s.occ? n = none →
      s.profileRequest code n body = { s with pnp := s.pnp.answered code (.refused .unknown) }) ∧
    (1 ≤ n → n ≤ 64 → ∀ r : Occupancy, s.occ? n = some r → r.profile = none ∨ s.berthPoint r.berth = none →
      s.profileRequest code n body = { s with pnp := s.pnp.answered code (.refused .state) }) ∧
    (1 ≤ n → n ≤ 64 → ∀ (r : Occupancy) (p : Point) (q : Profile) (k : Nat), s.occ? n = some r →
      s.berthPoint r.berth = some k → s.point? k = some p → r.profile = some q →
      s.profileRequest code n body =
        (body r p q (s.takeFrame code)).1.writeAnswer code (body r p q (s.takeFrame code)).2) := by
  unfold State.profileRequest
  obtain ⟨range, unknown, live⟩ := occRequest_taken taken n _
  refine ⟨range, unknown, fun low high r there bare => (live low high r there).trans ?_,
    fun low high r p q k there named point profile => (live low high r there).trans ?_⟩
  · rcases bare with bare | bare
    · rw [bare]
      cases ((s.takeFrame code).berthPoint r.berth).bind (s.takeFrame code).point? <;> rfl
    · have lone : ((s.takeFrame code).berthPoint r.berth).bind (s.takeFrame code).point? = none := by
        show (s.berthPoint r.berth).bind s.point? = none
        rw [bare]
        rfl
      simp only [lone]
      rfl
  · have found : ((s.takeFrame code).berthPoint r.berth).bind (s.takeFrame code).point? = some p := by
      show (s.berthPoint r.berth).bind s.point? = some p
      rw [named]
      exact point
    simp only [found, profile]

end

/-- Settles O22: each read answers from the state it finds, its data field by field. -/
theorem readsAnswerAndChangeNothing : Obligations.ReadsAnswerAndChangeNothing := by
  intro s answers left rate state
  refine ⟨fun taken => ?_, fun taken n => readRound_reads taken n, fun taken b night => ?_, fun taken n => ?_,
    fun taken => ?_, fun taken => ?_, fun taken n => readPoint_reads taken n,
    fun taken n g1 g2 g3 => ?_, fun taken n => ?_, fun taken => ?_⟩
  · refine exec_readRequest taken (congrArg Reply.done ?_)
    show s.stationAnswer = _
    rw [State.stationAnswer, strapsD_eq, settingsD_eq, countsD_eq, timeD_eq, gateD_eq, lineD_eq]
    simp only [List.append_assoc]
    rfl
  · have covers : s.coverer b (s.today + night) = s.occ.records.find? fun r =>
        r.berth == b && decide (r.arrival ≤ s.today + night ∧ s.today + night < r.arrival + r.nights) := by
      unfold State.coverer Occupancy.covers
      simp only [Bool.decide_and]
    rw [← covers]
    exact readBerth_reads taken b night
  · obtain ⟨range, unknown, live⟩ := occRequest_taken taken n fun r s => (s, .done r.datum)
    exact ⟨fun out => congrArg Host.Outcome.next (range out),
      fun low high gone => congrArg Host.Outcome.next (unknown low high gone),
      fun low high r there => congrArg Host.Outcome.next (live low high r there)⟩
  · refine ⟨Closure.zero.map fun d => ⟨d.width, 0⟩, fun none => ?_, fun c rest there => ?_⟩
    · refine exec_readRequest taken ?_
      show Reply.done (optD _ (s.occ.closures.head?.map _)) = _
      rw [none]
      rfl
    · refine exec_readRequest taken ?_
      show Reply.done (optD _ (s.occ.closures.head?.map _)) = _
      rw [there]
      rfl
  · refine exec_readRequest taken (congrArg Reply.done ?_)
    show s.loansAnswer = _
    rw [loansAnswer_eq]
    rfl
  · obtain ⟨range, unknown, bare, given⟩ := profileRequest_taken taken n fun _ p q s =>
      (s, .done (s.checkAnswer p (profileResult p q g1 g2 g3)))
    exact ⟨fun out => congrArg Host.Outcome.next (range out),
      fun low high gone => congrArg Host.Outcome.next (unknown low high gone), fun low high r there =>
      ⟨fun without => congrArg Host.Outcome.next (bare low high r there (.inl without)),
        fun p q k named point profile =>
          congrArg Host.Outcome.next (given low high r p q k there named point profile)⟩⟩
  · obtain ⟨range, unknown, described⟩ := pumpRequest_taken taken n fun p c s => (s, .done (s.pumpAnswer n p c))
    exact ⟨fun out => congrArg Host.Outcome.next (range out), fun p here =>
      ⟨fun bare => congrArg Host.Outcome.next (unknown p here bare),
        fun c config => congrArg Host.Outcome.next (described p c here config)⟩⟩
  · refine ⟨JournalRecord.zero.map fun d => ⟨d.width, 0⟩, fun opened => ?_, fun before r after there first closed => ?_⟩
    · refine exec_readRequest taken ?_
      have none : s.oldestClosed = none := List.find?_eq_none.mpr fun r hr => by simp [opened r hr]
      show Reply.done (optD _ (s.oldestClosed.map _)) = _
      rw [none]
      rfl
    · refine exec_readRequest taken ?_
      have oldest : s.oldestClosed = some r := by
        refine List.find?_eq_some_iff_append.mpr ⟨closed, before, after, there, fun x hx => ?_⟩
        simp [first x hx]
      show Reply.done (optD _ (s.oldestClosed.map _)) = _
      rw [oldest]
      rfl

end Sys2Proof.Machine
end

section
/-! PROOFS. Opening a round (01): what REQUEST BERTH and a BERTH REQUEST heard make of the round table, the marks
and the transmit queue. -/

namespace Sys2Proof.Machine

set_option Elab.async false

/-! ### A state that differs in few parts -/

/-- Where PNP and LIF alone may change, the state is the old one with a PNP and a LIF of its own. -/
theorem Within.eq_lif {s t : State} (h : Within [.lif] s t) : t = { s with pnp := t.pnp, lif := t.lif } := by
  have at_ := h.frame
  have e : ∀ p, p ∉ [Part.pnp, .lif] → s.agree t p := at_
  have h1 : t.powered = s.powered := e .powered (by decide)
  have h2 : t.straps = s.straps := e .straps (by decide)
  have h3 : t.startKind = s.startKind := e .startKind (by decide)
  have h4 : t.settings = s.settings := e .settings (by decide)
  have h5 : t.elapsed = s.elapsed := e .elapsed (by decide)
  have h6 : t.moments = s.moments := e .moments (by decide)
  have h7 : t.bal = s.bal := e .bal (by decide)
  have h8 : t.occ = s.occ := e .occ (by decide)
  have h9 : t.pwb = s.pwb := e .pwb (by decide)
  have h10 : t.spc = s.spc := e .spc (by decide)
  have h11 : t.fdc = s.fdc := e .fdc (by decide)
  have h12 : t.gtc = s.gtc := e .gtc (by decide)
  have h13 : t.sch = s.sch := e .sch (by decide)
  have h14 : t.cap = s.cap := e .cap (by decide)
  have h15 : t.pending = s.pending := e .pending (by decide)
  cases t
  cases s
  simp_all

/-- A frame handed to LIF takes the next note, whatever becomes of it (R165). -/
theorem queueFrame_serial (s : State) (f : Frame) : (s.queueFrame f).lif.serial = s.lif.serial + 1 := by
  have kept : ∀ (u : State) (x : TxFrame) (b : Bool), (u.giveReport x b).lif.serial = u.lif.serial := by
    intro u x b
    unfold State.giveReport
    split <;> rfl
  unfold State.queueFrame
  dsimp only
  split
  · exact kept _ _ _
  · split
    · rfl
    · split
      · split
        · exact kept _ _ _
        · exact kept _ _ _
      · exact kept _ _ _

/-- With room a frame queued leaves the frames in the queue there. -/
theorem queueFrame_keeps {s : State} {kind : Nat} {fields : List (Nat × Nat)} {data : List Byte}
    (on : s.lif.state = .onLine) (room : s.lif.tx.length < 12) (me : Nat) {f : TxFrame} (there : f ∈ s.lif.tx)
    (accepted : 1 ≤ kind ∧ kind ≤ 16 := by decide) (fits : keyWidth fields ≤ 19 := by simp [keyWidth]) :
    f ∈ (s.queueFrame (mkFrame kind fields me data)).lif.tx := by
  rw [queueFrame_mk on room me accepted fits]
  exact mem_txInsert.mpr (.inr there)

/-! ### The round table -/

section
variable (s : State) (t : Sys2Proof.Tag)

/-- The rounds of a tag changed: only the lookup of that tag changes. -/
theorem round?_modRound {f : Round → Round} (h : ∀ r, (f r).tag = r.tag) (t' : Sys2Proof.Tag) :
    (s.modRound t f).round? t' = if t' = t then (s.round? t').map f else s.round? t' := by
  have found : (s.modRound t f).round? t' = (s.round? t').map fun r => if r.tag = t then f r else r := by
    unfold State.modRound State.round?
    rw [List.find?_map]
    congr 1
    refine congrArg (fun p => List.find? p s.bal.rounds) (funext fun r => ?_)
    by_cases same : r.tag = t <;> simp [same, h]
  rw [found]
  split
  · rename_i same
    subst same
    cases at_ : s.round? t' with
    | none => rfl
    | some r =>
      have : r.tag = t' := by simpa using List.find?_some at_
      simp [this]
  · rename_i other
    cases at_ : s.round? t' with
    | none => rfl
    | some r =>
      have tag : r.tag = t' := by simpa using List.find?_some at_
      have : r.tag ≠ t := tag.trans_ne other
      simp [this]

/-- The rounds of a tag dropped: no lookup finds them, and every other lookup stays. -/
theorem round?_dropRound (t' : Sys2Proof.Tag) :
    (s.dropRound t).round? t' = if t' = t then none else s.round? t' := by
  unfold State.dropRound State.round?
  dsimp only
  rw [List.find?_filter]
  split
  · rename_i same
    subst same
    refine List.find?_eq_none.mpr fun r _ => ?_
    simp
  · rename_i other
    refine congrArg (fun p => List.find? p s.bal.rounds) (funext fun r => ?_)
    by_cases same : r.tag = t'
    · simp [same, other]
    · simp [same]

theorem round?_tag {r : Round} (h : s.round? t = some r) : r.tag = t := by
  simpa using List.find?_some h

end

/-! ### Opening a round (R11, R12, R14) -/

/-- The round of a request without a candidate (R11). -/
def State.newRound (s : State) (t : Sys2Proof.Tag) (q : BerthRequest) : Round :=
  ⟨t, q, s.today + q.offset, none, none, none, none, s.elapsed + s.settings.window * 1000, none, .noFit, none, none⟩

/-- The round of a request with its candidate, its own key and its delay (R8, R12). -/
def State.fittedRound (s : State) (t : Sys2Proof.Tag) (q : BerthRequest) (score b : Nat) : Round :=
  { s.newRound t q with
    candidate := some b
    ownKey := some ⟨score, s.me⟩
    delayEnd := some (s.elapsed + score * s.settings.bidStep)
    state := .waiting }

/-- The round once its BID is queued under a note (R14). -/
def Round.bidding (note : Nat) (r : Round) : Round :=
  { r with
    state := .bidQueued
    delayEnd := none
    bidFrame := some note }

/-- The round table with one round more. -/
def State.addRound (s : State) (r : Round) : State := { s with bal := { s.bal with rounds := s.bal.rounds ++ [r] } }

section
variable {s : State} {t : Sys2Proof.Tag} {q : BerthRequest}

theorem openRound_noFit {fits : Bool} (none : fits = false ∨ s.candidate q (s.today + q.offset) = none) :
    s.openRound t q fits = s.addRound (s.newRound t q) := by
  have chosen : (if fits = true then s.candidate q (s.today + q.offset) else Option.none) = Option.none := by
    rcases none with rfl | none
    · rfl
    · simp [none]
  unfold State.openRound
  simp only [chosen]
  rfl

theorem openRound_waiting {score b : Nat} (found : s.candidate q (s.today + q.offset) = some (score, b))
    (later : 0 < score) :
    s.openRound t q true = (s.addRound (s.fittedRound t q score b)).setMark b t := by
  unfold State.openRound
  simp only [if_true, found, if_neg (Nat.ne_of_gt later)]
  rfl

theorem endDelay_eq {r : Round} {k : BidKey} (own : r.ownKey = some k) :
    s.endDelay r = (s.modRound r.tag (Round.bidding s.lif.serial)).queueFrame (bidFrame s.me k.score r.tag) := by
  unfold State.endDelay
  rw [own]
  rfl

theorem openRound_atOnce {b : Nat} (found : s.candidate q (s.today + q.offset) = some (0, b)) :
    s.openRound t q true =
      (((s.addRound (s.fittedRound t q 0 b)).setMark b t).modRound t (Round.bidding s.lif.serial)).queueFrame
        (bidFrame s.me 0 t) := by
  have ends : s.openRound t q true =
      ((s.addRound (s.fittedRound t q 0 b)).setMark b t).endDelay (s.fittedRound t q 0 b) := by
    unfold State.openRound
    simp only [found, ↓reduceIte]
    rfl
  rw [ends, endDelay_eq (k := ⟨0, s.me⟩) rfl]
  rfl

theorem queueFrame_bal (s : State) (f : Frame) : (s.queueFrame f).bal = s.bal :=
  (within_queueFrame s f).frame .bal (by decide)

end

/-! ### O29: REQUEST BERTH (R19) -/

theorem exec_requestBerth (r : BerthRequest) (s : State) : exec (.requestBerth r) s = execRequestBerth r s := rfl

theorem requestInRange_iff (r : BerthRequest) : requestInRange r = true ↔
    30 ≤ r.length ∧ r.length ≤ 600 ∧ 10 ≤ r.beam ∧ r.beam ≤ 150 ∧ 5 ≤ r.draft ∧ r.draft ≤ 60 ∧ r.offset ≤ 6 ∧
      1 ≤ r.nights ∧ r.nights ≤ 60 ∧ r.lowWater ≤ 80 ∧ r.rating ≤ 3 ∧ (r.cls = 1 ∨ r.cls = 2) ∧
      r.preferred ≤ 31 := by
  unfold requestInRange within
  simp only [Bool.and_eq_true, decide_eq_true_eq]
  constructor
  · intro h; omega
  · intro h; omega

/-- The origination before its round opens (R19): the tag, the await and the pending result. -/
def State.awaiting (s : State) (t : Sys2Proof.Tag) : State := { s with bal := { s.bal with
  seq := t.seq
  lastTag := some t
  result := .pending
  await := some ⟨t, s.elapsed, s.lif.serial, none, none⟩ } }

/-- An origination queues its BERTH REQUEST and opens its round (R19). -/
theorem originate_eq {s : State} (on : s.lif.state = .onLine) (t : Sys2Proof.Tag) (q : BerthRequest) :
    ∃ (p : Pnp) (l : Lif), s.originate t q =
        ({ s.awaiting t with pnp := p, lif := l } : State).openRound t q s.occRoom ∧
      l.serial = s.lif.serial + 1 ∧ l.state = .onLine ∧
      (s.lif.tx.length < 11 → l.tx.length < 12 ∧
        ∃ f ∈ l.tx, f.serial = s.lif.serial ∧ f.frame = berthRequestFrame s.me t.seq q) := by
  let x := (s.awaiting t).queueFrame (berthRequestFrame s.me t.seq q)
  refine ⟨x.pnp, x.lif, ?_, queueFrame_serial _ _, (queueFrame_lifState _ _).trans on, fun room => ⟨?_, ?_⟩⟩
  · exact congrArg (fun w : State => w.openRound t q s.occRoom) (within_queueFrame (s.awaiting t) _).eq_lif
  · have : x.lif.tx = _ := (congrArg (fun w : State => w.lif.tx)
      (queueFrame_mk (s := s.awaiting t) (kind := 15) (fields := [(8, t.seq)]) on (Nat.lt_succ_of_lt room) s.me) :)
    rw [this, txInsert_length]
    exact Nat.succ_lt_succ room
  · exact queueFrame_mem (s := s.awaiting t) on (Nat.lt_succ_of_lt room) s.me

/-- What a request's round may be (R19): no candidate, one with a delay, one that bids at once. -/
theorem fit_cases (s : State) (q : BerthRequest) :
    (s.occRoom = false ∨ s.candidate q (s.today + q.offset) = none) ∨
      (s.occRoom = true ∧ ∃ score b, s.candidate q (s.today + q.offset) = some (score, b)) := by
  cases room : s.occRoom with
  | false => exact .inl (.inl rfl)
  | true =>
    cases found : s.candidate q (s.today + q.offset) with
    | none => exact .inl (.inr rfl)
    | some x => exact .inr ⟨rfl, x.1, x.2, rfl⟩

theorem occRoom_iff (s : State) : s.occRoom = true ↔ s.occ.records.length < 64 := by
  unfold State.occRoom
  exact decide_eq_true_iff

/-- Settles O29: a request accepted takes the next tag, queues its BERTH REQUEST and opens its own round. -/
theorem requestBerthOriginates : Obligations.RequestBerthOriginates := by
  intro r s taken refused inRange
  have decided : exec (.requestBerth r) s = .next _ := congrArg Host.Outcome.next (State.request_taken taken)
  have range := requestInRange_iff r
  refine ⟨fun off => ?_, fun on out => ?_, fun on good waits => ?_, fun on good idle full => ?_,
    fun on good idle room => ?_⟩
  · have line : (s.takeFrame 16).onLine = false := by simpa [State.onLine] using off
    refine decided.trans ?_
    simp only [line, Bool.not_false, if_true]
    rfl
  · have line : (s.takeFrame 16).onLine = true := by simpa [State.onLine] using on
    have bad : requestInRange r = false := by simpa using mt range.mp out
    refine decided.trans ?_
    simp only [line, bad, Bool.not_true, Bool.not_false, Bool.false_eq_true, if_true, if_false]
    rfl
  all_goals
    have line : (s.takeFrame 16).onLine = true := by simpa [State.onLine] using on
    have good' : requestInRange r = true := range.mpr good
  · have waits' : (s.takeFrame 16).bal.await.isSome = true := waits
    refine decided.trans ?_
    simp only [line, good', waits', Bool.not_true, Bool.false_eq_true, if_true, if_false]
    rfl
  · have idle' : (s.takeFrame 16).bal.await.isSome = false := by
      show s.bal.await.isSome = false
      rw [idle]
      rfl
    have full' : (s.takeFrame 16).roundRoom = false := by
      show decide (s.bal.rounds.length < 4) = false
      simpa using full
    refine decided.trans ?_
    simp only [line, good', idle', full', Bool.not_true, Bool.not_false, Bool.false_eq_true, if_true, if_false]
    rfl
  · have idle' : (s.takeFrame 16).bal.await.isSome = false := by
      show s.bal.await.isSome = false
      rw [idle]
      rfl
    have room' : (s.takeFrame 16).roundRoom = true := by
      show decide (s.bal.rounds.length < 4) = true
      simpa using room
    intro tag
    have runs : exec (.requestBerth r) s =
        .next (((s.takeFrame 16).originate tag r).writeAnswer 16 (.accepted false (u8 tag.station ++ u8 tag.seq))) := by
      refine decided.trans ?_
      simp only [line, good', idle', room', Bool.not_true, Bool.false_eq_true, if_false]
      rfl
    obtain ⟨p, l, opens, serial, onLine, queued⟩ := originate_eq (s := s.takeFrame 16) on tag r
    have leaves : ∀ w, (s.takeFrame 16).originate tag r = w →
        exec (.requestBerth r) s = .next (w.writeAnswer 16 (.accepted false (u8 tag.station ++ u8 tag.seq))) ∧
        OnlyChanges [.pnp, .lif, .bal] s (w.writeAnswer 16 (.accepted false (u8 tag.station ++ u8 tag.seq))) := by
      rintro _ rfl
      exact ⟨runs, frame_of_runs runs⟩
    have few := occRoom_iff s
    let w : State := { (s.takeFrame 16).awaiting tag with pnp := p, lif := l }
    rcases fit_cases s r with none | ⟨places, score, b, found⟩
    · obtain ⟨runs, frame⟩ := leaves _ (opens.trans (openRound_noFit (s := w) none))
      refine ⟨_, s.newRound tag r, runs, rfl, rfl, rfl, rfl, List.length_append, List.getLast?_concat, rfl, rfl, rfl,
        rfl, rfl, rfl, fun _ => ⟨rfl, rfl, rfl, rfl⟩, fun score b places found => ?_,
        fun room => (queued room).2, rfl, rfl, frame⟩
      rcases none with none | none
      · exact absurd (few.mpr places) (by simp [none])
      · exact absurd (none.symm.trans found) (by simp)
    · have unfit : ¬ (64 ≤ s.occ.records.length ∨ s.candidate r (s.today + r.offset) = none) := by
        rintro (full | none)
        · exact absurd (few.mp places) (Nat.not_lt.mpr full)
        · exact absurd (none.symm.trans found) (by simp)
      have same : ∀ {score' b'}, s.candidate r (s.today + r.offset) = some (score', b') →
          score' = score ∧ b' = b := fun h => by simpa using h.symm.trans found
      have places' : (s.takeFrame 16).occRoom = true := places
      rw [places'] at opens
      rcases Nat.eq_zero_or_pos score with rfl | later
      · obtain ⟨runs, frame⟩ := leaves _ (opens.trans (openRound_atOnce (s := w) found))
        let z : State := ((w.addRound (w.fittedRound tag r 0 b)).setMark b tag).modRound tag (Round.bidding l.serial)
        have bal : (z.queueFrame (bidFrame s.me 0 tag)).bal = z.bal := queueFrame_bal _ _
        refine ⟨_, (s.fittedRound tag r 0 b).bidding l.serial, runs, congrArg Bal.seq bal, congrArg Bal.lastTag bal,
          congrArg Bal.result bal, congrArg Bal.await bal, ?_, ?_, rfl, rfl, rfl, rfl, rfl, rfl,
          fun h => absurd h unfit, fun score' b' _ found' => ?_, fun room => ?_, rfl, rfl, frame⟩
        · refine (congrArg (fun x : Bal => x.rounds.length) bal).trans ?_
          simp [z, State.modRound, State.setMark, State.addRound, w, State.awaiting]
        · refine (congrArg (fun x : Bal => x.rounds.getLast?) bal).trans ?_
          simp [z, State.modRound, State.setMark, State.addRound, w, State.fittedRound, State.newRound]
          rfl
        · obtain ⟨rfl, rfl⟩ := same found'
          refine ⟨rfl, rfl, congrArg Bal.berths bal, fun later => absurd later (Nat.lt_irrefl 0), fun _ =>
            ⟨rfl, rfl, congrArg some serial, fun room => ?_⟩⟩
          obtain ⟨f, there, note, same⟩ := queueFrame_mem (s := z) (kind := 13)
            (fields := [(10, 0), (5, tag.station), (4, tag.seq)]) onLine (queued room).1 s.me
          exact ⟨f, there, note.trans serial, same⟩
        · obtain ⟨f, there, note, same⟩ := (queued room).2
          exact ⟨f, queueFrame_keeps (s := z) (kind := 13) (fields := [(10, 0), (5, tag.station), (4, tag.seq)]) onLine
            (queued room).1 s.me there, note, same⟩
      · obtain ⟨runs, frame⟩ := leaves _ (opens.trans (openRound_waiting (s := w) found later))
        refine ⟨_, s.fittedRound tag r score b, runs, rfl, rfl, rfl, rfl, List.length_append, List.getLast?_concat,
          rfl, rfl, rfl, rfl, rfl, rfl, fun h => absurd h unfit, fun score' b' _ found' => ?_,
          fun room => (queued room).2, rfl, rfl, frame⟩
        obtain ⟨rfl, rfl⟩ := same found'
        exact ⟨rfl, rfl, rfl, fun _ => ⟨rfl, rfl, rfl⟩, fun now => absurd now (Nat.ne_of_gt later)⟩

end Sys2Proof.Machine
end

section
/-! PROOFS. The contest heard (01): BERTH REQUESTs, keys and ASSIGNs taken from LIF, the ends of a round's delay,
window and watch, and the await of an origination. -/

namespace Sys2Proof.Machine

set_option Elab.async false

/-- Taking a received frame changes only the receive queue, or the loop-back copies, of LIF (R171, R173). -/
theorem takeRx_eq {kind : Nat} {src : RxSource} {s u : State} {f : Frame} {note : Option Nat}
    (h : s.takeRx kind src = some (f, note, u)) :
    ∃ rx loop, u = { s with lif := { s.lif with rx := rx, loop := loop } } := by
  unfold State.takeRx at h
  split at h
  · split at h
    · split at h
      · cases h
        exact ⟨_, _, rfl⟩
      · cases h
    · cases h
  · split at h
    · cases h
      exact ⟨_, _, rfl⟩
    · cases h

/-! ### O30: a BERTH REQUEST heard (R4, R10, R11) -/

theorem exec_berthRequestFrame {src : RxSource} {f : Frame} {note : Option Nat} {s u : State}
    (on : s.powered = true) (got : s.takeRx 15 src = some (f, note, u)) :
    exec (.berthRequestFrame src) s =
      .next (u.takeBerthRequest ⟨f.sender, f.keyField 0 8⟩ (unpackRequest (f.num 0 7))) :=
  congrArg Host.Outcome.next (State.frameEvent_taken on got)

theorem round?_none (s : State) (t : Sys2Proof.Tag) : s.round? t = none ↔ ∀ x ∈ s.bal.rounds, x.tag ≠ t := by
  simp [State.round?]

/-- A request that BAL does not take up (R11). -/
theorem takeBerthRequest_ignored {s : State} {t : Sys2Proof.Tag} {r : BerthRequest}
    (h : s.lif.state ≠ .onLine ∨ t.station = s.me ∨ (∃ x ∈ s.bal.rounds, x.tag = t) ∨ requestInRange r = false) :
    s.takeBerthRequest t r = s := by
  unfold State.takeBerthRequest
  refine if_pos ?_
  simp only [Bool.or_eq_true, decide_eq_true_eq, Bool.not_eq_true', State.onLine, beq_eq_false_iff_ne]
  rcases h with h | h | ⟨x, hx, e⟩ | h
  · exact .inl (.inl (.inl h))
  · exact .inl (.inl (.inr h))
  · refine .inl (.inr ?_)
    cases found : s.round? t with
    | none => exact absurd e ((round?_none s t).mp found x hx)
    | some y => rfl
  · exact .inr h

/-- A request taken up: no place for it, or a round opened (R10, R11). -/
theorem takeBerthRequest_taken {s : State} {t : Sys2Proof.Tag} {r : BerthRequest} (on : s.lif.state = .onLine)
    (other : t.station ≠ s.me) (fresh : ∀ x ∈ s.bal.rounds, x.tag ≠ t) (good : requestInRange r = true) :
    s.takeBerthRequest t r =
      if s.bal.rounds.length < 4 ∧ s.occ.records.length < 64 then s.openRound t r true else s.setFlag .roundMissed := by
  have line : s.onLine = true := by simpa [State.onLine] using on
  have new : (s.round? t).isSome = false := by rw [(round?_none s t).mpr fresh]; rfl
  have rounds : s.roundRoom = true ↔ s.bal.rounds.length < 4 := by
    unfold State.roundRoom
    exact decide_eq_true_iff
  have records := occRoom_iff s
  unfold State.takeBerthRequest
  simp only [line, new, good, other, decide_false, Bool.not_true, Bool.or_self, Bool.false_eq_true, if_false]
  by_cases h1 : s.bal.rounds.length < 4
  · by_cases h2 : s.occ.records.length < 64
    · simp [rounds.mpr h1, records.mpr h2, h1, h2]
    · have : s.occRoom = false := by simpa using mt records.mp h2
      simp [this, h2]
  · have : s.roundRoom = false := by simpa using mt rounds.mp h1
    simp [this, h1]

theorem round?_congr {s u : State} (h : u.bal = s.bal) (t : Sys2Proof.Tag) : u.round? t = s.round? t := by
  simp [State.round?, h]

theorem round?_addRound {s : State} {r : Round} (fresh : ∀ x ∈ s.bal.rounds, x.tag ≠ r.tag) :
    (s.addRound r).round? r.tag = some r := by
  have : s.bal.rounds.find? (fun x => x.tag == r.tag) = none := (round?_none s r.tag).mpr fresh
  simp [State.round?, State.addRound, List.find?_append, this]

/-- A round with no delay has its BID queued at once (R14). -/
theorem openRound_bids {s : State} {t : Sys2Proof.Tag} {q : BerthRequest} {b : Nat} (on : s.lif.state = .onLine)
    (fresh : ∀ x ∈ s.bal.rounds, x.tag ≠ t) (found : s.candidate q (s.today + q.offset) = some (0, b)) :
    (s.openRound t q true).round? t = some ((s.fittedRound t q 0 b).bidding s.lif.serial) ∧
    (s.lif.tx.length < 12 → ∃ g ∈ (s.openRound t q true).lif.tx, g.serial = s.lif.serial ∧
      g.frame = bidFrame s.me 0 t) := by
  rw [openRound_atOnce found]
  refine ⟨(round?_congr (queueFrame_bal _ _) t).trans ?_, fun room => queueFrame_mem
    (s := ((s.addRound (s.fittedRound t q 0 b)).setMark b t).modRound t (Round.bidding s.lif.serial)) on room s.me⟩
  rw [round?_modRound _ t (f := Round.bidding s.lif.serial) (fun _ => rfl), if_pos rfl]
  exact congrArg (Option.map (Round.bidding s.lif.serial))
    (round?_addRound (s := s) (r := s.fittedRound t q 0 b) fresh)

/-- Settles O30: a request heard opens a round, or is ignored, or is missed. -/
theorem berthRequestOpensARound : Obligations.BerthRequestOpensARound := by
  intro src f note s u on got tag r base
  have runs := exec_berthRequestFrame on got
  have frame : ∀ t, exec (.berthRequestFrame src) s = .next t → OnlyChanges [.pnp, .lif, .bal] s t :=
    fun t h => frame_of_runs h
  obtain ⟨rx, loop, rfl⟩ := takeRx_eq got
  refine ⟨fun h => runs.trans (congrArg _ (takeBerthRequest_ignored h)), fun line other fresh good => ?_⟩
  have taken := runs.trans (congrArg Host.Outcome.next (takeBerthRequest_taken line other fresh good))
  refine ⟨fun full => taken.trans (congrArg _ (if_neg fun h => full.elim (Nat.not_le.mpr h.1) (Nat.not_le.mpr h.2))), fun few free => ?_⟩
  have opens := taken.trans (congrArg _ (if_pos ⟨few, free⟩))
  refine ⟨fun none => opens.trans (congrArg _ (openRound_noFit (.inr none))), fun score b found later =>
    opens.trans (congrArg _ (openRound_waiting found later)), fun b found => ?_⟩
  obtain ⟨there, queued⟩ := openRound_bids (s := { s with lif := { s.lif with rx := rx, loop := loop } }) line fresh found
  exact ⟨_, _, opens, there, rfl, rfl, rfl, rfl, rfl, queued, frame _ opens⟩

/-! ### Keys heard (R13, R14) -/

theorem BidKey.lt_iff (a b : BidKey) :
    a.lt b = true ↔ a.score < b.score ∨ (a.score = b.score ∧ a.station < b.station) := by
  simp [BidKey.lt]

theorem lowerKey_eq (best : Option BidKey) (k : BidKey) :
    lowerKey best k = match best with
      | none => k
      | some b => if k.score < b.score ∨ (k.score = b.score ∧ k.station < b.station) then k else b := by
  cases best with
  | none => rfl
  | some b =>
    unfold lowerKey
    by_cases h : k.score < b.score ∨ (k.score = b.score ∧ k.station < b.station)
    · simp only [(BidKey.lt_iff k b).mpr h, if_true, if_pos h]
    · have : k.lt b = false := by simpa using mt (BidKey.lt_iff k b).mp h
      simp only [this, Bool.false_eq_true, if_false, if_neg h]

/-- LIF withdraws a frame: it leaves the queue where it is there and not in an attempt (R169). -/
theorem withdrawal_iff (l : Lif) (n : Nat) :
    (l.withdrawal n == .withdrawn) = true ↔ l.attempt ≠ some n ∧ ∃ g ∈ l.tx, g.serial = n := by
  unfold Lif.withdrawal
  by_cases there : l.tx.any (fun f => f.serial == n) = true
  · by_cases tries : l.attempt = some n
    · simp [there, tries]
    · have : ∃ g ∈ l.tx, g.serial = n := by simpa using there
      simp [there, tries, this]
  · have : ¬ ∃ g ∈ l.tx, g.serial = n := by simpa using there
    simp only [there, Bool.false_eq_true, if_false, this, and_false, iff_false]
    decide

/-- LIF without a frame that is not in an attempt (R169). -/
def Lif.without (l : Lif) (n : Option Nat) : Lif :=
  { l with tx := l.tx.filter fun g => !(n == some g.serial && l.attempt != some g.serial) }

theorem Lif.without_none (l : Lif) : l.without none = l := by
  simp [Lif.without]

theorem withdrawFrame_eq (s : State) (n : Nat) : s.withdrawFrame n = { s with lif := s.lif.without (some n) } := by
  unfold State.withdrawFrame
  by_cases h : (s.lif.withdrawal n == .withdrawn) = true
  · obtain ⟨free, _⟩ := (withdrawal_iff s.lif n).mp h
    rw [if_pos h]
    have same : (s.lif.tx.filter fun g => g.serial != n) =
        s.lif.tx.filter fun g => !(some n == some g.serial && s.lif.attempt != some g.serial) := by
      refine List.filter_congr fun g _ => ?_
      by_cases e : g.serial = n
      · simp [e, free]
      · have other : (some n == some g.serial) = false := by simpa using fun h => e h.symm
        rw [other, bne_iff_ne.mpr e]
        rfl
    rw [same]
    rfl
  · have kept : (s.lif.tx.filter fun g => !(some n == some g.serial && s.lif.attempt != some g.serial)) = s.lif.tx := by
      refine List.filter_eq_self.mpr fun g hg => ?_
      by_cases e : g.serial = n
      · by_cases tries : s.lif.attempt = some n
        · simp [e, tries]
        · exact absurd ((withdrawal_iff s.lif n).mpr ⟨tries, g, hg, e⟩) h
      · have : n ≠ g.serial := fun h => e h.symm
        simp [this]
    rw [if_neg h]
    unfold Lif.without
    rw [kept]

theorem withdrawBid_eq (s : State) (r : Round) :
    s.withdrawBid r = if r.state = .bidQueued then { s with lif := s.lif.without r.bidFrame } else s := by
  unfold State.withdrawBid
  cases state : r.state <;> cases frame : r.bidFrame <;> simp [withdrawFrame_eq, Lif.without_none]

theorem bidUnsent_iff (s : State) (n : Nat) : s.bidUnsent n = true ↔
    (s.lif.attempt ≠ some n ∧ ∃ g ∈ s.lif.tx, g.serial = n) ∨ ∃ x ∈ s.lif.reports, x.serial = n ∧ x.sent = false := by
  unfold State.bidUnsent
  rw [Bool.or_eq_true, withdrawal_iff]
  simp

/-- A round with a key heard taken into its best (R13). -/
def Round.hearing (k : BidKey) (r : Round) : Round := { r with best := some (lowerKey r.best k) }

/-- The marks of a tag cleared. -/
def unmark (t : Sys2Proof.Tag) (l : List Berth) : List Berth :=
  l.map fun b => if b.mark = some t then { b with mark := none } else b

theorem clearMark_eq (s : State) (t : Sys2Proof.Tag) :
    s.clearMark t = { s with bal := { s.bal with berths := unmark t s.bal.berths } } := rfl

section
variable {s : State} {r : Round} {k : BidKey}

/-- A key heard that is no lower than the round's own, or comes when the round bids no more, only shows as the
best (R13). -/
theorem hearKey_shows (open_ : r.state ≠ .won) (h : (∀ own, r.ownKey = some own → k.lt own = false) ∨
    (r.state = .withdrawn ∨ r.state = .lost ∨ r.state = .noFit)) :
    s.hearKey r k = s.modRound r.tag (Round.hearing k) := by
  unfold State.hearKey
  rw [if_neg open_]
  rcases h with h | h
  · cases own : r.ownKey with
    | none => rfl
    | some o =>
      simp [h o own]
      rfl
  · rcases h with h | h | h <;> simp only [h, ite_self] <;> rfl

theorem hearKey_lower {own : BidKey} (mine : r.ownKey = some own) (lower : k.lt own = true) :
    (r.state = .waiting → s.hearKey r k = ((s.modRound r.tag (Round.hearing k)).modRound r.tag fun x =>
      { x with state := .withdrawn, delayEnd := none }).clearMark r.tag) ∧
    (r.state = .bidSent → s.hearKey r k = ((s.modRound r.tag (Round.hearing k)).modRound r.tag fun x =>
      { x with state := .lost }).clearMark r.tag) ∧
    (r.state = .bidQueued → s.hearKey r k = ((({ s with lif := s.lif.without r.bidFrame } : State).modRound r.tag
      (Round.hearing k)).modRound r.tag fun x =>
        { x with state := if r.bidFrame.any s.bidUnsent = true then .withdrawn else .lost }).clearMark r.tag) := by
  unfold State.hearKey
  refine ⟨fun state => ?_, fun state => ?_, fun state => ?_⟩
  · simp only [state, mine, lower, reduceCtorEq, Bool.not_true, Bool.false_eq_true, if_false]
    rfl
  · simp only [state, mine, lower, reduceCtorEq, Bool.not_true, Bool.false_eq_true, if_false]
    rfl
  · simp only [state, mine, lower, reduceCtorEq, Bool.not_true, Bool.false_eq_true, if_false, withdrawBid_eq, if_true]
    cases r.bidFrame <;> rfl

/-- What is left of a round's table entries when its own entry changes and its mark is cleared. -/
theorem round?_cleared {w : State} {f : Round → Round} (there : w.round? r.tag = some r)
    (h : ∀ x, (f x).tag = x.tag) :
    ((w.modRound r.tag f).clearMark r.tag).round? r.tag = some (f r) ∧
    (∀ t, t ≠ r.tag → ((w.modRound r.tag f).clearMark r.tag).round? t = w.round? t) := by
  refine ⟨?_, fun t other => ?_⟩
  · show (w.modRound r.tag f).round? r.tag = _
    rw [round?_modRound w r.tag h, if_pos rfl, there]
    rfl
  · show (w.modRound r.tag f).round? t = _
    rw [round?_modRound w r.tag h, if_neg other]

theorem hearKey_heard (there : s.round? r.tag = some r) (open_ : r.state ≠ .won) : KeyHeard r k s (s.hearKey r k) := by
  unfold KeyHeard
  intro heard lower bids unsent
  have heard_eq : heard = r.hearing k :=
    congrArg (fun b => { r with best := some b }) (lowerKey_eq r.best k).symm
  have shown : (s.modRound r.tag (Round.hearing k)).round? r.tag = some (r.hearing k) := by
    rw [round?_modRound s r.tag (f := Round.hearing k) (fun _ => rfl), if_pos rfl, there]
    rfl
  have others : ∀ t, t ≠ r.tag → (s.modRound r.tag (Round.hearing k)).round? t = s.round? t := fun t other => by
    rw [round?_modRound s r.tag (f := Round.hearing k) (fun _ => rfl), if_neg other]
  rw [heard_eq]
  by_cases h : lower ∧ bids
  · obtain ⟨⟨own, mine, below⟩, state⟩ := h
    obtain ⟨waiting, sent, queued⟩ := hearKey_lower (s := s) mine ((BidKey.lt_iff k own).mpr below)
    have hears : lower := ⟨own, mine, below⟩
    rcases state with state | state | state
    · rw [waiting state]
      obtain ⟨now, rest⟩ := round?_cleared (w := s.modRound r.tag (Round.hearing k)) (r := r.hearing k)
        (f := fun x => { x with state := .withdrawn, delayEnd := none }) shown fun _ => rfl
      exact ⟨fun t other => (rest t other).trans (others t other), fun none => absurd ⟨hears, .inl state⟩ none,
        fun _ _ => rfl, fun _ _ => ⟨rfl, now⟩, fun _ other => by simp [state] at other,
        fun _ other => by simp [state] at other⟩
    · rw [queued state]
      have unsent_iff : unsent ↔ r.bidFrame.any s.bidUnsent = true := by
        cases frame : r.bidFrame with
        | none => simp [unsent, frame]
        | some n => simp [unsent, frame, bidUnsent_iff]
      obtain ⟨now, rest⟩ := round?_cleared (w := ({ s with lif := s.lif.without r.bidFrame } : State).modRound r.tag
          (Round.hearing k)) (r := r.hearing k)
        (f := fun x => { x with state := if r.bidFrame.any s.bidUnsent = true then .withdrawn else .lost }) shown
          fun _ => rfl
      refine ⟨fun t other => (rest t other).trans (others t other), fun none => absurd ⟨hears, .inr (.inl state)⟩ none,
        fun _ _ => rfl, fun _ other => by simp [state] at other, fun _ other => by simp [state] at other,
        fun _ _ => ⟨rfl, fun u => ?_, fun u => ?_⟩⟩
      · refine now.trans ?_
        rw [if_pos (unsent_iff.mp u)]
      · refine now.trans ?_
        rw [if_neg (mt unsent_iff.mpr u)]
    · rw [sent state]
      obtain ⟨now, rest⟩ := round?_cleared (w := s.modRound r.tag (Round.hearing k)) (r := r.hearing k)
        (f := fun x => { x with state := .lost }) shown fun _ => rfl
      exact ⟨fun t other => (rest t other).trans (others t other), fun none => absurd ⟨hears, .inr (.inr state)⟩ none,
        fun _ _ => rfl, fun _ other => by simp [state] at other, fun _ _ => ⟨rfl, now⟩,
        fun _ other => by simp [state] at other⟩
  · have shows : s.hearKey r k = s.modRound r.tag (Round.hearing k) := by
      refine hearKey_shows open_ ?_
      by_cases low : lower
      · refine .inr ?_
        have none : ¬ bids := fun b => h ⟨low, b⟩
        cases state : r.state <;> simp_all [bids]
      · exact .inl fun own mine => by
          simpa using mt (BidKey.lt_iff k own).mp fun below => low ⟨own, mine, below⟩
    rw [shows]
    exact ⟨others, fun _ => ⟨shown, rfl, rfl⟩, fun l b => absurd ⟨l, b⟩ h, fun l b => absurd ⟨l, .inl b⟩ h,
      fun l b => absurd ⟨l, .inr (.inr b)⟩ h, fun l b => absurd ⟨l, .inr (.inl b)⟩ h⟩

end

/-! ### O31: bids and keys (R13, R14) -/

theorem bidDelayEnd_waits {tag : Sys2Proof.Tag} {s : State} (on : s.powered = true)
    (h : ∀ r, s.round? tag = some r → r.state ≠ .waiting) : exec (.bidDelayEnd tag) s = .next s := by
  show Host.Outcome.next (s.event _) = _
  rw [State.event_on on]
  cases found : s.round? tag with
  | none => rfl
  | some r =>
    have := h r found
    cases state : r.state <;> simp_all

theorem bidDelayEnd_bids {tag : Sys2Proof.Tag} {r : Round} {d : Nat} {s : State} (on : s.powered = true)
    (found : s.round? tag = some r) (waits : r.state = .waiting) (delay : r.delayEnd = some d) :
    exec (.bidDelayEnd tag) s = .next ((s.advanceTo d).endDelay r) := by
  show Host.Outcome.next (s.event _) = _
  rw [State.event_on on]
  simp only [found, waits, delay]

/-- A key heard changes the rounds, the marks and LIF's queue alone (R13). -/
theorem hearKey_changes (s : State) (r : Round) (k : BidKey) : ∃ l rounds berths,
    s.hearKey r k = { s with lif := l, bal := { s.bal with rounds := rounds, berths := berths } } := by
  by_cases won : r.state = .won
  · unfold State.hearKey
    rw [if_pos won]
    exact ⟨_, _, _, rfl⟩
  by_cases lower : ∃ own, r.ownKey = some own ∧ k.lt own = true
  · obtain ⟨own, mine, below⟩ := lower
    obtain ⟨waiting, sent, queued⟩ := hearKey_lower (s := s) mine below
    cases state : r.state with
    | waiting => exact ⟨_, _, _, waiting state⟩
    | bidQueued => exact ⟨_, _, _, queued state⟩
    | bidSent => exact ⟨_, _, _, sent state⟩
    | withdrawn => exact ⟨_, _, _, hearKey_shows won (.inr (.inl state))⟩
    | lost => exact ⟨_, _, _, hearKey_shows won (.inr (.inr (.inl state)))⟩
    | noFit => exact ⟨_, _, _, hearKey_shows won (.inr (.inr (.inr state)))⟩
    | won => exact absurd state won
  · exact ⟨_, _, _, hearKey_shows won (.inl fun own mine => by simpa using fun below => lower ⟨own, mine, below⟩)⟩

theorem hearKey_pnp (s : State) (r : Round) (k : BidKey) : (s.hearKey r k).pnp = s.pnp := by
  obtain ⟨l, rounds, berths, changes⟩ := hearKey_changes s r k
  rw [changes]

theorem exec_bidFrame {src : RxSource} {f : Frame} {note : Option Nat} {s u : State} (on : s.powered = true)
    (got : s.takeRx 13 src = some (f, note, u)) :
    (u.round? ⟨f.num 0 1, f.num 1 1⟩ = none → exec (.bidFrame src) s = .next u) ∧
    (∀ r, u.round? ⟨f.num 0 1, f.num 1 1⟩ = some r → exec (.bidFrame src) s = .next
      (if ownBid r note = true then u.hearKey r ⟨f.keyField 0 10, f.sender⟩ else u)) := by
  have runs : exec (.bidFrame src) s = .next _ := congrArg Host.Outcome.next (State.frameEvent_taken on got)
  refine ⟨fun none => runs.trans ?_, fun r found => runs.trans ?_⟩
  · rw [none]
  · rw [found]

theorem ownBid_iff (r : Round) (note : Option Nat) : ownBid r note = true ↔ ∀ n, note = some n → r.bidFrame = some n := by
  cases note <;> simp [ownBid]

theorem exec_bidReport {rep : Report} {rest : List Report} {s : State} (on : s.powered = true)
    (took : takeFirst (fun x => x.frame.kind == 13) s.lif.reports = some (rep, rest)) :
    (s.bal.rounds.find? (fun r => r.bidFrame == some rep.serial) = none →
      exec .bidReport s = .next { s with lif := { s.lif with reports := rest } }) ∧
    (∀ r, s.bal.rounds.find? (fun r => r.bidFrame == some rep.serial) = some r → exec .bidReport s = .next
      (State.bidOutcome r rep.sent { s with lif := { s.lif with reports := rest } })) := by
  have runs : exec .bidReport s = .next _ := congrArg Host.Outcome.next (State.reportEvent_taken on took)
  refine ⟨fun none => runs.trans ?_, fun r found => runs.trans ?_⟩
  · simp only [none]
  · simp only [found]

/-- A round whose BID was sent, its own key heard with it (R14). -/
def Round.sentBid (r : Round) : Round :=
  { r with
    state := .bidSent
    best := match r.ownKey, r.best with
      | some own, some b => some (if own.score < b.score ∨
          (own.score = b.score ∧ own.station < b.station) then own else b)
      | some own, none => some own
      | none, _ => r.best }

theorem bidOutcome_queued {r : Round} {s : State} (queued : r.state = .bidQueued) :
    s.bidOutcome r true = s.modRound r.tag Round.sentBid ∧
    s.bidOutcome r false = (s.modRound r.tag fun x => { x with state := .withdrawn }).clearMark r.tag := by
  unfold State.bidOutcome
  simp only [queued, bne_self_eq_false, Bool.false_eq_true, if_false, if_true, and_true]
  refine congrArg (fun f => s.modRound r.tag f) (funext fun x => ?_)
  unfold Round.sentBid
  cases x.ownKey with
  | none => rfl
  | some own =>
    cases best : x.best with
    | none => rfl
    | some b =>
      simp only [lowerKey_eq]

/-- A round of a table without twins is the one its tag finds. -/
theorem round?_of_apart {s : State} {r : Round} (apart : RoundsApart s) (there : r ∈ s.bal.rounds) :
    s.round? r.tag = some r := by
  obtain ⟨before, after, split⟩ := List.append_of_mem there
  unfold RoundsApart at apart
  rw [split, List.map_append, List.map_cons, List.nodup_append] at apart
  have fresh : before.find? (fun x => x.tag == r.tag) = none := by
    refine List.find?_eq_none.mpr fun x hx => ?_
    simpa using apart.2.2 _ (List.mem_map_of_mem hx) _ (List.mem_cons_self ..)
  simp [State.round?, split, List.find?_append, fresh]

/-- Settles O31: the delay's end, the keys heard and the BID's report. -/
theorem bidsAndKeysHeard : Obligations.BidsAndKeysHeard := by
  refine ⟨fun tag s on => ⟨bidDelayEnd_waits on, fun r k d found waits delay own => ?_⟩,
    fun src f note s u on got => ?_, fun rep rest s on took => ?_⟩
  · have runs := bidDelayEnd_bids on found waits delay
    obtain rfl := round?_tag s tag found
    rw [endDelay_eq own] at runs
    have bal := queueFrame_bal ((s.advanceTo d).modRound r.tag (Round.bidding (s.advanceTo d).lif.serial))
      (bidFrame (s.advanceTo d).me k.score r.tag)
    have there : (s.advanceTo d).round? r.tag = some r := (round?_congr (advanceTo_bal s d) _).trans found
    refine ⟨_, runs, ?_, fun t other => ?_, ?_, ?_, fun line room => ?_, frame_of_runs runs⟩
    · rw [round?_congr bal, round?_modRound _ r.tag (f := Round.bidding _) (fun _ => rfl), if_pos rfl, there,
        advanceTo_lif]
      rfl
    · rw [round?_congr bal, round?_modRound _ r.tag (f := Round.bidding _) (fun _ => rfl), if_neg other]
      exact round?_congr (advanceTo_bal s d) t
    · exact (congrArg Bal.berths bal).trans (by simp [State.modRound])
    · exact (within_queueFrame _ _).frame .elapsed (by decide)
    · obtain ⟨g, there, note, same⟩ := queueFrame_mem (kind := 13)
        (s := (s.advanceTo d).modRound r.tag (Round.bidding (s.advanceTo d).lif.serial))
        (fields := [(10, k.score), (5, r.tag.station), (4, r.tag.seq)])
        (data := beBytes 1 r.tag.station ++ beBytes 1 r.tag.seq) (by simpa using line) (by simpa using room) s.me
      refine ⟨g, ?_, note.trans ?_, same⟩
      · rw [show (s.advanceTo d).me = s.me by simp [State.me]]
        exact there
      · simp
  · intro tag
    have runs := exec_bidFrame on got
    have received := State.takeRx_frame got
    obtain ⟨rx, loop, rfl⟩ := takeRx_eq got
    obtain ⟨gone, found⟩ := runs
    refine ⟨gone, fun r there => ⟨fun h => (found r there).trans ?_, fun open_ own => ?_⟩⟩
    · rcases h with won | ⟨n, rfl, other⟩
      · unfold State.hearKey
        rw [if_pos won, ite_self]
      · rw [if_neg fun own => other ((ownBid_iff r _).mp own n rfl)]
    · have hears := found r there
      rw [if_pos ((ownBid_iff r note).mpr own)] at hears
      have tag_ : r.tag = tag := round?_tag _ _ there
      refine ⟨_, hears, hearKey_heard ((congrArg _ tag_).trans there) open_, ?_⟩
      exact (received.andThen (within_hearKey _ r _) : Within [.lif, .bal] s _).quiet (hearKey_pnp _ r _)
  · intro v
    obtain ⟨gone, found⟩ := exec_bidReport on took
    refine ⟨fun past => ?_, fun r there queued apart => ?_⟩
    · cases named : s.bal.rounds.find? (fun r => r.bidFrame == some rep.serial) with
      | none => exact gone named
      | some r =>
        refine (found r named).trans ?_
        have : r.state ≠ .bidQueued   := past r (List.mem_of_find?_eq_some named) (by simpa using List.find?_some named)
        unfold State.bidOutcome
        rw [if_pos (bne_iff_ne.mpr this)]
    · have runs := found r there
      have at_ : v.round? r.tag = some r := round?_of_apart apart (List.mem_of_find?_eq_some there)
      obtain ⟨yes, no⟩ := bidOutcome_queued (s := v) queued
      cases sent : rep.sent with
      | true =>
        rw [sent, yes] at runs
        refine ⟨_, r.sentBid, runs, rfl, ?_, fun t other => ?_, fun _ => ⟨rfl, rfl⟩, fun h => absurd h (by simp),
          frame_of_runs runs⟩
        · rw [round?_modRound v r.tag (f := Round.sentBid) (fun _ => rfl), if_pos rfl, at_]
          rfl
        · rw [round?_modRound v r.tag (f := Round.sentBid) (fun _ => rfl), if_neg other]
          rfl
      | false =>
        rw [sent, no] at runs
        obtain ⟨now, rest⟩ := round?_cleared (f := fun x => { x with state := .withdrawn }) at_ fun _ => rfl
        exact ⟨_, { r with state := .withdrawn }, runs, rfl, now, rest, fun h => absurd h (by simp),
          fun _ => ⟨rfl, rfl⟩, frame_of_runs runs⟩

end Sys2Proof.Machine
end

section
/-! PROOFS. The end of a round (01): the window end that wins or discards, the watch end, the ASSIGNs heard and the
await of an origination. -/

namespace Sys2Proof.Machine

set_option Elab.async false

/-! ### Discarding a round (R16, R22) -/

/-- The rounds without those of a tag. -/
def untagged (t : Sys2Proof.Tag) (l : List Round) : List Round := l.filter fun r => r.tag != t

section
variable (s : State) (r : Round)

theorem discardRound_eq : s.discardRound r = { s with
    lif := if r.state = .bidQueued then s.lif.without r.bidFrame else s.lif
    bal := { s.bal with
      rounds := untagged r.tag s.bal.rounds
      berths := unmark r.tag s.bal.berths } } := by
  unfold State.discardRound
  rw [withdrawBid_eq]
  split <;> rfl

theorem discardRound_round? (t : Sys2Proof.Tag) :
    (s.discardRound r).round? t = if t = r.tag then none else s.round? t := by
  rw [← round?_dropRound s r.tag t, discardRound_eq]
  rfl

end

/-! ### The window end (R16, R17) -/

section
variable {tag : Sys2Proof.Tag} {r : Round} {s : State}

theorem exec_windowEnd (on : s.powered = true) (found : s.round? tag = some r) : exec (.windowEnd tag) s =
    .next (if r.state = .won then s else (s.advanceTo r.windowEnd).endWindow r) := by
  show Host.Outcome.next (s.event _) = _
  rw [State.event_on on]
  simp only [found]

/-- A round won by the booking of a record (R17). -/
def Round.wonBy (n : Nat) (r : Round) : Round :=
  { r with
    state := .won
    watchEnd := some (r.windowEnd + 500000)
    occupancy := some n }

/-- A round wins with its BID sent and its own key the best heard (R16). -/
theorem endWindow_wins {b : Nat} {k : BidKey} (sent : r.state = .bidSent) (best : r.best = r.ownKey)
    (candidate : r.candidate = some b) (own : r.ownKey = some k) :
    (s.createOcc (r.stay b) = none → s.endWindow r = (s.discardRound r).setFlag .berthForfeit) ∧
    (∀ n w, s.createOcc (r.stay b) = some (n, w) → s.endWindow r =
      ((w.clearMark r.tag).modRound r.tag (Round.wonBy n)).queueFrame
          (assignFrame w.me r.tag k.score b n)) := by
  unfold State.endWindow State.winRound
  have wins : (decide (r.state = .bidSent) && r.ownKey.isSome && r.best == r.ownKey) = true := by
    simp [sent, best, own]
  rw [if_pos wins]
  simp only [candidate, own]
  refine ⟨fun none => ?_, fun n w made => ?_⟩
  · simp only [none]
  · simp only [made]
    rfl

theorem endWindow_discards (h : ¬ (r.state = .bidSent ∧ r.ownKey.isSome = true ∧ r.best = r.ownKey ∧
    r.candidate.isSome = true)) : s.endWindow r = s.discardRound r := by
  unfold State.endWindow
  split
  · rename_i wins
    simp only [Bool.and_eq_true, decide_eq_true_eq, beq_iff_eq] at wins
    have none : r.candidate = none := by
      cases c : r.candidate with
      | none => rfl
      | some b => exact absurd ⟨wins.1.1, wins.1.2, wins.2, by simp [c]⟩ h
    unfold State.winRound
    rw [none]
  · rfl

end

/-- Settles O32: the window end wins or discards, the watch end keeps the stay, the ASSIGN's report nothing. -/
theorem windowEndWinsOrDiscards : Obligations.WindowEndWinsOrDiscards := by
  refine ⟨fun tag r s on found => ?_, fun tag r d s on found won due => ?_, fun rep rest s on took => ?_⟩
  · intro wins v unmarked
    have ends := exec_windowEnd on found
    obtain rfl := round?_tag s tag found
    have later : Within [.elapsed, .sch] s v := within_advanceTo s _
    have bal : v.bal = s.bal := advanceTo_bal s _
    refine ⟨fun open_ loses => ?_, fun won b k candidate own => ?_⟩
    · rw [if_neg open_, endWindow_discards loses] at ends
      refine ⟨_, ends, ?_, fun t other => ?_, ?_, fun queued => ?_, fun free => ?_, ?_, ?_⟩
      · rw [discardRound_round?, if_pos rfl]
      · rw [discardRound_round?, if_neg other]
        exact round?_congr bal t
      · rw [discardRound_eq]
        exact congrArg (unmark r.tag) (congrArg Bal.berths bal)
      · rw [discardRound_eq, if_pos queued, advanceTo_lif]
        rfl
      · rw [discardRound_eq, if_neg free, advanceTo_lif]
      · rw [discardRound_eq]
      · exact (later.andThen (within_discardRound v r) : Within [.elapsed, .sch, .lif, .bal] s _).quiet
          ((discardRound_pnp v r).trans (advanceTo_pnp s _))
    · obtain ⟨sent, -, best, -⟩ := won
      rw [if_neg (by simp [sent])] at ends
      obtain ⟨forfeit, books⟩ := endWindow_wins (s := v) sent best candidate own
      refine ⟨fun full => ?_, fun n w made => ?_⟩
      · rw [forfeit full] at ends
        refine ⟨_, ends, ?_, fun t other => ?_, ?_, ?_, hasFlag_setFlag _ _, ?_⟩
        · exact (discardRound_round? v r r.tag).trans (if_pos rfl)
        · exact ((discardRound_round? v r t).trans (if_neg other)).trans (round?_congr bal t)
        · show (v.discardRound r).bal.berths = _
          rw [discardRound_eq]
          exact congrArg (unmark r.tag) (congrArg Bal.berths bal)
        · show (v.discardRound r).lif = _
          rw [discardRound_eq, if_neg (by simp [sent]), advanceTo_lif]
        · exact ((later.andThen (within_discardRound v r) : Within [.elapsed, .sch, .lif, .bal] s _).andThen
            (within_setFlag _ _) : Within [.elapsed, .sch, .lif, .bal] s _).frame
      · rw [books n w made] at ends
        have booked := within_createOcc v made
        have bal' : w.bal = s.bal := (booked.frame .bal (by decide)).trans bal
        have lif' : w.lif = s.lif := booked.lif.trans (advanceTo_lif s _)
        have me' : w.me = s.me := by
          have : w.straps = s.straps := (booked.frame .straps (by decide)).trans (advanceTo_straps s _)
          simp [State.me, this]
        have same : ∀ t, (w.clearMark r.tag).round? t = s.round? t := fun t =>
          (round?_congr bal' t : w.round? t = s.round? t)
        have won := fun t => (round?_congr (queueFrame_bal ((w.clearMark r.tag).modRound r.tag (Round.wonBy n))
          (assignFrame w.me r.tag k.score b n)) t).trans
          (round?_modRound (w.clearMark r.tag) r.tag (f := Round.wonBy n) (fun _ => rfl) t)
        refine ⟨_, ends, ?_, ?_, ?_, fun t other => ?_, fun line room => ?_, frame_of_runs ends⟩
        · rw [won, if_pos rfl, same, found]
          rfl
        · exact (within_queueFrame _ _).occ
        · exact (congrArg Bal.berths (queueFrame_bal _ _)).trans (congrArg (unmark r.tag) (congrArg Bal.berths bal'))
        · rw [won, if_neg other, same]
        · obtain ⟨g, there, note, same⟩ := queueFrame_mem (kind := 14)
            (s := (w.clearMark r.tag).modRound r.tag (Round.wonBy n))
            (fields := [(5, r.tag.station), (8, r.tag.seq)])
            (data := beBytes 1 r.tag.station ++ beBytes 1 r.tag.seq ++ beBytes 2 k.score ++ beBytes 1 b ++ beBytes 1 n)
            ((congrArg Lif.state lif').trans line) ((congrArg (fun l : Lif => l.tx.length) lif').trans_lt room) s.me
          refine ⟨g, ?_, note.trans (congrArg Lif.serial lif'), same⟩
          rw [me']
          exact there
  · have ends : exec (.watchEnd tag) s = .next ((s.advanceTo d).discardRound r) := by
      show Host.Outcome.next (s.event _) = _
      rw [State.event_on on]
      simp only [found, won, if_true, due, Option.getD_some]
    obtain rfl := round?_tag s tag found
    have shape := discardRound_eq (s.advanceTo d) r
    rw [if_neg (by simp [won])] at shape
    have later : Within [.elapsed, .sch] s (s.advanceTo d) := within_advanceTo s _
    refine ⟨_, ends, ?_, ?_, ?_, fun t other => ?_, ?_, ?_⟩
    · rw [discardRound_round?, if_pos rfl]
    · rw [shape, advanceTo_occ]
    · rw [shape, advanceTo_lif]
    · rw [discardRound_round?, if_neg other]
      exact round?_congr (advanceTo_bal s d) t
    · rw [shape]
    · rw [shape]
      exact (later.andThen (within_bal _ _) : Within [.elapsed, .sch, .bal] s _).quiet (advanceTo_pnp s _)
  · exact congrArg Host.Outcome.next (State.reportEvent_taken on took)

/-! ### O33: ASSIGNs and the await (R15, R18, R20) -/

theorem exec_assignFrame {src : RxSource} {f : Frame} {note : Option Nat} {s u : State} (on : s.powered = true)
    (got : s.takeRx 14 src = some (f, note, u)) : exec (.assignFrame src) s = .next
      ((u.assignRound ⟨f.num 0 1, f.num 1 1⟩ ⟨f.num 2 2, f.sender⟩).awaitHear ⟨f.num 0 1, f.num 1 1⟩
        ⟨⟨f.num 2 2, f.sender⟩, f.num 4 1, f.num 5 1⟩) :=
  congrArg Host.Outcome.next (State.frameEvent_taken on got)

section
variable {s : State} {r : Round} {t : Sys2Proof.Tag} {k : BidKey}

theorem assignRound_none (h : s.round? t = none) : s.assignRound t k = s := by
  unfold State.assignRound
  simp only [h]

theorem assignRound_open (h : s.round? t = some r) (open_ : r.state ≠ .won) : s.assignRound t k = s.hearKey r k := by
  unfold State.assignRound
  simp only [h, open_, if_false]

theorem assignRound_won {own : BidKey} (h : s.round? t = some r) (won : r.state = .won) (mine : r.ownKey = some own) :
    s.assignRound t k = if k.lt own = true then s.loseDouble r else s := by
  unfold State.assignRound
  simp only [h, won, if_true, mine]

theorem assignRound_keyless (h : s.round? t = some r) (won : r.state = .won) (mine : r.ownKey = none) :
    s.assignRound t k = s := by
  unfold State.assignRound
  simp only [h, won, if_true, mine]

/-- A booking lost to a better ASSIGN (R18): it leaves the table where it still stands, and the round goes. -/
theorem loseDouble_eq (s : State) (r : Round) : ∃ v : State,
    s.loseDouble r = (v.setFlag .berthDouble).discardRound r ∧ v.bal = s.bal ∧
    (∀ n o, r.occupancy = some n → s.occ? n = some o → o.number = n → o.state = .booked → o.origin = some r.tag →
      v = s.removeOcc n) := by
  refine ⟨_, rfl, ?_, fun n o named there number booked origin => ?_⟩
  · cases r.occupancy.bind s.occ? with
    | none => rfl
    | some o => exact apply_ite State.bal _ _ _ |>.trans (ite_self _)
  · have found : r.occupancy.bind s.occ? = some o := by rw [named]; exact there
    simp only [found, booked, origin, number]
    rfl

theorem loseDouble_round? (s : State) (r : Round) (h : s.round? t = some r) : (s.loseDouble r).round? t = none := by
  obtain ⟨v, shape, bal, -⟩ := loseDouble_eq s r
  rw [shape, discardRound_round?, if_pos (round?_tag s t h).symm]

theorem removeOcc_occ? (s : State) (n m : Nat) :
    (s.removeOcc n).occ? m = if m = n then none else s.occ? m :=
  lookupKey_eraseKey Occupancy.number n m s.occ.records

/-- The ASSIGN for a round leaves the await as it was (R18). -/
theorem assignRound_await (s : State) (t : Sys2Proof.Tag) (k : BidKey) :
    (s.assignRound t k).bal.await = s.bal.await := by
  cases h : s.round? t with
  | none => rw [assignRound_none h]
  | some r =>
    by_cases won : r.state = .won
    · cases mine : r.ownKey with
      | none => rw [assignRound_keyless h won mine]
      | some own =>
        rw [assignRound_won h won mine]
        split
        · obtain ⟨v, shape, bal, -⟩ := loseDouble_eq s r
          rw [shape, discardRound_eq]
          show v.bal.await = _
          rw [bal]
        · rfl
    · rw [assignRound_open h won]
      obtain ⟨l, rounds, berths, changes⟩ := hearKey_changes s r k
      rw [changes]

theorem awaitHear_await (s : State) (t : Sys2Proof.Tag) (h : AssignHeard) {a : Await} (there : s.bal.await = some a) :
    ∃ a', (s.awaitHear t h).bal.await = some a' ∧ a' = { a with best := a'.best } ∧
      (a.tag ≠ t → a'.best = a.best) ∧ (a.tag = t → a.best = none → a'.best = some h) ∧
      (∀ b, a.tag = t → a.best = some b → a'.best = some
        (if h.key.score < b.key.score ∨ (h.key.score = b.key.score ∧ h.key.station < b.key.station)
          then h else b)) := by
  unfold State.awaitHear
  simp only [there, Option.map_some]
  refine ⟨_, rfl, ?_, fun other => ?_, fun same none => ?_, fun b same best => ?_⟩
  · split
    · split
      · rfl
      · split <;> rfl
    · rfl
  · rw [if_neg other]
  · rw [if_pos same]
    simp only [none]
  · rw [if_pos same]
    simp only [best]
    by_cases lower : h.key.score < b.key.score ∨ (h.key.score = b.key.score ∧ h.key.station < b.key.station)
    · rw [if_pos ((BidKey.lt_iff _ _).mpr lower), if_pos lower]
    · rw [if_neg (mt (BidKey.lt_iff _ _).mp lower), if_neg lower, best]

end

/-- Settles O33: the ASSIGNs heard, the report of a BERTH REQUEST and the await's deadline. -/
theorem awaitTakesTheBestAssign : Obligations.AwaitTakesTheBestAssign := by
  refine ⟨fun src f note s u on got => ?_, fun rep rest a s on took waits mine => ?_, fun a d s on waits due => ?_⟩
  · intro tag h
    have runs := exec_assignFrame on got
    obtain ⟨rx, loop, rfl⟩ := takeRx_eq got
    let u : State := { s with lif := { s.lif with rx := rx, loop := loop } }
    have pnp : ∀ w : State, (w.awaitHear tag h).pnp = w.pnp := fun _ => rfl
    refine ⟨_, runs, fun a there => awaitHear_await _ tag h ((assignRound_await u tag h.key).trans there),
      fun r own there won mine => ⟨fun worse => ?_, fun better => ?_⟩, fun r there open_ => ?_, fun none => ?_,
      frame_of_runs runs⟩
    · have same : u.assignRound tag h.key = u := by
        rw [assignRound_won (s := u) there won mine, if_neg]
        intro below
        have := (BidKey.lt_iff _ _).mp below
        omega
      rw [same]
      exact ⟨rfl, rfl, rfl⟩
    · have lost : u.assignRound tag h.key = u.loseDouble r := by
        rw [assignRound_won (s := u) there won mine, if_pos ((BidKey.lt_iff _ _).mpr better)]
      rw [lost]
      refine ⟨loseDouble_round? u r there, ?_, fun n o named stands number booked origin => ?_⟩
      · obtain ⟨v, shape, -⟩ := loseDouble_eq u r
        show (u.loseDouble r).hasFlag .berthDouble = true
        rw [shape]
        exact (within_discardRound _ r).hasFlag (hasFlag_setFlag _ _)
      · obtain ⟨v, shape, -, gone⟩ := loseDouble_eq u r
        show (u.loseDouble r).occ? n = none
        rw [shape, discardRound_eq, gone n o named stands number booked origin]
        exact (removeOcc_occ? u n n).trans (if_pos rfl)
    · have heard := assignRound_open (s := u) (k := h.key) there open_
      have tag_ : r.tag = tag := round?_tag _ _ there
      rw [heard]
      refine ⟨hearKey_heard (s := u) ((congrArg u.round? tag_).trans there) open_, ?_, hearKey_pnp u r _⟩
      exact (within_hearKey u r _).occ
    · rw [assignRound_none (s := u) none]
      exact ⟨rfl, rfl, rfl⟩
  · refine congrArg Host.Outcome.next ((State.reportEvent_taken on took).trans ?_)
    simp only [waits, mine, if_true]
    cases sent : rep.sent <;> simp [State.awaitDeadline, Config.watchUs]
  · show Host.Outcome.next (s.event _) = _
    rw [State.event_on on]
    simp only [waits, due]
    have pnp : (s.advanceTo d).pnp = s.pnp := advanceTo_pnp s d
    have bal : (s.advanceTo d).bal = s.bal := advanceTo_bal s d
    generalize s.advanceTo d = v at *
    refine congrArg Host.Outcome.next ?_
    show ({ v with
      bal := { v.bal with await := none, result := s.awaitResult a }
      pnp := v.pnp.flagged Flag.roundDone.bit } : State) = _
    rw [pnp, bal]
    cases best : a.best <;> simp only [State.awaitResult, best]

end Sys2Proof.Machine
end

section
/-! PROOFS. OCC's operations (02): a record changed, its account's standing, its removal and its closure. -/

namespace Sys2Proof.Machine

set_option Elab.async false

/-! ### A record changed -/

section
variable {s : State} {n m : Nat} {r : Occupancy} {f : Occupancy → Occupancy}

theorem modOcc_self (live : s.occ? n = some r) (hf : ∀ r, (f r).number = r.number) :
    (s.modOcc n f).occ? n = some (f r) := by
  rw [modOcc_occ? s hf, if_pos rfl, live]
  rfl

theorem modOcc_other (other : m ≠ n) (hf : ∀ r, (f r).number = r.number) : (s.modOcc n f).occ? m = s.occ? m := by
  rw [modOcc_occ? s hf, if_neg other]

theorem modifyKey_modifyKey {α : Type} {key : α → Nat} {f g : α → α} (hf : ∀ x, key (f x) = key x) (n : Nat)
    (l : List α) : modifyKey key n g (modifyKey key n f l) = modifyKey key n (fun x => g (f x)) l := by
  unfold modifyKey
  rw [List.map_map]
  refine List.map_congr_left fun x _ => ?_
  by_cases h : key x = n <;> simp [h, hf]

/-- Two changes of one record are one change. -/
theorem modOcc_modOcc {g : Occupancy → Occupancy} (hf : ∀ r, (f r).number = r.number) :
    (s.modOcc n f).modOcc n g = s.modOcc n fun r => g (f r) :=
  congrArg (fun l => ({ s with occ := { s.occ with records := l } } : State))
    (modifyKey_modifyKey hf n s.occ.records)

theorem occ?_number (live : s.occ? n = some r) : r.number = n := (lookupKey_some live).2

theorem setFlagIf_eq (s : State) (c : Bool) (g : Flag) : ∃ p, s.setFlagIf c g = { s with pnp := p } := by
  cases c <;> exact ⟨_, rfl⟩

/-! ### The standing (R33, R36) -/

/-- The account enters BARRED once its standing is computed: it is overdue beyond its grace (R36). -/
def Account.bars (a : Account) (grace : Nat) (now : Time) : Bool :=
  (a.computed now).state == .overdue && (a.computed now).overdueSince.any (graceOver grace now)

/-- The account with its standing computed and its overdue check run (R33, R36). -/
def Account.settled (a : Account) (grace : Nat) (now : Time) : Account :=
  { a.computed now with state := if a.bars grace now = true then .barred else (a.computed now).state }

theorem overdueCheck_bars {since : Time} (live : s.occ? n = some r) (due : r.account.overdueSince = some since)
    (late : r.account.state = .overdue ∧ graceOver s.settings.overdueGrace s.now since = true) :
    s.overdueCheck n = (s.enterBarred n).setFlag .accountBarred := by
  unfold State.overdueCheck
  simp only [live, due, late.1, late.2, decide_true, Bool.and_self, if_true]

theorem overdueCheck_stays (live : s.occ? n = some r)
    (h : ∀ since, r.account.overdueSince = some since → r.account.state = .overdue →
      graceOver s.settings.overdueGrace s.now since = false) : s.overdueCheck n = s := by
  unfold State.overdueCheck
  simp only [live]
  cases due : r.account.overdueSince with
  | none => rfl
  | some since =>
    refine if_neg fun late => ?_
    simp only [Bool.and_eq_true, decide_eq_true_eq] at late
    exact absurd (h since due late.1) (by simp [late.2])

/-- Computing the standing writes the account of the record and tells SPC where it bars it (R33, R36, R37). -/
theorem computeStanding_eq (live : s.occ? n = some r) :
    let a := r.account.settled s.settings.overdueGrace s.now
    ∃ p, s.computeStanding n = { s.modOcc n (fun x => { x with account := a }) with
      pnp := p
      occ := { (s.modOcc n fun x => { x with account := a }).occ with
        notices := if r.account.bars s.settings.overdueGrace s.now = true
          then s.occ.notices ++ [⟨.barred, n, ⟨s.moments, s.now⟩⟩] else s.occ.notices } } := by
  intro a
  let c := r.account.computed s.now
  let w := s.modOcc n fun x => { x with account := c }
  let v := (w.setFlagIf (c.state == .low && r.account.state != .low) .accountLow).setFlagIf
    (c.state == .overdue && r.account.state != .overdue) .accountOverdue
  obtain ⟨p, shape⟩ : ∃ p, v = { w with pnp := p } := by
    obtain ⟨p, low⟩ := setFlagIf_eq w (c.state == .low && r.account.state != .low) .accountLow
    obtain ⟨q, due⟩ := setFlagIf_eq ({ w with pnp := p } : State) (c.state == .overdue && r.account.state != .overdue)
      .accountOverdue
    exact ⟨q, (congrArg (fun x : State => x.setFlagIf _ _) low).trans due⟩
  have runs : s.computeStanding n = v.overdueCheck n := by
    unfold State.computeStanding
    simp only [live]
    rfl
  have there : v.occ? n = some { r with account := c } := by
    rw [shape]
    exact modOcc_self (f := fun x => { x with account := c }) live fun _ => rfl
  have settings : v.settings = s.settings := by rw [shape]; rfl
  have now : v.now = s.now := by rw [shape]; rfl
  cases bars : r.account.bars s.settings.overdueGrace s.now with
  | true =>
    obtain ⟨low, since⟩ := Bool.and_eq_true_iff.mp bars
    obtain ⟨t, due, grace⟩ := (Option.any_eq_true _ _).mp since
    have barred : a = { c with state := .barred } := by
      show { c with state := if _ then _ else _ } = _
      rw [bars]
      rfl
    have late : ({ r with account := c } : Occupancy).account.state = .overdue := by simpa using low
    rw [runs, overdueCheck_bars there due ⟨late, by rw [settings, now]; exact grace⟩, shape, barred]
    refine ⟨p.flagged Flag.accountBarred.bit, ?_⟩
    refine congrArg (fun l => ({ s with
      pnp := p.flagged Flag.accountBarred.bit
      occ := { s.occ with
        records := l
        notices := s.occ.notices ++ [⟨.barred, n, ⟨s.moments, s.now⟩⟩] } } : State)) ?_
    exact modifyKey_modifyKey (f := fun x : Occupancy => { x with account := c })
      (g := fun x => { x with account := { x.account with state := .barred } }) (fun _ => rfl) n s.occ.records
  | false =>
    have same : a = c := by
      show { c with state := if _ then _ else _ } = c
      rw [bars]
      rfl
    rw [runs, overdueCheck_stays there, shape, same]
    · exact ⟨_, rfl⟩
    · intro t due low
      rw [settings, now]
      refine Bool.eq_false_iff.mpr fun grace => ?_
      have : r.account.bars s.settings.overdueGrace s.now = true :=
        Bool.and_eq_true_iff.mpr ⟨by simpa using low, (Option.any_eq_true _ _).mpr ⟨t, due, grace⟩⟩
      simp [bars] at this

/-- Entering LOW, OVERDUE or BARRED is flagged (R33, R36, R37). -/
theorem computeStanding_flags (live : s.occ? n = some r) :
    ((r.account.computed s.now).state = .low → r.account.state ≠ .low →
      (s.computeStanding n).hasFlag .accountLow = true) ∧
    ((r.account.computed s.now).state = .overdue → r.account.state ≠ .overdue →
      (s.computeStanding n).hasFlag .accountOverdue = true) ∧
    (r.account.bars s.settings.overdueGrace s.now = true → (s.computeStanding n).hasFlag .accountBarred = true) := by
  let c := r.account.computed s.now
  let w := s.modOcc n fun x => { x with account := c }
  let lowed := w.setFlagIf (c.state == .low && r.account.state != .low) .accountLow
  let v := lowed.setFlagIf (c.state == .overdue && r.account.state != .overdue) .accountOverdue
  have runs : s.computeStanding n = v.overdueCheck n := by
    unfold State.computeStanding
    simp only [live]
    rfl
  refine ⟨fun low new => ?_, fun due new => ?_, fun bars => ?_⟩
  · rw [runs]
    have set : lowed.hasFlag .accountLow = true := by
      show (State.setFlagIf _ _ _).hasFlag _ = true
      rw [show (c.state == .low && r.account.state != .low) = true by simp [c, low, new]]
      exact hasFlag_setFlag w _
    exact (within_overdueCheck v n).hasFlag ((within_setFlagIf _ _ _).hasFlag set)
  · rw [runs]
    have set : v.hasFlag .accountOverdue = true := by
      show (State.setFlagIf _ _ _).hasFlag _ = true
      rw [show (c.state == .overdue && r.account.state != .overdue) = true by simp [c, due, new]]
      exact hasFlag_setFlag lowed _
    exact (within_overdueCheck v n).hasFlag set
  · rw [runs]
    obtain ⟨p, shape⟩ : ∃ p, v = { w with pnp := p } := by
      obtain ⟨p, low⟩ := setFlagIf_eq w (c.state == .low && r.account.state != .low) .accountLow
      obtain ⟨q, due⟩ := setFlagIf_eq ({ w with pnp := p } : State)
        (c.state == .overdue && r.account.state != .overdue) .accountOverdue
      exact ⟨q, (congrArg (fun x : State => x.setFlagIf _ _) low).trans due⟩
    have there : v.occ? n = some { r with account := c } := by
      rw [shape]
      exact modOcc_self (f := fun x => { x with account := c }) live fun _ => rfl
    obtain ⟨low, since⟩ := Bool.and_eq_true_iff.mp bars
    obtain ⟨t, due, grace⟩ := (Option.any_eq_true _ _).mp since
    have late : ({ r with account := c } : Occupancy).account.state = .overdue := by simpa using low
    rw [overdueCheck_bars there due ⟨late, by rw [shape]; exact grace⟩]
    exact hasFlag_setFlag _ _

/-- The account keeps all but its standing (R33). -/
theorem Account.settled_fields (a : Account) (grace : Nat) (now : Time) :
    (a.settled grace now).balance = a.balance ∧ (a.settled grace now).limit = a.limit ∧
    (a.settled grace now).warn = a.warn ∧ (a.settled grace now).late = a.late ∧
    (a.settled grace now).overdueSince =
      if a.balance < -(a.limit : Int) then some (a.overdueSince.getD now) else none := by
  refine ⟨rfl, rfl, rfl, rfl, ?_⟩
  show (if a.standing = .overdue then _ else _) = _
  unfold Account.standing
  by_cases below : a.balance < -(a.limit : Int)
  · simp [below]
  · by_cases low : a.balance < a.warn <;> simp [below, low]

/-! ### The debit (R38) -/

/-- The balance a debit leaves. -/
def Account.debited (a : Account) (cents : Nat) : Account :=
  { a with balance := max (-99999999) (a.balance - cents) }

theorem debit_zero : s.debit n 0 = s := rfl

theorem debit_eq {cents : Nat} (live : s.occ? n = some r) (some_ : cents ≠ 0) :
    s.debit n cents = (s.modOcc n fun x => { x with account := x.account.debited cents }).computeStanding n := by
  unfold State.debit
  simp only [some_, if_false, live]
  rfl

/-! ### Removal and closure (R28, R31, R34) -/

theorem removeOcc_link? (s : State) (n m : Nat) :
    (s.removeOcc n).link? m = if m = n then none else s.link? m :=
  lookupKey_eraseKey Link.occ n m s.spc.links

theorem closureOf_is (s : State) (r : Occupancy) (reason : CloseReason) : IsClosureOf s r reason (closureOf s r reason) := by
  refine ⟨rfl, rfl, rfl, rfl, rfl, rfl, rfl, rfl, rfl, fun none => ?_, fun l some => ?_⟩
  · unfold closureOf
    simp only [none, and_self]
  · unfold closureOf
    simp only [some, and_self]

/-- A record closed: it leaves the table with its closure appended and CLOSURE ADDED flagged (R34). -/
structure Closed (n : Nat) (r : Occupancy) (reason : CloseReason) (s t : State) : Prop where
  gone     : t.occ? n = none
  others   : ∀ m, m ≠ n → t.occ? m = s.occ? m
  closures : t.occ.closures = s.occ.closures ++ [closureOf s r reason]
  flag     : t.hasFlag .closureAdded = true
  within   : Within [.occ, .spc] s t

theorem closeOcc_closed (live : s.occ? n = some r) (reason : CloseReason) :
    Closed n r reason s (s.closeOcc n reason) := by
  have runs : s.closeOcc n reason =
      (({ s with occ := { s.occ with closures := s.occ.closures ++ [closureOf s r reason] } } : State).setFlag
        .closureAdded).removeOcc n := by
    unfold State.closeOcc
    simp only [live]
  refine ⟨?_, fun m other => ?_, ?_, ?_, within_closeOcc s n reason⟩
  · rw [runs, removeOcc_occ?, if_pos rfl]
  · rw [runs, removeOcc_occ?, if_neg other]
    rfl
  · rw [runs]
    rfl
  · rw [runs]
    exact (within_removeOcc _ n).hasFlag (hasFlag_setFlag _ _)

theorem closureRoom_iff (s : State) : s.closureRoom = true ↔ s.occ.closures.length < 8 := by
  unfold State.closureRoom
  exact decide_eq_true_iff

theorem closureWaits_iff (r : Occupancy) : r.closureWaits = true ↔
    r.closureDue.isSome = true ∨ (r.state = .departing ∧ r.awaiting = false ∧ r.holds = []) := by
  simp [Occupancy.closureWaits, and_assoc]

/-- The removal test (R31): a record that does not wait stays; one that waits closes where the list has room, and
else stays, CLOSURE WAITING flagged for one without closure due. -/
theorem testRemoval_stays (live : s.occ? n = some r) (h : r.closureWaits = false) : s.testRemoval n = s := by
  obtain ⟨due, rest⟩ := Bool.or_eq_false_iff.mp h
  have none : r.closureDue = none := by simpa using due
  unfold State.testRemoval
  simp only [live, none]
  refine if_neg fun waits => ?_
  simp only [Bool.and_eq_true, decide_eq_true_eq] at waits
  simp [waits.1.1, waits.1.2, waits.2] at rest

theorem testRemoval_closes (live : s.occ? n = some r) (h : r.closureWaits = true) (room : s.closureRoom = true) :
    s.testRemoval n = s.closeOcc n (r.closureDue.getD .departed) := by
  unfold State.testRemoval
  simp only [live]
  cases due : r.closureDue with
  | some reason => simp only [room, if_true, Option.getD_some]
  | none =>
    have rest : (r.state == .departing && !r.awaiting && r.holds.isEmpty) = true := by
      simpa [Occupancy.closureWaits, due] using h
    have rest' : (decide (r.state = .departing) && !r.awaiting && r.holds.isEmpty) = true := by simpa using rest
    simp only [rest', room, if_true, Option.getD_none]

theorem testRemoval_full (live : s.occ? n = some r) (h : r.closureWaits = true) (full : s.closureRoom = false) :
    s.testRemoval n = if r.closureDue.isSome = true then s else s.setFlag .closureWaiting := by
  unfold State.testRemoval
  simp only [live]
  cases due : r.closureDue with
  | some reason => simp only [full, Bool.false_eq_true, if_false, Option.isSome_some, if_true]
  | none =>
    have rest : (decide (r.state = .departing) && !r.awaiting && r.holds.isEmpty) = true := by
      simpa [Occupancy.closureWaits, due] using h
    simp only [rest, full, if_true, Bool.false_eq_true, if_false, Option.isSome_none]

/-- What the removal test of a live record leaves (R31). -/
theorem testRemoval_says (live : s.occ? n = some r) :
    (∀ m, m ≠ n → (s.testRemoval n).occ? m = s.occ? m) ∧
    (r.closureWaits = false ∨ 8 ≤ s.occ.closures.length → (s.testRemoval n).occ? n = some r ∧
      (s.testRemoval n).occ = s.occ ∧ (s.testRemoval n).spc = s.spc ∧
      (r.closureWaits = true → r.closureDue = none → (s.testRemoval n).hasFlag .closureWaiting = true)) ∧
    (r.closureWaits = true → s.occ.closures.length < 8 →
      Closed n r (r.closureDue.getD .departed) s (s.testRemoval n)) := by
  have room := closureRoom_iff s
  cases waits : r.closureWaits with
  | false =>
    rw [testRemoval_stays live waits]
    exact ⟨fun _ _ => rfl, fun _ => ⟨live, rfl, rfl, fun h => absurd h (by simp)⟩, fun h => absurd h (by simp)⟩
  | true =>
    by_cases few : s.occ.closures.length < 8
    · rw [testRemoval_closes live waits (room.mpr few)]
      have closed := closeOcc_closed live (r.closureDue.getD .departed)
      refine ⟨closed.others, fun h => ?_, fun _ _ => closed⟩
      rcases h with h | h
      · exact absurd h (by simp)
      · exact absurd few (Nat.not_lt.mpr h)
    · rw [testRemoval_full live waits (by simpa using mt room.mp few)]
      cases due : r.closureDue with
      | none => exact ⟨fun _ _ => rfl, fun _ => ⟨live, rfl, rfl, fun _ _ => hasFlag_setFlag s _⟩,
          fun _ h => absurd h few⟩
      | some reason => exact ⟨fun _ _ => rfl, fun _ => ⟨live, rfl, rfl, fun _ h => by simp at h⟩,
          fun _ h => absurd h few⟩

/-- A record once it has departed (R30). -/
def State.departed (s : State) (r : Occupancy) : Occupancy :=
  { r with
    state := .departing
    graceEnd := some (s.now.addSec (s.settings.departureGrace * 3600))
    awaiting := (s.berthPoint r.berth).isSome }

/-- A departure writes the record, tells SPC and tests the record for removal (R30, R31). -/
theorem toDeparting_eq (live : s.occ? n = some r) : ∃ w : State, s.toDeparting n = w.testRemoval n ∧
    w.occ? n = some (s.departed r) ∧ (∀ m, m ≠ n → w.occ? m = s.occ? m) ∧
    w = { s with occ := { s.occ with
      records := w.occ.records
      notices := s.occ.notices ++ [⟨.departing, n, ⟨s.moments, s.now⟩⟩] } } := by
  have point : s.occPoint n = s.berthPoint r.berth := by
    unfold State.occPoint
    rw [live]
    rfl
  let f : Occupancy → Occupancy := fun x => { x with
    state := .departing
    graceEnd := some (s.now.addSec (s.settings.departureGrace * 3600))
    awaiting := (s.berthPoint r.berth).isSome }
  refine ⟨(s.modOcc n f).notify .departing n, ?_, ?_, fun m other => ?_, rfl⟩
  · unfold State.toDeparting
    rw [point]
  · exact modOcc_self (f := f) live fun _ => rfl
  · exact modOcc_other (f := f) other fun _ => rfl

end

end Sys2Proof.Machine
end

section
/-! PROOFS. The requests on stays (02): BOOK, CANCEL, ARRIVE and DEPART. -/

namespace Sys2Proof.Machine

set_option Elab.async false

/-! ### Creation (R26) -/

/-- A number is free while fewer are in use. -/
theorem lowestFree_isSome {used : List Nat} {n : Nat} (h : used.length < n) : (lowestFree used n).isSome = true := by
  cases found : lowestFree used n with
  | some k => rfl
  | none =>
    exfalso
    have all : (List.range n).map (· + 1) ⊆ used := fun k hk => by
      have := List.find?_eq_none.mp found k hk
      simpa using this
    have apart : ((List.range n).map (· + 1)).Nodup := List.Nodup.map (fun _ _ => Nat.succ.inj) List.nodup_range
    have := (List.Nodup.subperm apart all).length_le
    simp at this
    omega

section
variable {s : State} {v : NewStay}

theorem berthFree_iff_apart (b first nights : Nat) : s.berthFree b first nights = true ↔
    ¬ ∃ x ∈ s.occ.records, x.berth = b ∧ x.arrival < first + nights ∧ first < x.arrival + x.nights := by
  unfold State.berthFree shareNight
  simp only [List.all_eq_true, Bool.or_eq_true, bne_iff_ne, Bool.not_eq_true', Bool.and_eq_false_iff,
    decide_eq_false_iff_not]
  constructor
  · rintro h ⟨x, hx, berth, low, high⟩
    rcases h x hx with h | h | h
    · exact h berth
    · exact h low
    · exact h high
  · intro h x hx
    by_cases berth : x.berth = b
    · by_cases low : x.arrival < first + nights
      · exact .inr (.inr fun high => h ⟨x, hx, berth, low, high⟩)
      · exact .inr (.inl low)
    · exact .inl berth

theorem createOcc_full (h : 64 ≤ s.occ.records.length ∨ s.berthFree v.berth v.arrival v.nights = false) :
    s.createOcc v = none := by
  unfold State.createOcc
  split
  · rfl
  · rename_i room
    rw [if_pos]
    simpa using h.resolve_left room

/-- The record a creation makes with its standing computed (R26, R33): with nothing owed it is LOW or OPEN. -/
def State.bookedRecord (s : State) (n : Nat) (v : NewStay) : Occupancy :=
  { newRecord s n v with account := ⟨0, s.settings.creditLimit, s.settings.warnLevel,
      if 0 < s.settings.warnLevel then .low else .open_, none, false⟩ }

/-- A creation with room takes the lowest free number and leaves every other record (R26). -/
theorem createOcc_made (room : s.occ.records.length < 64) (free : s.berthFree v.berth v.arrival v.nights = true) :
    ∃ n t, s.createOcc v = some (n, t) ∧ 1 ≤ n ∧ n ≤ 64 ∧ s.occ? n = none ∧
      (∀ m, 1 ≤ m → m < n → (s.occ? m).isSome = true) ∧ t.occ? n = some (s.bookedRecord n v) ∧
      (∀ m, m ≠ n → t.occ? m = s.occ? m) ∧ t.occ.closures = s.occ.closures ∧ t.occ.notices = s.occ.notices := by
  have used : (keysOf Occupancy.number s.occ.records).length < 64 := by simpa [keysOf] using room
  obtain ⟨n, lowest⟩ := Option.isSome_iff_exists.mp (lowestFree_isSome used)
  obtain ⟨low, high, fresh, below⟩ := lowestFree_some lowest
  let w : State := { s with occ := { s.occ with
    records := insertKey Occupancy.number (newRecord s n v) s.occ.records } }
  have there : w.occ? n = some (newRecord s n v) :=
    lookupKey_insertKey Occupancy.number (newRecord s n v) s.occ.records
  have others : ∀ m, m ≠ n → w.occ? m = s.occ? m := fun m other =>
    lookupKey_insertKey_ne Occupancy.number (newRecord s n v) s.occ.records other
  have made : s.createOcc v = some (n, w.computeStanding n) := by
    unfold State.createOcc
    rw [if_neg (by simpa [Config.maxRecords] using room), if_neg (by simpa using free)]
    have lowest' : lowestFree (keysOf Occupancy.number s.occ.records) Config.maxRecords = some n := lowest
    simp only [lowest']
    rfl
  have computed : (newRecord s n v).account.computed w.now = (s.bookedRecord n v).account := by
    have sound : ¬ ((0 : Int) < -(s.settings.creditLimit : Int)) := by omega
    have standing : (newRecord s n v).account.standing = if 0 < s.settings.warnLevel then .low else .open_ := by
      unfold Account.standing
      exact if_neg sound
    unfold Account.computed
    rw [standing]
    unfold State.bookedRecord newRecord
    by_cases low : 0 < s.settings.warnLevel <;> simp [low]
  have stays : (newRecord s n v).account.bars w.settings.overdueGrace w.now = false := by
    unfold Account.bars
    rw [computed]
    unfold State.bookedRecord
    simp
  have settled : (newRecord s n v).account.settled w.settings.overdueGrace w.now = (s.bookedRecord n v).account := by
    unfold Account.settled
    rw [stays, computed]
    rfl
  obtain ⟨p, shape⟩ := computeStanding_eq there
  rw [stays, settled] at shape
  refine ⟨n, _, made, low, high, ?_, fun m low' less => ?_, ?_, fun m other => ?_, ?_, ?_⟩
  · refine List.find?_eq_none.mpr fun x hx => ?_
    simp only [beq_iff_eq]
    exact fun e => fresh (e ▸ List.mem_map_of_mem hx)
  · obtain ⟨x, hx, e⟩ := List.mem_map.mp (below m low' less)
    exact List.find?_isSome.mpr ⟨x, hx, by simpa using e⟩
  · rw [shape]
    exact modOcc_self (f := fun x => { x with account := (s.bookedRecord n v).account }) there fun _ => rfl
  · rw [shape]
    exact (modOcc_other (f := fun x => { x with account := (s.bookedRecord n v).account }) other fun _ => rfl).trans
      (others m other)
  · rw [shape]
    rfl
  · rw [shape]
    rfl

end

/-! ### O34: BOOK (R26, R27) -/

theorem bookInRange_iff (v : BookParams) : bookInRange v = true ↔
    1 ≤ v.berth ∧ v.berth ≤ 48 ∧ v.offset ≤ 365 ∧ 1 ≤ v.nights ∧ v.nights ≤ 366 ∧ 30 ≤ v.length ∧
      v.length ≤ 600 ∧ 10 ≤ v.beam ∧ v.beam ≤ 150 ∧ 5 ≤ v.draft ∧ v.draft ≤ 60 ∧ 1 ≤ v.cls ∧ v.cls ≤ 3 ∧
      v.power ≤ 1 ∧ v.rating ≤ 3 ∧ v.three ≤ 1 := by
  unfold bookInRange within
  simp only [Bool.and_eq_true, decide_eq_true_eq]
  constructor
  · intro h; omega
  · intro h; omega

/-- Settles O34: BOOK is refused at its first cause or creates the stay. -/
theorem bookCreatesTheStay : Obligations.BookCreatesTheStay := by
  intro v s taken refused inRange first shared
  have decided : exec (.book v) s = .next _ := congrArg Host.Outcome.next (State.request_taken taken)
  have range := bookInRange_iff v
  have apart := berthFree_iff_apart (s := s) v.berth first v.nights
  have room := occRoom_iff s
  refine ⟨fun bad => decided.trans ?_, fun good gone => decided.trans ?_, fun good there full => decided.trans ?_,
    fun good there few clash => decided.trans ?_, fun good there few free => ?_⟩
  · have bad' : bookInRange v = false := by simpa using mt range.mp bad
    simp only [bad', Bool.not_false, if_true]
    rfl
  all_goals have good' := range.mpr good
  · have gone' : ((s.takeFrame 19).berth? v.berth).isNone = true := by
      show (s.berth? v.berth).isNone = true
      rw [gone]
      rfl
    simp only [good', gone', Bool.not_true, Bool.false_eq_true, if_false, if_true]
    rfl
  all_goals
    have there' : ((s.takeFrame 19).berth? v.berth).isNone = false := by
      show (s.berth? v.berth).isNone = false
      cases h : s.berth? v.berth with
      | none => simp [h] at there
      | some x => rfl
  · have full' : (s.takeFrame 19).occRoom = false := by
      show s.occRoom = false
      simpa using mt room.mp (Nat.not_lt.mpr full)
    simp only [good', there', full', Bool.not_true, Bool.not_false, Bool.false_eq_true, if_false, if_true]
    rfl
  all_goals have few' : (s.takeFrame 19).occRoom = true := room.mpr few
  · have none : (s.takeFrame 19).createOcc (stayOf v (s.takeFrame 19).today) = none :=
      createOcc_full (.inr (Bool.eq_false_iff.mpr (mt apart.mp (not_not.mpr clash))))
    simp only [good', there', few', none, Bool.not_true, Bool.false_eq_true, if_false]
    rfl
  · obtain ⟨n, t, made, low, high, fresh, below, now, others, closures, notices⟩ :=
      createOcc_made (s := s.takeFrame 19) (v := stayOf v s.today) few (apart.mpr free)
    have runs : exec (.book v) s = .next (t.writeAnswer 19 (.done (u8 n))) := by
      refine decided.trans ?_
      have made' : (s.takeFrame 19).createOcc (stayOf v (s.takeFrame 19).today) = some (n, t) := made
      simp only [good', there', few', made', Bool.not_true, Bool.false_eq_true, if_false]
    refine ⟨_, n, _, runs, low, high, fresh, below, now, others, rfl, rfl, rfl, rfl, rfl, rfl, rfl, rfl, rfl, rfl,
      rfl, rfl, rfl, rfl, rfl, rfl, fun bare => ?_, fun k p named point => ?_, closures, notices, rfl, rfl,
      frame_of_runs runs⟩
    · show (s.berthPoint v.berth).bind _ = none
      rw [bare]
      rfl
    · show (s.berthPoint v.berth).bind (fun p => (s.point? p).map (firstProfile (stayOf v s.today))) = _
      rw [named]
      show (s.point? k).map _ = _
      rw [point]
      refine congrArg some ?_
      unfold firstProfile stayOf
      simp [Bool.decide_and, beq_eq_decide, Bool.and_assoc]

/-! ### O35: CANCEL, ARRIVE, DEPART (R28 to R31) -/

theorem exec_cancel (n : Nat) (s : State) : exec (.cancel n) s = .next (s.occRequest 20 n fun r s =>
    if (r.state = .booked && r.closureDue.isNone) = true then (s.removeOcc n, .done [])
    else (s, .refused .state)) := rfl

theorem exec_arrive (n : Nat) (s : State) : exec (.arrive n) s = .next (s.occRequest 21 n fun r s =>
    if (r.state = .booked && r.closureDue.isNone && r.arrival ≤ s.today && s.today < r.departureDay) = true then
      (s.toAlongside n, .done [])
    else (s, .refused .state)) := rfl

theorem exec_depart (n : Nat) (s : State) : exec (.depart n) s = .next (s.occRequest 22 n fun r s =>
    if r.state = .alongside then (s.toDeparting n, .done []) else (s, .refused .state)) := rfl

/-- A request about a record is refused by its number, or decided by the record. -/
theorem exec_occRequest {c : Instr} {code n : Nat} {s : State} {body : Occupancy → State → State × Reply}
    (taken : Takes code s) (is : exec c s = .next (s.occRequest code n body)) :
    (n = 0 ∨ 64 < n → exec c s = .next { s with pnp := s.pnp.answered code (.refused .range) }) ∧
    (1 ≤ n → n ≤ 64 → s.occ? n = none →
      exec c s = .next { s with pnp := s.pnp.answered code (.refused .unknown) }) ∧
    (1 ≤ n → n ≤ 64 → ∀ r : Occupancy, s.occ? n = some r → exec c s =
      .next ((body r (s.takeFrame code)).1.writeAnswer code (body r (s.takeFrame code)).2)) := by
  obtain ⟨range, unknown, live⟩ := occRequest_taken taken n body
  exact ⟨fun h => is.trans (congrArg _ (range h)), fun h1 h2 h => is.trans (congrArg _ (unknown h1 h2 h)),
    fun h1 h2 r h => is.trans (congrArg _ (live h1 h2 r h))⟩

/-- No point charges a record removed (R28). -/
theorem removeOcc_uncharged (s : State) (n : Nat) : ∀ p ∈ (s.removeOcc n).spc.points, p.charging ≠ some n := by
  intro p hp
  obtain ⟨q, -, rfl⟩ := List.mem_map.mp hp
  by_cases h : q.charging = some n <;> simp [h]

/-- Settles O35: CANCEL removes, ARRIVE brings alongside, DEPART departs and may close. -/
theorem staysCancelArriveDepart : Obligations.StaysCancelArriveDepart := by
  intro n s
  refine ⟨fun c code known taken => ?_, fun r low high live => ⟨fun taken => ?_, fun taken => ?_, fun taken => ?_⟩⟩
  · simp only [List.mem_cons, Prod.mk.injEq, List.not_mem_nil, or_false] at known
    rcases known with ⟨rfl, rfl⟩ | ⟨rfl, rfl⟩ | ⟨rfl, rfl⟩
    · exact ⟨(exec_occRequest taken (exec_cancel n s)).1, (exec_occRequest taken (exec_cancel n s)).2.1⟩
    · exact ⟨(exec_occRequest taken (exec_arrive n s)).1, (exec_occRequest taken (exec_arrive n s)).2.1⟩
    · exact ⟨(exec_occRequest taken (exec_depart n s)).1, (exec_occRequest taken (exec_depart n s)).2.1⟩
  · have decided := (exec_occRequest taken (exec_cancel n s)).2.2 low high r live
    refine ⟨fun booked free => ?_, fun h => decided.trans ?_⟩
    · have runs : exec (.cancel n) s = .next (((s.takeFrame 20).removeOcc n).writeAnswer 20 (.done [])) := by
        refine decided.trans ?_
        simp only [booked, free, decide_true, Option.isNone_none, Bool.and_self, if_true]
      exact ⟨_, runs, (removeOcc_occ? _ n n).trans (if_pos rfl), fun m other =>
        (removeOcc_occ? _ n m).trans (if_neg other), (removeOcc_link? _ n n).trans (if_pos rfl), fun m other =>
        (removeOcc_link? _ n m).trans (if_neg other), removeOcc_uncharged (s.takeFrame 20) n, rfl, rfl,
        frame_of_runs runs⟩
    · have not : (decide (r.state = .booked) && r.closureDue.isNone) = false := by
        rcases h with h | h
        · simp [h]
        · cases due : r.closureDue <;> simp_all
      simp only [not, Bool.false_eq_true, if_false]
      rfl
  · have decided := (exec_occRequest taken (exec_arrive n s)).2.2 low high r live
    refine ⟨fun booked free since until_ => ?_, fun h => decided.trans ?_⟩
    · have runs : exec (.arrive n) s = .next (((s.takeFrame 21).toAlongside n).writeAnswer 21 (.done [])) := by
        refine decided.trans ?_
        have nights : s.today < r.departureDay := until_
        have since' : r.arrival ≤ (s.takeFrame 21).today := since
        have nights' : (s.takeFrame 21).today < r.departureDay := nights
        simp only [booked, free, since', nights', decide_true, Option.isNone_none, Bool.and_self, if_true]
      exact ⟨_, runs, modOcc_self (f := fun r => { r with state := .alongside }) live fun _ => rfl, fun m other =>
        modOcc_other (f := fun r => { r with state := .alongside }) other fun _ => rfl, rfl, rfl, rfl,
        frame_of_runs runs⟩
    · have not : (decide (r.state = .booked) && r.closureDue.isNone && decide (r.arrival ≤ (s.takeFrame 21).today) &&
          decide ((s.takeFrame 21).today < r.departureDay)) = false := by
        have today : (s.takeFrame 21).today = s.today := rfl
        rw [today]
        rcases h with h | h | h | h
        · simp [h]
        · cases due : r.closureDue <;> simp_all
        · simp [Nat.not_le.mpr h]
        · simp [Occupancy.departureDay, Nat.not_lt.mpr h]
      simp only [not, Bool.false_eq_true, if_false]
      rfl
  · have decided := (exec_occRequest taken (exec_depart n s)).2.2 low high r live
    refine ⟨fun alongside free => ?_, fun h => decided.trans ?_⟩
    · intro gone
      have runs : exec (.depart n) s = .next (((s.takeFrame 22).toDeparting n).writeAnswer 22 (.done [])) := by
        refine decided.trans ?_
        simp only [alongside, if_true]
      obtain ⟨w, departs, there, others, shape⟩ := toDeparting_eq (s := s.takeFrame 22) live
      rw [departs] at runs
      have waits : ((s.takeFrame 22).departed r).closureWaits = true ↔ gone := by
        rw [closureWaits_iff]
        show r.closureDue.isSome = true ∨ (_ ∧ (s.berthPoint r.berth).isSome = false ∧ r.holds = []) ↔ _
        simp [free, gone, State.departed]
      obtain ⟨apart, stays, closes⟩ := testRemoval_says there
      have closures : w.occ.closures = s.occ.closures := by rw [shape]; rfl
      rw [closures] at stays closes
      refine ⟨_, runs, fun m other => (apart m other).trans (others m other), fun h => ?_, fun left room => ?_, rfl,
        frame_of_runs runs⟩
      · obtain ⟨now, occ, -, flag⟩ := stays (h.imp_left fun no => by simpa using mt waits.mp no)
        exact ⟨now, (congrArg Occ.notices occ).trans (by rw [shape]; rfl), (congrArg Occ.closures occ).trans closures,
          fun left => flag (waits.mpr left) free⟩
      · have closed := closes (waits.mpr left) room
        refine ⟨closed.gone, closed.flag, closureOf w ((s.takeFrame 22).departed r) .departed, ?_, rfl, rfl, rfl, ?_⟩
        · exact (closed.closures.trans (congrArg (· ++ _) closures)).trans
            (congrArg (fun due : Option CloseReason => s.occ.closures ++
              [closureOf w ((s.takeFrame 22).departed r) (due.getD .departed)]) free)
        · show w.now = s.now
          rw [shape]
          rfl
    · simp only [h, if_false]
      rfl

end Sys2Proof.Machine
end

section
/-! PROOFS. The requests on credentials (02): the binding of a card and the PINs. -/

namespace Sys2Proof.Machine

set_option Elab.async false

section
variable {s : State} {c : Instr} {code n : Nat} {r : Occupancy}

/-- A request that rewrites one record and answers DONE (R44 to R48). -/
theorem rewrites_modOcc {f : Occupancy → Occupancy} (hf : ∀ r, (f r).number = r.number)
    (runs : exec c s = .next (((s.takeFrame code).modOcc n f).writeAnswer code (.done []))) (live : s.occ? n = some r) :
    ∃ t, exec c s = .next t ∧ t.occ? n = some (f r) ∧ (∀ m, m ≠ n → t.occ? m = s.occ? m) ∧
      t.occ = { s.occ with records := t.occ.records } ∧ t.pnp = s.pnp.answered code (.done []) ∧
      OnlyChanges [.pnp, .occ] s t := by
  refine ⟨_, runs, modOcc_self live hf, fun m other => modOcc_other other hf, rfl, rfl, fun p hp => ?_⟩
  cases p <;> simp_all [State.agree]

/-- A credential changed is its record changed. -/
theorem rewrites_modCredential {f : Credential → Credential} {k : Credential} (bound : r.credential = some k)
    (runs : exec c s = .next (((s.takeFrame code).modCredential n f).writeAnswer code (.done [])))
    (live : s.occ? n = some r) :
    ∃ t, exec c s = .next t ∧ t.occ? n = some { r with credential := some (f k) } ∧
      (∀ m, m ≠ n → t.occ? m = s.occ? m) ∧
      t.occ = { s.occ with records := t.occ.records } ∧ t.pnp = s.pnp.answered code (.done []) ∧
      OnlyChanges [.pnp, .occ] s t := by
  obtain ⟨t, runs, now, rest⟩ := rewrites_modOcc (f := fun r => { r with credential := r.credential.map f })
    (fun _ => rfl) runs live
  refine ⟨t, runs, now.trans ?_, rest⟩
  rw [bound]
  rfl

/-- Binding a card keeps the record's number (R44). -/
theorem bindCard_occ? (s : State) (n card : Nat) : ∃ f : Occupancy → Occupancy,
    s.bindCard n card = s.modOcc n f ∧ (∀ r, (f r).number = r.number) ∧
    (∀ r, r.credential = none → f r = { r with credential := some ⟨card, none, 0, false, none⟩ }) ∧
    (∀ r c, r.credential = some c → f r = if c.card = card then r else { r with credential := some { c with
      card := card
      waiver := none } }) := by
  refine ⟨_, rfl, fun r => ?_, fun r bare => ?_, fun r c has => ?_⟩
  · split
    · rfl
    · split <;> rfl
  · simp only [bare]
  · simp only [has]

/-- A card is taken by a staff credential or by another record (R44, R45). -/
theorem cardTaken_iff (s : State) (n card : Nat) : s.cardTaken n card = true ↔
    (∃ e ∈ s.gtc.staff, e.card = card) ∨ ∃ x : Occupancy, s.cardHolder card = some x ∧ x.number ≠ n := by
  unfold State.cardTaken State.isStaffCard
  rw [Bool.or_eq_true]
  refine or_congr (by simp) ?_
  cases s.cardHolder card with
  | none => simp
  | some x => simp

end

/-! ### O37: credentials (R44 to R48) -/

theorem cardOk_iff (card : Nat) : cardOk card = true ↔ 1 ≤ card ∧ card ≤ 1099511627775 :=
  Bool.and_eq_true_iff.trans (and_congr decide_eq_true_iff decide_eq_true_iff)

theorem exec_bindCard (n card : Nat) (s : State) : exec (.bindCard n card) s = execBindCard n card s := rfl

theorem exec_setPin (n : Nat) (pin : PinField) (s : State) : exec (.setPin n pin) s = execSetPin n pin s := rfl

theorem exec_changePin (n : Nat) (old pin : PinField) (s : State) :
    exec (.changePin n old pin) s = execChangePin n old pin s := rfl

theorem exec_clearPin (n : Nat) (s : State) : exec (.clearPin n) s = execClearPin n s := rfl

theorem exec_unlock (n : Nat) (s : State) : exec (.unlock n) s = execUnlock n s := rfl

theorem exec_cardBindFrame {src : RxSource} {f : Frame} {note : Option Nat} {s u : State} (on : s.powered = true)
    (got : s.takeRx 16 src = some (f, note, u)) : exec (.cardBindFrame src) s = .next
      (if ((u.occ? (f.keyField 5 7)).isNone || f.num 0 5 = 0) = true then u
       else if u.cardTaken (f.keyField 5 7) (f.num 0 5) = true then u.setFlag .bindConflict
       else u.bindCard (f.keyField 5 7) (f.num 0 5)) :=
  congrArg Host.Outcome.next (State.frameEvent_taken on got)

section
variable {s : State} {n : Nat}

theorem bindCard_refused (taken : Takes 26 s) (card : Nat) :
    (n = 0 ∨ 64 < n ∨ card = 0 ∨ 1099511627775 < card →
      exec (.bindCard n card) s = .next { s with pnp := s.pnp.answered 26 (.refused .range) }) ∧
    (1 ≤ n → n ≤ 64 → 1 ≤ card → card ≤ 1099511627775 →
      (s.occ? n = none → exec (.bindCard n card) s = .next { s with pnp := s.pnp.answered 26 (.refused .unknown) }) ∧
      ((s.occ? n).isSome = true → s.cardTaken n card = true →
        exec (.bindCard n card) s = .next { s with pnp := s.pnp.answered 26 (.refused .state) }) ∧
      ((s.occ? n).isSome = true → s.cardTaken n card = false →
        exec (.bindCard n card) s = .next (((s.takeFrame 26).bindCard n card).writeAnswer 26 (.done [])))) := by
  have decided : exec (.bindCard n card) s = .next _ := congrArg Host.Outcome.next (State.request_taken taken)
  have range : (!within 1 64 n || !cardOk card) = true ↔ n = 0 ∨ 64 < n ∨ card = 0 ∨ 1099511627775 < card := by
    have cards := cardOk_iff card
    have numbers : within 1 64 n = true ↔ 1 ≤ n ∧ n ≤ 64 := by simp [within]
    rw [Bool.or_eq_true, Bool.not_eq_true', Bool.not_eq_true', Bool.eq_false_iff, Bool.eq_false_iff, Ne, Ne, cards,
      numbers]
    omega
  refine ⟨fun out => decided.trans ?_, fun h1 h2 h3 h4 => ?_⟩
  · simp only [range.mpr out, if_true]
    rfl
  · have inside : (!within 1 64 n || !cardOk card) = false := by
      rw [Bool.eq_false_iff]
      exact mt range.mp (by omega)
    refine ⟨fun gone => decided.trans ?_, fun live busy => decided.trans ?_, fun live free => decided.trans ?_⟩
    · have gone' : ((s.takeFrame 26).occ? n).isNone = true := by
        show (s.occ? n).isNone = true
        rw [gone]
        rfl
      simp only [inside, gone', Bool.false_eq_true, if_false, if_true]
      rfl
    all_goals
      have live' : ((s.takeFrame 26).occ? n).isNone = false := by
        show (s.occ? n).isNone = false
        simpa using live
    · have busy' : (s.takeFrame 26).cardTaken n card = true := busy
      simp only [inside, live', busy', Bool.false_eq_true, if_false, if_true]
      rfl
    · have free' : (s.takeFrame 26).cardTaken n card = false := free
      simp only [inside, live', free', Bool.false_eq_true, if_false]

theorem setPin_decided (taken : Takes 27 s) (pin : PinField) {r : Occupancy} (low : 1 ≤ n) (high : n ≤ 64)
    (live : s.occ? n = some r) :
    (r.credential = none →
      exec (.setPin n pin) s = .next { s with pnp := s.pnp.answered 27 (.refused .state) }) ∧
    (∀ c, r.credential = some c →
      (pinDigits pin = none →
        exec (.setPin n pin) s = .next { s with pnp := s.pnp.answered 27 (.refused .range) }) ∧
      (∀ d, pinDigits pin = some d →
        (c.pin.isSome = true →
          exec (.setPin n pin) s = .next { s with pnp := s.pnp.answered 27 (.refused .state) }) ∧
        (c.pin = none → exec (.setPin n pin) s = .next
          (((s.takeFrame 27).modCredential n fun c => { c with pin := some d }).writeAnswer 27 (.done []))))) := by
  have decided := (exec_occRequest taken (exec_setPin n pin s)).2.2 low high r live
  refine ⟨fun bare => decided.trans ?_, fun c bound => ⟨fun bad => decided.trans ?_, fun d good =>
    ⟨fun has => decided.trans ?_, fun lacks => decided.trans ?_⟩⟩⟩
  · simp only [bare]
    rfl
  · simp only [bound, bad]
    rfl
  · simp only [bound, good, has, if_true]
    rfl
  · simp only [bound, good, lacks, Option.isSome_none, Bool.false_eq_true, if_false]

theorem changePin_decided (taken : Takes 28 s) (old pin : PinField) {r : Occupancy} (low : 1 ≤ n) (high : n ≤ 64)
    (live : s.occ? n = some r) :
    (r.credential = none →
      exec (.changePin n old pin) s = .next { s with pnp := s.pnp.answered 28 (.refused .state) }) ∧
    (∀ c, r.credential = some c →
      (pinDigits pin = none →
        exec (.changePin n old pin) s = .next { s with pnp := s.pnp.answered 28 (.refused .range) }) ∧
      (∀ d, pinDigits pin = some d →
        (c.pin = none →
          exec (.changePin n old pin) s = .next { s with pnp := s.pnp.answered 28 (.refused .state) }) ∧
        (c.pin.isSome = true → c.locked = true →
          exec (.changePin n old pin) s = .next { s with pnp := s.pnp.answered 28 (.refused .locked) }) ∧
        (c.pin.isSome = true → c.locked = false → pinDigits old = c.pin → exec (.changePin n old pin) s = .next
          (((s.takeFrame 28).modCredential n fun c => { c with pin := some d, count := 0 }).writeAnswer 28
            (.done []))) ∧
        (c.pin.isSome = true → c.locked = false → pinDigits old ≠ c.pin → exec (.changePin n old pin) s = .next
          (((s.takeFrame 28).wrongPin n).writeAnswer 28 (.refused (if 2 ≤ c.count then .locked else .state)))))) := by
  have decided := (exec_occRequest taken (exec_changePin n old pin s)).2.2 low high r live
  refine ⟨fun bare => decided.trans ?_, fun c bound => ⟨fun bad => decided.trans ?_, fun d good =>
    ⟨fun lacks => decided.trans ?_, fun has shut => decided.trans ?_, fun has free right => decided.trans ?_,
      fun has free wrong => decided.trans ?_⟩⟩⟩
  · simp only [bare]
    rfl
  · simp only [bound, bad]
    rfl
  · simp only [bound, good, lacks, Option.isNone_none, if_true]
    rfl
  all_goals have has' : c.pin.isNone = false := by simpa using has
  · simp only [bound, good, has', shut, Bool.false_eq_true, if_false, if_true]
    rfl
  · simp only [bound, good, has', free, Bool.false_eq_true, if_false, right, if_true]
  · simp only [bound, good, has', free, Bool.false_eq_true, if_false, wrong, State.wrongOldPin,
      Credential.wrongPin_eq free, Bool.not_false, Bool.true_and, decide_eq_true_eq]

theorem clearPin_decided (taken : Takes 29 s) {r : Occupancy} (low : 1 ≤ n) (high : n ≤ 64)
    (live : s.occ? n = some r) :
    (r.credential = none → exec (.clearPin n) s = .next { s with pnp := s.pnp.answered 29 (.refused .state) }) ∧
    (∀ c, r.credential = some c → exec (.clearPin n) s = .next (((s.takeFrame 29).modCredential n fun c =>
      { c with pin := none, locked := false, count := 0, waiver := none }).writeAnswer 29 (.done []))) := by
  have decided := (exec_occRequest taken (exec_clearPin n s)).2.2 low high r live
  refine ⟨fun bare => decided.trans ?_, fun c bound => decided.trans ?_⟩
  · simp only [bare, Option.isNone_none, if_true]
    rfl
  · simp only [bound, Option.isNone_some, Bool.false_eq_true, if_false]

theorem unlock_decided (taken : Takes 30 s) {r : Occupancy} (low : 1 ≤ n) (high : n ≤ 64)
    (live : s.occ? n = some r) :
    (r.credential = none → exec (.unlock n) s = .next { s with pnp := s.pnp.answered 30 (.refused .state) }) ∧
    (∀ c, r.credential = some c → exec (.unlock n) s = .next (((s.takeFrame 30).modCredential n fun c =>
      { c with locked := false, count := 0 }).writeAnswer 30 (.done []))) := by
  have decided := (exec_occRequest taken (exec_unlock n s)).2.2 low high r live
  refine ⟨fun bare => decided.trans ?_, fun c bound => decided.trans ?_⟩
  · simp only [bare, Option.isNone_none, if_true]
    rfl
  · simp only [bound, Option.isNone_some, Bool.false_eq_true, if_false]

theorem wrongPin_counted {s : State} {r : Occupancy} {c : Credential} (live : s.occ? n = some r)
    (bound : r.credential = some c) (free : c.locked = false) :
    (s.wrongPin n).occ? n = some { r with credential := some { c with
      count := min 3 (c.count + 1)
      locked := decide (2 ≤ c.count) } } ∧ (∀ m, m ≠ n → (s.wrongPin n).occ? m = s.occ? m) ∧
    (2 ≤ c.count → (s.wrongPin n).hasFlag .lockout = true) := by
  obtain ⟨now, flag⟩ := pinOutcome_occupancy_wrong live bound free
  refine ⟨now, fun m other => ?_, flag⟩
  unfold State.wrongPin
  rw [live]
  simp only [Option.bind_some, bound]
  obtain ⟨p, shape⟩ := setFlagIf_eq (s.modCredential n Credential.wrongPin) (!c.locked && c.wrongPin.locked) .lockout
  rw [shape]
  exact modOcc_other (f := fun r => { r with credential := r.credential.map Credential.wrongPin }) other fun _ => rfl

end

/-- Settles O37: cards bound, PINs set, changed and cleared, credentials unlocked. -/
theorem credentialRequests : Obligations.CredentialRequests := by
  intro n s bound taken refused changes
  refine ⟨fun t26 card => ?_, fun src f note u on got key => ?_, fun c code pin old known tk => ?_,
    fun pin old low high r live => ⟨fun bare => ⟨fun tk => ?_, fun tk => ?_, fun tk => ?_, fun tk => ?_⟩,
      fun c cred => ⟨fun bad => ⟨fun tk => ?_, fun tk => ?_⟩, fun d good => ⟨fun tk => ?_, fun tk => ?_⟩,
        fun tk => ?_, fun tk => ?_⟩⟩⟩
  · obtain ⟨range, inside⟩ := bindCard_refused (n := n) t26 card
    refine ⟨range, fun h1 h2 h3 h4 => ?_⟩
    obtain ⟨unknown, busy, free⟩ := inside h1 h2 h3 h4
    refine ⟨unknown, fun live clash => busy live ((cardTaken_iff s n card).mpr clash), fun r live none => ?_⟩
    obtain ⟨f, shape, number, fresh, held⟩ := bindCard_occ? (s.takeFrame 26) n card
    have runs := free (by simp [live]) (Bool.eq_false_iff.mpr (mt (cardTaken_iff s n card).mp none))
    rw [shape] at runs
    have same : bound card r = f r := by
      cases has : r.credential with
      | none => simp only [bound, has, fresh r has]
      | some c => simp only [bound, has, held r c has]
    rw [same]
    exact rewrites_modOcc number runs live
  · have decided := exec_cardBindFrame on got
    have received := State.takeRx_frame got
    obtain ⟨rx, loop, rfl⟩ := takeRx_eq got
    rw [key] at decided
    have clash := cardTaken_iff s n (f.num 0 5)
    refine ⟨fun h => decided.trans (congrArg _ (if_pos ?_)), fun live named busy => decided.trans ?_,
      fun r live named none => ?_⟩
    · rw [Bool.or_eq_true, decide_eq_true_iff]
      refine h.imp_left fun gone => ?_
      show (s.occ? n).isNone = true
      rw [gone]
      rfl
    all_goals
      have there : ∀ x, s.occ? n = some x → ((s.occ? n).isNone || decide (f.num 0 5 = 0)) ≠ true := by
        intro x live
        simp [live, named]
    · obtain ⟨x, live⟩ := Option.isSome_iff_exists.mp live
      exact congrArg Host.Outcome.next ((if_neg (there x live)).trans (if_pos (clash.mpr busy)))
    · have runs := decided.trans (congrArg Host.Outcome.next ((if_neg (there r live)).trans (if_neg (mt clash.mp none))))
      obtain ⟨g, shape, number, fresh, held⟩ :=
        bindCard_occ? ({ s with lif := { s.lif with rx := rx, loop := loop } } : State) n (f.num 0 5)
      rw [shape] at runs
      have same : bound (f.num 0 5) r = g r := by
        cases has : r.credential with
        | none => simp only [bound, has, fresh r has]
        | some c => simp only [bound, has, held r c has]
      refine ⟨_, runs, ?_, fun m other => modOcc_other other number, rfl, ?_⟩
      · rw [same]
        exact modOcc_self live number
      · exact (received.andThen (within_modOcc _ n g) : Within [.lif, .occ] s _).quiet rfl
  · simp only [List.mem_cons, Prod.mk.injEq, List.not_mem_nil, or_false] at known
    rcases known with ⟨rfl, rfl⟩ | ⟨rfl, rfl⟩ | ⟨rfl, rfl⟩ | ⟨rfl, rfl⟩
    · exact ⟨(exec_occRequest tk (exec_setPin n _ s)).1, (exec_occRequest tk (exec_setPin n _ s)).2.1⟩
    · exact ⟨(exec_occRequest tk (exec_changePin n _ _ s)).1, (exec_occRequest tk (exec_changePin n _ _ s)).2.1⟩
    · exact ⟨(exec_occRequest tk (exec_clearPin n s)).1, (exec_occRequest tk (exec_clearPin n s)).2.1⟩
    · exact ⟨(exec_occRequest tk (exec_unlock n s)).1, (exec_occRequest tk (exec_unlock n s)).2.1⟩
  · exact (setPin_decided tk pin low high live).1 bare
  · exact (changePin_decided tk old pin low high live).1 bare
  · exact (clearPin_decided tk low high live).1 bare
  · exact (unlock_decided tk low high live).1 bare
  · exact ((setPin_decided tk pin low high live).2 c cred).1 bad
  · exact ((changePin_decided tk old pin low high live).2 c cred).1 bad
  · obtain ⟨has, lacks⟩ := ((setPin_decided tk pin low high live).2 c cred).2 d good
    exact ⟨has, fun none => rewrites_modCredential cred (lacks none) live⟩
  · obtain ⟨lacks, shut, right, wrong⟩ := ((changePin_decided tk old pin low high live).2 c cred).2 d good
    refine ⟨lacks, shut, fun has free same => rewrites_modCredential cred (right has free same) live,
      fun has free other => ?_⟩
    have runs := wrong has free other
    obtain ⟨now, others, flag⟩ := wrongPin_counted (s := s.takeFrame 28) live cred free
    refine ⟨_, runs, now, others, flag, rfl, ?_, frame_of_runs runs⟩
    rfl
  · exact rewrites_modCredential cred ((clearPin_decided tk low high live).2 c cred) live
  · exact rewrites_modCredential cred ((unlock_decided tk low high live).2 c cred) live

end Sys2Proof.Machine
end

section
/-! PROOFS. The requests on accounts (02): TOP UP, SET LIMIT, BAR and UNBAR. -/

namespace Sys2Proof.Machine

set_option Elab.async false

/-! ### The standing an account gets (R33, R36) -/

section
variable (a : Account) (grace : Nat) (now : Time)

theorem standing_eq : a.standing =
    if a.balance < -(a.limit : Int) then .overdue else if a.balance < a.warn then .low else .open_ := rfl

theorem standing_overdue_iff : a.standing = .overdue ↔ a.balance < -(a.limit : Int) := by
  rw [standing_eq]
  split
  · simp [*]
  · split <;> simp [*]

/-- An account is barred where it is overdue since a moment beyond the grace (R36). -/
theorem bars_iff : a.bars grace now = true ↔ (a.computed now).state = .overdue ∧
    ∃ t, (a.computed now).overdueSince = some t ∧ graceOver grace now t = true := by
  unfold Account.bars
  rw [Bool.and_eq_true, beq_iff_eq, Option.any_eq_true]

theorem computed_state (free : a.state ≠ .barred) : (a.computed now).state = a.standing := if_neg free

theorem computed_since (overdue : a.standing = .overdue) :
    (a.computed now).overdueSince = some (a.overdueSince.getD now) := if_pos overdue

theorem settled_state_stays (h : a.bars grace now = false) : (a.settled grace now).state = (a.computed now).state := by
  unfold Account.settled
  rw [h]
  rfl

/-- Outside BARRED the standing becomes the state, unless the account is below its limit beyond its grace. -/
theorem settled_standing (free : a.state ≠ .barred)
    (h : ¬ (a.balance < -(a.limit : Int) ∧ graceOver grace now (a.overdueSince.getD now) = true)) :
    a.bars grace now = false ∧ (a.settled grace now).state = a.standing := by
  have stays : a.bars grace now = false := by
    refine Bool.eq_false_iff.mpr fun bars => ?_
    obtain ⟨state, t, since, late⟩ := (bars_iff a grace now).mp bars
    have overdue : a.standing = .overdue := (computed_state a now free).symm.trans state
    obtain rfl : a.overdueSince.getD now = t := Option.some.inj ((computed_since a now overdue).symm.trans since)
    exact h ⟨(standing_overdue_iff a).mp overdue, late⟩
  exact ⟨stays, (settled_state_stays a grace now stays).trans (computed_state a now free)⟩

/-- Outside BARRED an account below its limit beyond its grace is barred (R36). -/
theorem settled_barred (free : a.state ≠ .barred) (below : a.balance < -(a.limit : Int))
    (late : graceOver grace now (a.overdueSince.getD now) = true) :
    a.bars grace now = true ∧ (a.settled grace now).state = .barred := by
  have overdue := (standing_overdue_iff a).mpr below
  have bars := (bars_iff a grace now).mpr
    ⟨(computed_state a now free).trans overdue, _, computed_since a now overdue, late⟩
  refine ⟨bars, ?_⟩
  unfold Account.settled
  rw [bars]
  rfl

/-- A BARRED account stays BARRED (R33). -/
theorem settled_stays (barred : a.state = .barred) :
    a.bars grace now = false ∧ (a.settled grace now).state = .barred := by
  have state : (a.computed now).state = .barred := if_pos barred
  have stays : a.bars grace now = false := by
    refine Bool.eq_false_iff.mpr fun bars => ?_
    simp [((bars_iff a grace now).mp bars).1] at state
  exact ⟨stays, (settled_state_stays a grace now stays).trans state⟩

end

/-! ### An account rewritten (R39) -/

section
variable {s : State} {n : Nat} {r : Occupancy}

theorem graceOver_iff (grace : Nat) (now since : Time) :
    graceOver grace now since = true ↔ since.toMs + grace * 3600000 < now.toMs := by
  simp [graceOver]

/-- What is said of an account whose balance, limit or warn level was rewritten (R33, R36). -/
structure Follows (s : State) (n : Nat) (r : Occupancy) (a : Account) (t : State) (notices : List Notice) : Prop where
  now      : t.occ? n = some { r with account := a.settled s.settings.overdueGrace s.now }
  others   : ∀ m, m ≠ n → t.occ? m = s.occ? m
  notices  : t.occ.notices = notices
  overdue  : r.account.state ≠ .barred → r.account.state ≠ .overdue → a.balance < -(a.limit : Int) →
    t.hasFlag .accountOverdue = true
  low      : r.account.state ≠ .barred → r.account.state ≠ .low → a.standing = .low → t.hasFlag .accountLow = true
  barred   : a.bars s.settings.overdueGrace s.now = true → t.hasFlag .accountBarred = true

theorem rewriteAccount_follows (live : s.occ? n = some r) (g : Account → Account)
    (same : (g r.account).state = r.account.state) :
    Follows s n r (g r.account) ((s.modAccount n g).computeStanding n)
      (if (g r.account).bars s.settings.overdueGrace s.now = true
        then s.occ.notices ++ [⟨.barred, n, ⟨s.moments, s.now⟩⟩] else s.occ.notices) := by
  have there : (s.modAccount n g).occ? n = some { r with account := g r.account } :=
    modOcc_self (f := fun r => { r with account := g r.account }) live fun _ => rfl
  obtain ⟨p, shape⟩ := computeStanding_eq there
  obtain ⟨low, due, bars⟩ := computeStanding_flags there
  have free : r.account.state ≠ .barred → ((g r.account).computed s.now).state = (g r.account).standing := fun h =>
    if_neg (by rw [same]; exact h)
  refine ⟨?_, fun m other => ?_, ?_, fun open_ new below => ?_, fun open_ new is => ?_, bars⟩
  · rw [shape]
    exact modOcc_self (r := { r with account := g r.account })
      (f := fun x => { x with account := (g r.account).settled s.settings.overdueGrace s.now }) there fun _ => rfl
  · rw [shape]
    refine (modOcc_other (f := fun x => { x with account := (g r.account).settled s.settings.overdueGrace s.now }) other
      fun _ => rfl).trans ?_
    exact modOcc_other (f := fun r => { r with account := g r.account }) other fun _ => rfl
  · rw [shape]
    rfl
  · exact due ((free open_).trans ((standing_overdue_iff _).mpr below)) (by show (g r.account).state ≠ _; rw [same]; exact new)
  · exact low ((free open_).trans is) (by show (g r.account).state ≠ _; rw [same]; exact new)

/-- An account that leaves BARRED gets its standing, and SPC is told (R37). -/
theorem leaveBarred_eq (live : s.occ? n = some r) : ∃ p,
    s.leaveBarred n = { s.modOcc n (fun x => { x with account := { x.account with state := r.account.standing } }) with
      pnp := p
      occ := { (s.modOcc n fun x => { x with account := { x.account with state := r.account.standing } }).occ with
        notices := s.occ.notices ++ [⟨.unbarred, n, ⟨s.moments, s.now⟩⟩] } } := by
  let w := s.modOcc n fun x => { x with account := { x.account with state := r.account.standing } }
  obtain ⟨p, low⟩ := setFlagIf_eq w (r.account.standing == .low) .accountLow
  obtain ⟨q, due⟩ := setFlagIf_eq ({ w with pnp := p } : State) (r.account.standing == .overdue) .accountOverdue
  have both := (congrArg (fun x : State => x.setFlagIf (r.account.standing == .overdue) .accountOverdue) low).trans due
  refine ⟨q, ?_⟩
  unfold State.leaveBarred
  simp only [live]
  exact congrArg (fun x : State => x.notify .unbarred n) both

end

/-! ### O38 -/

theorem exec_topUp (n amount : Nat) (s : State) : exec (.topUp n amount) s = execTopUp n amount s := rfl

theorem exec_setLimit (n keep limit : Nat) (warn : Int) (s : State) :
    exec (.setLimit n keep limit warn) s = execSetLimit n keep limit warn s := rfl

theorem exec_bar (n : Nat) (s : State) : exec (.bar n) s = execBar n s := rfl

theorem exec_unbar (n : Nat) (s : State) : exec (.unbar n) s = execUnbar n s := rfl

section
variable {s : State} {n : Nat} {r : Occupancy}

theorem topUp_decided (taken : Takes 31 s) (low : 1 ≤ n) (high : n ≤ 64) (live : s.occ? n = some r) (amount : Nat) :
    (amount = 0 ∨ 99999999 < amount ∨ 99999999 < r.account.balance + amount →
      exec (.topUp n amount) s = .next { s with pnp := s.pnp.answered 31 (.refused .range) }) ∧
    (1 ≤ amount → amount ≤ 99999999 → r.account.balance + amount ≤ 99999999 →
      exec (.topUp n amount) s = .next (((s.takeFrame 31).topUp n amount r).writeAnswer 31
        (.done (((s.takeFrame 31).topUp n amount r).accountAnswer n true)))) := by
  have decided := (exec_occRequest taken (exec_topUp n amount s)).2.2 low high r live
  have range : (decide (amount = 0) || decide (Config.balanceMax < (amount : Int)) ||
      decide (Config.balanceMax < r.account.balance + amount)) = true ↔
      amount = 0 ∨ 99999999 < amount ∨ 99999999 < r.account.balance + amount := by
    rw [Bool.or_eq_true, Bool.or_eq_true, decide_eq_true_iff, decide_eq_true_iff, decide_eq_true_iff]
    show (amount = 0 ∨ (99999999 : Int) < amount) ∨ (99999999 : Int) < r.account.balance + amount ↔ _
    omega
  refine ⟨fun out => decided.trans ?_, fun h1 h2 h3 => decided.trans ?_⟩
  · simp only [range.mpr out, if_true]
    rfl
  · simp only [Bool.eq_false_iff.mpr (mt range.mp (by omega)), Bool.false_eq_true, if_false]

theorem accountAnswer_eq (live : s.occ? n = some r) :
    s.accountAnswer n true = i32 r.account.balance ++ u8 r.account.state.code := by
  unfold State.accountAnswer
  simp only [live, if_true]

theorem topUp_eq (s : State) (n amount : Nat) (r : Occupancy) :
    s.topUp n amount r = if (r.account.state = .barred && 0 ≤ r.account.balance + amount) = true
      then ((s.modAccount n fun a => { a with balance := r.account.balance + amount }).computeStanding n).leaveBarred n
      else (s.modAccount n fun a => { a with balance := r.account.balance + amount }).computeStanding n := rfl

/-- The account with the limit and the warn level of a SET LIMIT, those kept that its mark keeps (R39). -/
def Account.relimited (keep limit : Nat) (warn : Int) (a : Account) : Account :=
  { a with
    limit := if keep % 2 = 1 then a.limit else limit
    warn := if keep / 2 % 2 = 1 then a.warn else warn }

theorem setLimit_decided (taken : Takes 32 s) (low : 1 ≤ n) (high : n ≤ 64) (live : s.occ? n = some r)
    (keep limit : Nat) (warn : Int) :
    ((keep % 2 = 0 ∧ 10000000 < limit) ∨ (keep / 2 % 2 = 0 ∧ (warn < -10000000 ∨ 10000000 < warn)) →
      exec (.setLimit n keep limit warn) s = .next { s with pnp := s.pnp.answered 32 (.refused .range) }) ∧
    ((keep % 2 = 1 ∨ limit ≤ 10000000) → (keep / 2 % 2 = 1 ∨ (-10000000 ≤ warn ∧ warn ≤ 10000000)) →
      exec (.setLimit n keep limit warn) s = .next
        ((((s.takeFrame 32).modAccount n (Account.relimited keep limit warn)).computeStanding n).writeAnswer 32
          (.done ((((s.takeFrame 32).modAccount n (Account.relimited keep limit warn)).computeStanding n).accountAnswer
            n false)))) := by
  have decided := (exec_occRequest taken (exec_setLimit n keep limit warn s)).2.2 low high r live
  have range : (!(keep % 2 == 1) && decide (10000000 < limit) ||
      !(keep / 2 % 2 == 1) && (decide (warn < -10000000) || decide (10000000 < warn))) = true ↔
      (keep % 2 = 0 ∧ 10000000 < limit) ∨ (keep / 2 % 2 = 0 ∧ (warn < -10000000 ∨ 10000000 < warn)) := by
    rw [Bool.or_eq_true, Bool.and_eq_true, Bool.and_eq_true, Bool.or_eq_true, decide_eq_true_iff, decide_eq_true_iff,
      decide_eq_true_iff, Bool.not_eq_true', Bool.not_eq_true', beq_eq_false_iff_ne, beq_eq_false_iff_ne]
    omega
  refine ⟨fun out => decided.trans ?_, fun h1 h2 => decided.trans ?_⟩
  · simp only [range.mpr out, if_true]
    rfl
  · have inside := Bool.eq_false_iff.mpr (mt range.mp (by omega))
    simp only [inside, Bool.false_eq_true, if_false, beq_iff_eq]
    rfl

theorem bar_decided (taken : Takes 33 s) (low : 1 ≤ n) (high : n ≤ 64) (live : s.occ? n = some r) :
    (r.account.state = .barred →
      exec (.bar n) s = .next { s with pnp := s.pnp.answered 33 (.refused .state) }) ∧
    (r.account.state ≠ .barred →
      exec (.bar n) s = .next (((s.takeFrame 33).enterBarred n).writeAnswer 33 (.done []))) := by
  have decided := (exec_occRequest taken (exec_bar n s)).2.2 low high r live
  refine ⟨fun barred => decided.trans ?_, fun free => decided.trans ?_⟩
  · simp only [barred, if_true]
    rfl
  · simp only [free, if_false]

theorem unbar_decided (taken : Takes 34 s) (low : 1 ≤ n) (high : n ≤ 64) (live : s.occ? n = some r) :
    (r.account.state ≠ .barred →
      exec (.unbar n) s = .next { s with pnp := s.pnp.answered 34 (.refused .state) }) ∧
    (r.account.state = .barred → r.account.balance < -(r.account.limit : Int) →
      exec (.unbar n) s = .next { s with pnp := s.pnp.answered 34 (.refused .funds) }) ∧
    (r.account.state = .barred → -(r.account.limit : Int) ≤ r.account.balance →
      exec (.unbar n) s = .next (((s.takeFrame 34).leaveBarred n).writeAnswer 34 (.done []))) := by
  have decided := (exec_occRequest taken (exec_unbar n s)).2.2 low high r live
  refine ⟨fun free => decided.trans ?_, fun barred below => decided.trans ?_, fun barred above => decided.trans ?_⟩
  · simp only [ne_eq, free, not_false_eq_true, if_true]
    rfl
  · simp only [ne_eq, barred, not_true_eq_false, if_false, below, if_true]
    rfl
  · simp only [ne_eq, barred, not_true_eq_false, if_false, Int.not_lt.mpr above]

/-- The clauses of an account rewritten, as the rules say them (R33, R36, R37). -/
theorem Follows.says {a : Account} {t : State} (h : Follows s n r a t
      (if a.bars s.settings.overdueGrace s.now = true then s.occ.notices ++ [⟨.barred, n, ⟨s.moments, s.now⟩⟩]
        else s.occ.notices))
    (state : a.state = r.account.state) (since : a.overdueSince = r.account.overdueSince) :
    (a.balance < -(a.limit : Int) → (a.settled s.settings.overdueGrace s.now).overdueSince =
      some (r.account.overdueSince.getD s.now)) ∧
    (¬ a.balance < -(a.limit : Int) → (a.settled s.settings.overdueGrace s.now).overdueSince = none) ∧
    (r.account.state ≠ .barred → ¬ (a.balance < -(a.limit : Int) ∧
        (r.account.overdueSince.getD s.now).toMs + s.settings.overdueGrace * 3600000 < s.now.toMs) →
      (a.settled s.settings.overdueGrace s.now).state = a.standing ∧ t.occ.notices = s.occ.notices) ∧
    (r.account.state ≠ .barred → a.balance < -(a.limit : Int) →
        (r.account.overdueSince.getD s.now).toMs + s.settings.overdueGrace * 3600000 < s.now.toMs →
      (a.settled s.settings.overdueGrace s.now).state = .barred ∧
        t.occ.notices = s.occ.notices ++ [⟨.barred, n, ⟨s.moments, s.now⟩⟩] ∧ t.hasFlag .accountBarred = true) := by
  obtain ⟨-, -, -, -, since'⟩ := a.settled_fields s.settings.overdueGrace s.now
  rw [since] at since'
  refine ⟨fun below => since'.trans (if_pos below), fun above => since'.trans (if_neg above), fun free none => ?_,
    fun free below late => ?_⟩
  · obtain ⟨stays, standing⟩ := settled_standing a s.settings.overdueGrace s.now (by rw [state]; exact free)
      (by rw [since, graceOver_iff]; exact none)
    exact ⟨standing, h.notices.trans (if_neg (by simp [stays]))⟩
  · obtain ⟨bars, barred⟩ := settled_barred a s.settings.overdueGrace s.now (by rw [state]; exact free) below
      (by rw [since, graceOver_iff]; exact late)
    exact ⟨barred, h.notices.trans (if_pos bars), h.barred bars⟩

end

/-- Settles O38: TOP UP, SET LIMIT, BAR and UNBAR. -/
theorem accountRequests : Obligations.AccountRequests := by
  refine ⟨fun c code n amount keep limit warn s known tk => ?_, fun n r s low high live => ?_⟩
  · simp only [List.mem_cons, Prod.mk.injEq, List.not_mem_nil, or_false] at known
    rcases known with ⟨rfl, rfl⟩ | ⟨rfl, rfl⟩ | ⟨rfl, rfl⟩ | ⟨rfl, rfl⟩
    · exact ⟨(exec_occRequest tk (exec_topUp n _ s)).1, (exec_occRequest tk (exec_topUp n _ s)).2.1⟩
    · exact ⟨(exec_occRequest tk (exec_setLimit n _ _ _ s)).1, (exec_occRequest tk (exec_setLimit n _ _ _ s)).2.1⟩
    · exact ⟨(exec_occRequest tk (exec_bar n s)).1, (exec_occRequest tk (exec_bar n s)).2.1⟩
    · exact ⟨(exec_occRequest tk (exec_unbar n s)).1, (exec_occRequest tk (exec_unbar n s)).2.1⟩
  intro a standing refused follows
  refine ⟨fun tk amount => ?_, fun tk keep limit warn => ?_, fun tk => ?_, fun tk => ?_⟩
  · intro b
    obtain ⟨range, done⟩ := topUp_decided tk low high live amount
    refine ⟨range, fun h1 h2 h3 => ?_⟩
    have runs := done h1 h2 h3
    have follow := rewriteAccount_follows (s := s.takeFrame 31) live (fun a => { a with balance := b }) rfl
    let w : State := ((s.takeFrame 31).modAccount n fun a => { a with balance := b }).computeStanding n
    obtain ⟨since, none, open_, barred⟩ := follow.says rfl rfl
    have stays := settled_stays { a with balance := b } s.settings.overdueGrace s.now
    by_cases leaves : a.state = .barred ∧ 0 ≤ b
    · have tops : (s.takeFrame 31).topUp n amount r = w.leaveBarred n := by
        rw [topUp_eq, if_pos]
        exact Bool.and_eq_true_iff.mpr ⟨decide_eq_true leaves.1, decide_eq_true leaves.2⟩
      obtain ⟨p, shape⟩ := leaveBarred_eq follow.now
      rw [tops, shape] at runs
      let f : Occupancy → Occupancy := fun x => { x with account := { x.account with
        state := (Account.settled { a with balance := b } s.settings.overdueGrace s.now).standing } }
      have now := modOcc_self (f := f) follow.now fun _ => rfl
      have moved := within_computeStanding ((s.takeFrame 31).modAccount n fun a => { a with balance := b }) n
      have moments : w.moments = s.moments := moved.frame .moments (by decide)
      have time : w.now = s.now := by
        have : w.sch = s.sch := moved.frame .sch (by decide)
        show ({ .. } : Time) = _
        rw [this]
        rfl
      have told : w.occ.notices = s.occ.notices := follow.notices.trans (if_neg (Bool.eq_false_iff.mp (stays leaves.1).1))
      refine ⟨_, _, runs, now, fun m other => (modOcc_other (f := f) other fun _ => rfl).trans (follow.others m other),
        rfl, rfl, rfl, rfl, rfl, ⟨since, none, fun h => absurd leaves.1 h, fun h => absurd leaves.1 h,
          fun h => absurd leaves.1 h, fun h => absurd leaves.1 h⟩, fun _ low => absurd low (Int.not_lt.mpr leaves.2),
        fun _ _ => ⟨rfl, ?_⟩, rfl, ?_, frame_of_runs runs⟩
      · show w.occ.notices ++ [⟨.unbarred, n, ⟨w.moments, w.now⟩⟩] = _
        rw [told, moments, time]
      · exact congrArg List.head? (accountAnswer_eq now)
    · have tops : (s.takeFrame 31).topUp n amount r = w := by
        rw [topUp_eq, if_neg]
        rw [Bool.and_eq_true_iff, decide_eq_true_iff, decide_eq_true_iff]
        exact leaves
      rw [tops] at runs
      refine ⟨_, _, runs, follow.now, follow.others, rfl, rfl, rfl, rfl, rfl, ⟨since, none, open_, barred,
        follow.overdue, follow.low⟩, fun h _ => ?_, fun h above => absurd ⟨h, above⟩ leaves, rfl, ?_, frame_of_runs runs⟩
      · exact ⟨(stays h).2, follow.notices.trans (if_neg (Bool.eq_false_iff.mp (stays h).1))⟩
      · exact congrArg List.head? (accountAnswer_eq follow.now)
  · intro limit' warn'
    obtain ⟨range, done⟩ := setLimit_decided tk low high live keep limit warn
    refine ⟨range, fun h1 h2 => ?_⟩
    have runs := done h1 h2
    have follow := rewriteAccount_follows (s := s.takeFrame 32) live (Account.relimited keep limit warn) rfl
    obtain ⟨since, none, open_, barred⟩ := follow.says rfl rfl
    refine ⟨_, _, runs, follow.now, follow.others, rfl, rfl, rfl, rfl, ⟨since, none, open_, barred,
      follow.overdue, follow.low⟩, fun h => ?_, rfl, frame_of_runs runs⟩
    obtain ⟨stays, state⟩ := settled_stays (Account.relimited keep limit warn a) s.settings.overdueGrace s.now h
    exact ⟨state, follow.notices.trans (if_neg (Bool.eq_false_iff.mp stays))⟩
  · obtain ⟨no, yes⟩ := bar_decided tk low high live
    refine ⟨no, fun free => ?_⟩
    have runs := yes free
    let f : Occupancy → Occupancy := fun r => { r with account := { r.account with state := .barred } }
    exact ⟨_, runs, modOcc_self (f := f) live fun _ => rfl, fun m other => modOcc_other (f := f) other fun _ => rfl,
      rfl, rfl, frame_of_runs runs⟩
  · obtain ⟨no, poor, yes⟩ := unbar_decided tk low high live
    refine ⟨no, poor, fun barred above => ?_⟩
    have runs := yes barred above
    obtain ⟨p, shape⟩ := leaveBarred_eq (s := s.takeFrame 34) live
    rw [shape] at runs
    let f : Occupancy → Occupancy := fun x => { x with account := { x.account with state := r.account.standing } }
    exact ⟨_, runs, modOcc_self (f := f) live fun _ => rfl, fun m other => modOcc_other (f := f) other fun _ => rfl,
      rfl, rfl, frame_of_runs runs⟩

end Sys2Proof.Machine
end

section
/-! PROOFS. Hold asks, settlements and lapses (02): each HOLD ASK and SETTLE is answered. -/

namespace Sys2Proof.Machine

set_option Elab.async false

/-! ### Hold ids (R40) -/

/-- No next number is found exactly where every number of the range is in use. -/
theorem nextFree_none_iff {lo hi last : Nat} {used : List Nat} (h : lo ≤ hi) :
    nextFree lo hi last used = none ↔ ∀ i, lo ≤ i → i ≤ hi → i ∈ used := by
  constructor
  · intro none i low high
    obtain ⟨c, all⟩ := nextFreeIn_none h _ _ none
    have span : 0 < hi - lo + 1 := Nat.succ_pos _
    let k := (i - lo + (hi - lo + 1) - c % (hi - lo + 1)) % (hi - lo + 1)
    have reached : (c + k) % (hi - lo + 1) = i - lo := by
      have below := Nat.mod_lt c span
      show (c + (i - lo + (hi - lo + 1) - c % (hi - lo + 1)) % (hi - lo + 1)) % (hi - lo + 1) = i - lo
      rw [Nat.add_mod, Nat.mod_mod, ← Nat.add_mod]
      have split : c + (i - lo + (hi - lo + 1) - c % (hi - lo + 1)) =
          i - lo + (hi - lo + 1) * (c / (hi - lo + 1) + 1) := by
        have := Nat.div_add_mod c (hi - lo + 1)
        rw [Nat.mul_add, Nat.mul_one]
        omega
      rw [split, Nat.add_mul_mod_self_left, Nat.mod_eq_of_lt (by omega)]
    have full : hi - lo + 1 ≤ used.length := by
      by_contra few
      have := nextFree_isSome (last := last) (by omega : used.length < hi - lo + 1) h
      simp [none] at this
    have := all k (Nat.lt_succ_of_lt (Nat.lt_of_lt_of_le (Nat.mod_lt _ span) full))
    rw [reached] at this
    rwa [show lo + (i - lo) = i by omega] at this
  · intro all
    cases found : nextFree lo hi last used with
    | none => rfl
    | some k =>
      obtain ⟨low, high, fresh⟩ := nextFreeIn_some h found
      exact absurd (all k low high) fresh

/-! ### O39: hold asks (R41) -/

theorem exec_holdAskFrame {src : RxSource} {f : Frame} {note : Option Nat} {s u : State} (on : s.powered = true)
    (got : s.takeRx 9 src = some (f, note, u)) :
    (u.cardHolder (f.num 0 5) = none ∨ f.num 5 3 < 100 ∨ 500000 < f.num 5 3 →
      exec (.holdAskFrame src) s = .next u) ∧
    (∀ r, u.cardHolder (f.num 0 5) = some r → 100 ≤ f.num 5 3 → f.num 5 3 ≤ 500000 →
      exec (.holdAskFrame src) s =
        .next (u.answerHold r f.sender (f.keyField 0 2) (f.keyField 2 8) (f.num 5 3))) := by
  have runs : exec (.holdAskFrame src) s = .next _ := congrArg Host.Outcome.next (State.frameEvent_taken on got)
  refine ⟨fun h => runs.trans ?_, fun r held low high => runs.trans ?_⟩
  · cases held : u.cardHolder (f.num 0 5) with
    | none => rfl
    | some r =>
      have outside : within 100 500000 (f.num 5 3) = false := by
        have := h.resolve_left (by simp [held])
        simp [within]
        omega
      simp only [outside, Bool.false_eq_true, if_false]
  · have inside : within 100 500000 (f.num 5 3) = true := by simp [within, low, high]
    simp only [held, inside, if_true]

section
variable {s : State} {r : Occupancy} {station pump ask amount : Nat}

/-- A hold that an ask repeats (R41). -/
def Hold.repeats (station pump ask : Nat) (h : Hold) : Prop :=
  h.station = station ∧ h.pump = some pump ∧ h.ask = some ask

theorem repeatedHold_first {before after : List Hold} {h : Hold} (split : r.holds = before ++ h :: after)
    (first : ∀ x ∈ before, ¬ x.repeats station pump ask) (same : h.repeats station pump ask) :
    r.repeatedHold station pump ask = some h := by
  refine List.find?_eq_some_iff_append.mpr ⟨?_, before, after, split, fun x hx => ?_⟩
  · obtain ⟨a, b, c⟩ := same
    simp [a, b, c]
  · have := first x hx
    unfold Hold.repeats at this
    simp only [Bool.not_eq_true', Bool.and_eq_false_iff, beq_eq_false_iff_ne]
    tauto

theorem repeatedHold_none (new : ∀ h ∈ r.holds, ¬ h.repeats station pump ask) :
    r.repeatedHold station pump ask = none := by
  refine List.find?_eq_none.mpr fun x hx => ?_
  have := new x hx
  unfold Hold.repeats at this
  simp only [Bool.and_eq_true, beq_iff_eq]
  tauto

theorem answerHold_again {h : Hold} (found : r.repeatedHold station pump ask = some h) :
    s.answerHold r station pump ask amount = s.queueFrame (holdOkFrame s.me station pump ask h.id r.number) := by
  unfold State.answerHold
  simp only [found]

theorem answerHold_refused {c : HoldCause} (new : r.repeatedHold station pump ask = none)
    (refusal : s.holdRefusal r amount = some c) :
    s.answerHold r station pump ask amount = s.queueFrame (holdRefusedFrame s.me station pump ask c) := by
  unfold State.answerHold
  simp only [new, refusal]

theorem answerHold_placed {id : Nat} (new : r.repeatedHold station pump ask = none)
    (refusal : s.holdRefusal r amount = none) (next : s.nextHoldId = some id) :
    s.answerHold r station pump ask amount = (s.placeHold r.number id station pump ask amount).queueFrame
      (holdOkFrame s.me station pump ask id r.number) := by
  unfold State.answerHold
  simp only [new, refusal, next, Option.getD_some]

theorem nextHoldId_none_iff (s : State) : s.nextHoldId = none ↔ ∀ i, 1 ≤ i → i ≤ 255 → i ∈ s.holdIds :=
  nextFree_none_iff (by decide)

/-- The causes that refuse a HOLD ASK, in their order (R41). -/
theorem holdRefusal_cases :
    let locked : Prop := ∃ c, r.credential = some c ∧ c.locked = true
    let poor : Prop := r.account.state = .overdue ∨ r.account.state = .barred ∨ r.available < amount
    (r.state = .booked ∨ r.closureDue.isSome = true → s.holdRefusal r amount = some .state) ∧
    (r.state ≠ .booked → r.closureDue = none → locked → s.holdRefusal r amount = some .locked) ∧
    (r.state ≠ .booked → r.closureDue = none → ¬ locked → poor → s.holdRefusal r amount = some .funds) ∧
    (r.state ≠ .booked → r.closureDue = none → ¬ locked → ¬ poor → s.holdRefusal r amount =
      if (decide (4 ≤ r.holds.length) || s.nextHoldId.isNone) = true then some .holds else none) := by
  intro locked poor
  have shut : (match r.credential with | some c => c.locked | none => false) = true ↔ locked := by
    cases has : r.credential with
    | none => simp [locked, has]
    | some c => simp [locked, has]
  unfold State.holdRefusal
  refine ⟨fun h => if_pos ?_, fun live free is => ?_, fun live free no is => ?_, fun live free no rich => ?_⟩
  · simpa using h
  all_goals
    have first : (decide (r.state = .booked) || r.closureDue.isSome) = false := by simp [live, free]
    rw [if_neg (Bool.eq_false_iff.mp first)]
  · exact if_pos (shut.mpr is)
  · refine (if_neg (mt shut.mp no)).trans ?_
    by_cases owes : r.account.state = .overdue ∨ r.account.state = .barred
    · exact if_pos (by simpa using owes)
    · rw [if_neg (by simpa using owes), if_pos]
      rcases is with h | h | h
      · exact absurd (.inl h) owes
      · exact absurd (.inr h) owes
      · exact h
  · refine (if_neg (mt shut.mp no)).trans ?_
    have solvent : ¬ (r.account.state = .overdue ∨ r.account.state = .barred) := fun h => rich (h.imp_right .inl)
    rw [if_neg (by simpa using solvent), if_neg fun h => rich (.inr (.inr h))]
    rfl

end

/-- Settles O39: each HOLD ASK for a card of the station is answered. -/
theorem holdAsksAreAnswered : Obligations.HoldAsksAreAnswered := by
  intro src f note s u on got amount pump ask queues
  obtain ⟨nothing, asked⟩ := exec_holdAskFrame on got
  have received := State.takeRx_frame got
  obtain ⟨rx, loop, rfl⟩ := takeRx_eq got
  let u : State := { s with lif := { s.lif with rx := rx, loop := loop } }
  refine ⟨nothing, fun r held live low high => ?_⟩
  have runs := asked r held low high
  intro same locked poor refused
  have sends : ∀ (g : Frame) (data : List Byte), g = mkFrame 10 [(5, f.sender), (2, pump), (8, ask)] s.me data →
      queues (u.queueFrame g) g := by
    rintro g data rfl line room
    exact queueFrame_mem (s := u) (kind := 10) line room s.me
  have refuses : ∀ c, (∀ h ∈ r.holds, ¬ same h) → u.holdRefusal r amount = some c → refused c := by
    intro c new refusal
    rw [answerHold_refused (repeatedHold_none new) refusal] at runs
    exact ⟨_, runs, (within_queueFrame u _).occ, sends _ _ rfl, (received.andThen (within_queueFrame u _) :
      Within [.lif] s _).frame⟩
  have causes := holdRefusal_cases (s := u) (r := r) (amount := amount)
  obtain ⟨state, shut, funds, rest⟩ := causes
  have ids := nextHoldId_none_iff u
  refine ⟨fun before h after split first is => ?_, fun new => ⟨fun h => refuses _ new (state h),
    fun h1 h2 h3 => refuses _ new (shut h1 h2 h3), fun h1 h2 h3 h4 => refuses _ new (funds h1 h2 h3 h4),
    fun h1 h2 h3 h4 h5 => refuses _ new ((rest h1 h2 h3 h4).trans (if_pos ?_)),
    fun h1 h2 h3 h4 few free => ?_⟩⟩
  · rw [answerHold_again (repeatedHold_first split first is)] at runs
    exact ⟨_, runs, (within_queueFrame u _).occ, sends _ _ rfl, (received.andThen (within_queueFrame u _) :
      Within [.lif] s _).frame⟩
  · rcases h5 with many | all
    · simp [many]
    · simp [ids.mpr all]
  · cases next : u.nextHoldId with
    | none =>
      obtain ⟨i, i1, i2, i3⟩ := free
      exact absurd (ids.mp next i i1 i2) i3
    | some id =>
      have clear : u.holdRefusal r amount = none := by
        refine (rest h1 h2 h3 h4).trans (if_neg ?_)
        simp [next, few]
      rw [answerHold_placed (repeatedHold_none new) clear next] at runs
      obtain ⟨id1, id2, id3⟩ := nextFreeIn_some (by decide) next
      let h : Hold := ⟨id, f.sender, some pump, some ask, amount, s.now, s.now.addSec (s.settings.holdLifetime * 60)⟩
      have number : ∀ x : Occupancy, ({ x with holds := x.holds ++ [h] } : Occupancy).number = x.number := fun _ => rfl
      let v : State := { u with occ := { u.occ with holdId := id } }
      have placed : u.placeHold r.number id f.sender pump ask amount =
          v.modOcc r.number fun x => { x with holds := x.holds ++ [h] } := rfl
      have occ : (State.queueFrame (holdOkFrame s.me f.sender pump ask id r.number)
          (u.placeHold r.number id f.sender pump ask amount)).occ = _ := (within_queueFrame _ _).occ
      refine ⟨_, h, runs, ?_, fun m other => ?_, congrArg Occ.holdId occ, id1, id2, id3, rfl, rfl, rfl, rfl, rfl, rfl,
        fun line room => queueFrame_mem (s := u.placeHold r.number id f.sender pump ask amount) (kind := 10) line room
          s.me, frame_of_runs runs⟩
      · exact (congrArg (fun o : Occ => lookupKey Occupancy.number r.number o.records) occ).trans
          (modOcc_self (s := v) live number)
      · exact (congrArg (fun o : Occ => lookupKey Occupancy.number m o.records) occ).trans
          (modOcc_other (s := v) other number)

/-! ### O40: settlements (R42) -/

section
variable {s : State} {n : Nat} {r : Occupancy}

/-- A closure record says of a state and a record only its time, its links and the fields it copies (R34). -/
theorem IsClosureOf.congr {w : State} {x : Occupancy} {reason : CloseReason} {c : Closure}
    (h : IsClosureOf w x reason c) (now : w.now = s.now) (link : w.link? x.number = s.link? r.number)
    (number : x.number = r.number)
    (berth : x.berth = r.berth) (cls : x.cls = r.cls) (arrival : x.arrival = r.arrival) (nights : x.nights = r.nights)
    (balance : x.account.balance = r.account.balance) (late : x.account.late = r.account.late) :
    IsClosureOf s r reason c := by
  obtain ⟨h1, h2, h3, h4, h5, h6, h7, h8, h9, h10, h11⟩ := h
  rw [link] at h10 h11
  exact ⟨h1.trans number, h2.trans berth, h3.trans cls, h4.trans arrival, h5.trans nights, h6, h7.trans now,
    h8.trans balance, h9.trans late, h10, h11⟩

theorem link?_congr {w : State} (h : w.spc = s.spc) (m : Nat) : w.link? m = s.link? m := by
  simp [State.link?, h]

theorem time_of_sch {w : State} (h : w.sch = s.sch) : w.now = s.now := by
  simp [State.now, h]

/-- The balance after a settlement: 0 debits nothing (R38). -/
def lessDebit (amount : Nat) (b : Int) : Int := if amount = 0 then b else max (-99999999) (b - amount)

/-- A debit changes the record's account alone (R38). -/
theorem debit_says (live : s.occ? n = some r) (cents : Nat) : ∃ a : Account,
    (s.debit n cents).occ? n = some { r with account := a } ∧ a.balance = lessDebit cents r.account.balance ∧
    a.late = r.account.late ∧ (∀ m, m ≠ n → (s.debit n cents).occ? m = s.occ? m) ∧
    (s.debit n cents).occ.closures = s.occ.closures := by
  by_cases none : cents = 0
  · subst none
    exact ⟨r.account, live, rfl, rfl, fun _ _ => rfl, rfl⟩
  · rw [debit_eq live none]
    have follow := rewriteAccount_follows live (fun a => a.debited cents) rfl
    have closures : ∀ w : State, ∀ x : Occupancy, w.occ? n = some x →
        (w.computeStanding n).occ.closures = w.occ.closures := by
      intro w x there
      obtain ⟨p, shape⟩ := computeStanding_eq there
      rw [shape]
      rfl
    refine ⟨_, follow.now, ?_, rfl, follow.others, ?_⟩
    · show max (-99999999) (r.account.balance - cents) = _
      rw [lessDebit, if_neg none]
    · exact closures (s.modAccount n fun a => a.debited cents) _
        (modOcc_self (f := fun r => { r with account := r.account.debited cents }) live fun _ => rfl)

theorem settleCase_unknown (none : s.occ? n = none) (station hold sale amount : Nat) :
    s.settleCase n station hold sale amount = (s, .unknown) := by
  unfold State.settleCase
  simp only [none]

theorem settleCase_again {before after : List Receipt} {x : Receipt} {station hold sale : Nat}
    (live : s.occ? n = some r) (split : r.receipts = before ++ x :: after)
    (first : ∀ y ∈ before, ¬ (y.station = station ∧ y.hold = hold ∧ y.sale = sale))
    (same : x.station = station ∧ x.hold = hold ∧ x.sale = sale) (amount : Nat) :
    s.settleCase n station hold sale amount = (s, x.result) := by
  have found : r.receipts.find? (fun x => x.station == station && x.hold == hold && x.sale == sale) = some x := by
    refine List.find?_eq_some_iff_append.mpr ⟨?_, before, after, split, fun y hy => ?_⟩
    · simp [same.1, same.2.1, same.2.2]
    · have := first y hy
      simp only [Bool.not_eq_true', Bool.and_eq_false_iff, beq_eq_false_iff_ne]
      tauto
  unfold State.settleCase
  simp only [live, found]

theorem settleCase_new {station hold sale : Nat} (live : s.occ? n = some r)
    (new : ∀ y ∈ r.receipts, ¬ (y.station = station ∧ y.hold = hold ∧ y.sale = sale)) (amount : Nat) :
    s.settleCase n station hold sale amount = s.settleRecord r station hold sale amount := by
  have none : r.receipts.find? (fun x => x.station == station && x.hold == hold && x.sale == sale) = none := by
    refine List.find?_eq_none.mpr fun y hy => ?_
    have := new y hy
    simp only [Bool.and_eq_true, beq_iff_eq]
    tauto
  unfold State.settleCase
  simp only [live, none]

theorem addReceipt_eq (rc : Receipt) (l : List Receipt) : addReceipt rc l = (l ++ [rc]).drop (l.length + 1 - 4) := by
  simp [addReceipt, Config.maxReceipts]

/-- A record once a settlement is applied against its hold (R42). -/
def Occupancy.applied (r : Occupancy) (a : Account) (hold : Nat) (rc : Receipt) : Occupancy :=
  { r with
    account := a
    holds := r.holds.filter fun h => h.id != hold
    receipts := (r.receipts ++ [rc]).drop (r.receipts.length + 1 - 4) }

theorem settleRecord_applied {station hold : Nat} (live : s.occ? n = some r)
    (held : ∃ h ∈ r.holds, h.id = hold ∧ h.station = station) (sale amount : Nat) : ∃ (w : State) (a : Account),
    s.settleRecord r station hold sale amount = (w.testRemoval n, .applied) ∧
    w.occ? n = some (r.applied a hold ⟨station, hold, sale, .applied⟩) ∧
    a.balance = lessDebit amount r.account.balance ∧ a.late = r.account.late ∧
    (∀ m, m ≠ n → w.occ? m = s.occ? m) ∧ w.occ.closures = s.occ.closures ∧ Within [.occ] s w := by
  have there : (r.holds.any fun h => h.id == hold && h.station == station) = true := by
    obtain ⟨h, hh, e1, e2⟩ := held
    exact List.any_eq_true.mpr ⟨h, hh, by simp [e1, e2]⟩
  obtain ⟨a, now, balance, late, others, closures⟩ := debit_says live amount
  refine ⟨((s.debit n amount).dropHold n hold).giveReceipt n ⟨station, hold, sale, .applied⟩, a, ?_, ?_, balance, late,
    fun m other => ?_, closures, ((within_debit s n amount).trans (within_dropHold _ _ _)).trans (within_giveReceipt _ _ _)⟩
  · unfold State.settleRecord
    rw [if_pos there, occ?_number live]
  · have dropped := modOcc_self (f := fun r => { r with holds := r.holds.filter fun h => h.id != hold }) now fun _ => rfl
    refine (modOcc_self (f := fun r => { r with receipts := addReceipt ⟨station, hold, sale, .applied⟩ r.receipts })
      dropped fun _ => rfl).trans ?_
    rw [addReceipt_eq]
    rfl
  · refine (modOcc_other (f := fun r => { r with receipts := addReceipt ⟨station, hold, sale, .applied⟩ r.receipts })
      other fun _ => rfl).trans ?_
    exact (modOcc_other (f := fun r => { r with holds := r.holds.filter fun h => h.id != hold }) other fun _ => rfl).trans
      (others m other)

theorem settleRecord_late {station hold : Nat} (live : s.occ? n = some r)
    (free : ∀ h ∈ r.holds, h.id = hold → h.station ≠ station) (sale amount : Nat) : ∃ (w : State) (a : Account),
    s.settleRecord r station hold sale amount = (w, .lateApplied) ∧
    w.occ? n = some { r with
      account := a
      receipts := (r.receipts ++ [Receipt.mk station hold sale .lateApplied]).drop (r.receipts.length + 1 - 4) } ∧
    a.balance = lessDebit amount r.account.balance ∧ a.late = (r.account.late || decide (amount ≠ 0)) ∧
    (amount ≠ 0 → w.hasFlag .lateSettle = true) ∧ (∀ m, m ≠ n → w.occ? m = s.occ? m) := by
  have none : (r.holds.any fun h => h.id == hold && h.station == station) = false := by
    refine List.any_eq_false.mpr fun h hh => ?_
    have := free h hh
    simp only [Bool.and_eq_true, beq_iff_eq]
    exact fun e => this e.1 e.2
  have receipt := fun (v : State) (x : Occupancy) (at_ : v.occ? n = some x) =>
    (modOcc_self (f := fun r => { r with receipts := addReceipt (Receipt.mk station hold sale .lateApplied) r.receipts })
      at_ fun _ => rfl).trans (congrArg (fun l => some ({ x with receipts := l } : Occupancy))
        (addReceipt_eq (Receipt.mk station hold sale .lateApplied) x.receipts))
  have apart := fun (v : State) (m : Nat) (other : m ≠ n) =>
    (modOcc_other (s := v) (f := fun r => { r with
      receipts := addReceipt (Receipt.mk station hold sale .lateApplied) r.receipts }) other fun _ => rfl)
  by_cases zero : amount = 0
  · subst zero
    refine ⟨s.giveReceipt n ⟨station, hold, sale, .lateApplied⟩, r.account, ?_, receipt s r live, rfl, by simp,
      fun h => absurd rfl h, apart s⟩
    unfold State.settleRecord
    rw [none, occ?_number live]
    rfl
  · obtain ⟨a, now, balance, late, others, -⟩ := debit_says live amount
    let v : State := ((s.debit n amount).modAccount n fun a => { a with late := true }).setFlag .lateSettle
    have now' : v.occ? n = some { r with account := { a with late := true } } :=
      modOcc_self (f := fun r => { r with account := { r.account with late := true } }) now fun _ => rfl
    refine ⟨v.giveReceipt n ⟨station, hold, sale, .lateApplied⟩, { a with late := true }, ?_, receipt v _ now', balance,
      by simp [zero], fun _ => (within_giveReceipt v _ _).hasFlag (hasFlag_setFlag _ _), fun m other => ?_⟩
    · unfold State.settleRecord
      rw [none, occ?_number live]
      simp only [Bool.false_eq_true, if_false, zero]
      rfl
    · exact (apart v m other).trans ((modOcc_other (f := fun r => { r with account := { r.account with late := true } })
        other fun _ => rfl).trans (others m other))

end

theorem exec_settleFrame {src : RxSource} {f : Frame} {note : Option Nat} {s u : State} (on : s.powered = true)
    (got : s.takeRx 11 src = some (f, note, u)) {w : State} {res : SettleResult}
    (comes : u.settleCase (f.num 3 1) f.sender (f.keyField 5 8) (f.num 4 2) (f.num 0 3) = (w, res)) :
    exec (.settleFrame src) s = .next (w.queueFrame (settleAnswerFrame w.me f.sender (f.keyField 5 8) res)) := by
  have runs : exec (.settleFrame src) s = .next _ := congrArg Host.Outcome.next (State.frameEvent_taken on got)
  refine runs.trans ?_
  simp only [comes]

/-- Settles O40: each SETTLE is answered by its case, and a hold lapses at its expiry. -/
theorem settlesAndLapses : Obligations.SettlesAndLapses := by
  refine ⟨fun src f note s u on got => ?_, fun n r h s on line live held => ?_⟩
  · intro hold amount occ sale answers less
    have comes := fun {w res} => exec_settleFrame (w := w) (res := res) on got
    obtain ⟨rx, loop, rfl⟩ := takeRx_eq got
    let u : State := { s with lif := { s.lif with rx := rx, loop := loop } }
    have sends : ∀ (w : State) (res : SettleResult), u.settleCase occ f.sender hold sale amount = (w, res) →
        answers (w.queueFrame (settleAnswerFrame w.me f.sender hold res)) res := by
      intro w res is
      have moved : Within [.occ, .spc] u w := by
        have := within_settleCase u occ f.sender hold sale amount
        rwa [is] at this
      have me : w.me = s.me := by
        have : w.straps = s.straps := moved.frame .straps (by decide)
        simp [State.me, this]
      refine ⟨comes is, fun on room => ?_, frame_of_runs (comes is)⟩
      have lif : w.lif = u.lif := moved.lif
      obtain ⟨x, there, note, same⟩ := queueFrame_mem (s := w) (kind := 12)
        (fields := [(5, f.sender), (8, hold)]) (data := beBytes 1 res.code) ((congrArg Lif.state lif).trans on)
        ((congrArg (fun l : Lif => l.tx.length) lif).trans_lt room) s.me
      refine ⟨x, ?_, note.trans (congrArg Lif.serial lif :), same⟩
      rw [me]
      exact there
    have occs : ∀ (w : State) (g : Frame), (w.queueFrame g).occ = w.occ := fun w g => (within_queueFrame w g).occ
    refine ⟨fun none => ⟨_, sends _ _ (settleCase_unknown (s := u) none _ _ _ _), occs _ _⟩, fun r live => ?_⟩
    intro known receipts
    refine ⟨fun before x after split first same => ⟨_, sends _ _ (settleCase_again (s := u) live split first same _), occs _ _⟩,
      fun new held => ?_, fun new free => ?_⟩
    · intro kept ends
      obtain ⟨w, a, is, now, balance, late, others, closures, moved⟩ := settleRecord_applied (s := u) live held sale amount
      have sent := sends _ _ ((settleCase_new (s := u) live new amount).trans is)
      obtain ⟨apart, stays, closes⟩ := testRemoval_says now
      have waits : (r.applied a hold ⟨f.sender, hold, sale, .applied⟩).closureWaits = true ↔ ends := closureWaits_iff _
      have closures' : w.occ.closures = s.occ.closures := closures
      rw [closures'] at stays closes
      refine ⟨fun h => ?_, fun left room => ?_⟩
      · obtain ⟨there, same, -, flag⟩ := stays (h.imp_left fun no => Bool.eq_false_iff.mpr (mt waits.mp no))
        have occ' := (occs (w.testRemoval occ) (settleAnswerFrame (w.testRemoval occ).me f.sender hold .applied)).trans same
        exact ⟨_, _, sent, (congrArg (fun o : Occ => lookupKey Occupancy.number occ o.records) occ').trans now, balance,
          rfl, rfl, rfl, rfl, late, (congrArg Occ.closures occ').trans closures',
          fun left due => (within_queueFrame _ _).hasFlag (flag (waits.mpr left) due), fun m other =>
          (congrArg (fun o : Occ => lookupKey Occupancy.number m o.records) occ').trans (others m other)⟩
      · have closed := closes (waits.mpr left) room
        have occ' := occs (w.testRemoval occ) (settleAnswerFrame (w.testRemoval occ).me f.sender hold .applied)
        have find := fun m => (congrArg (fun o : Occ => lookupKey Occupancy.number m o.records) occ' :)
        refine ⟨_, closureOf w (r.applied a hold ⟨f.sender, hold, sale, .applied⟩) (r.closureDue.getD .departed), sent,
          (find occ).trans closed.gone, ?_, (within_queueFrame _ _).hasFlag closed.flag, ?_,
          fun m other => (find m).trans ((apart m other).trans (others m other))⟩
        · exact (congrArg Occ.closures occ').trans (closed.closures.trans (congrArg (· ++ _) closures'))
        · refine (closureOf_is w _ _).congr (time_of_sch (moved.frame .sch (by decide)))
            (link?_congr moved.spc _) rfl rfl rfl rfl rfl
            balance late
    · obtain ⟨w, a, is, now, balance, late, flag, others⟩ := settleRecord_late (s := u) live free sale amount
      have sent := sends _ _ ((settleCase_new (s := u) live new amount).trans is)
      have occ' := occs w (settleAnswerFrame w.me f.sender hold .lateApplied)
      have find := fun m => (congrArg (fun o : Occ => lookupKey Occupancy.number m o.records) occ' :)
      exact ⟨_, _, sent, (find occ).trans now, balance, rfl, rfl, rfl, late,
        fun some => (within_queueFrame _ _).hasFlag (flag some), fun m other => (find m).trans (others m other)⟩
  · intro v kept ends
    have later : Within [.elapsed, .sch] s v := within_advanceToTime s _
    have there : v.occ? n = some r := (congrArg (fun o : Occ => lookupKey Occupancy.number n o.records) later.occ).trans live
    have runs : exec (.holdExpiry n h.id) s = .next (v.lapseHold n h.id) := by
      show Host.Outcome.next (s.event _) = _
      rw [State.event_on on]
      have past : s.unconfigured = false := by simpa [State.unconfigured] using line
      have found : ((s.occ? n).bind fun r => r.holds.find? fun x => x.id == h.id) = some h := by rw [live]; exact held
      simp only [past, Bool.false_eq_true, if_false, found]
      rfl
    let f : Occupancy → Occupancy := fun r => { r with holds := r.holds.filter fun x => x.id != h.id }
    let w : State := (v.dropHold n h.id).setFlag .holdLapsed
    have now : w.occ? n = some { r with holds := kept } := modOcc_self (f := f) there fun _ => rfl
    have others : ∀ m, m ≠ n → w.occ? m = s.occ? m := fun m other =>
      (modOcc_other (f := f) other fun _ => rfl).trans
        (congrArg (fun o : Occ => lookupKey Occupancy.number m o.records) later.occ)
    obtain ⟨apart, stays, closes⟩ := testRemoval_says now
    have waits : ({ r with holds := kept } : Occupancy).closureWaits = true ↔ ends := closureWaits_iff _
    have closures : w.occ.closures = s.occ.closures :=
      (congrArg Occ.closures later.occ : v.occ.closures = s.occ.closures)
    rw [closures] at stays closes
    have tested := within_testRemoval w n
    refine ⟨_, runs, tested.hasFlag (hasFlag_setFlag _ _), tested.frame .elapsed (by decide),
      tested.frame .sch (by decide), fun m other => (apart m other).trans (others m other), fun h => ?_,
      fun left room => ?_, frame_of_runs runs⟩
    · obtain ⟨same, occ, -, flag⟩ := stays (h.imp_left fun no => Bool.eq_false_iff.mpr (mt waits.mp no))
      exact ⟨same, (congrArg Occ.closures occ).trans closures, fun left due => flag (waits.mpr left) due⟩
    · have closed := closes (waits.mpr left) room
      exact ⟨closed.gone, closed.flag, _, closed.closures.trans (congrArg (· ++ _) closures),
        (closureOf_is w _ _).congr rfl rfl rfl rfl rfl rfl rfl rfl rfl⟩

end Sys2Proof.Machine
end

section
/-! PROOFS. Passes over OCC's table (02): a pass meets the records one by one, and what it does to one record is
done to that record alone. CLOSURE COLLECT and the day roll are such passes. -/

namespace Sys2Proof.Machine

set_option Elab.async false

/-! ### What a pass can do -/

/-- From `s` to `t` records may change, close and leave, and each closure is appended and flagged (R34). -/
structure Moves (s t : State) : Prop where
  within : Within [.occ, .spc] s t
  gone   : ∀ n, s.occ? n = none → t.occ? n = none
  closes : ∃ added, t.occ.closures = s.occ.closures ++ added ∧
    (∀ c ∈ added, (s.occ? c.occupancy).isSome = true ∧ t.occ? c.occupancy = none) ∧
    (added ≠ [] → t.hasFlag .closureAdded = true)

/-- From `s` to `t` the record of a number, its link and what SPC is told of it stay. -/
structure Beside (n : Nat) (s t : State) : Prop extends Moves s t where
  stays   : t.occ? n = s.occ? n
  link    : t.link? n = s.link? n
  notices : ∀ x ∈ s.occ.notices, x.occ = n → x ∈ t.occ.notices

/-- From `s` to `t` one record alone is touched. -/
structure Touches (m : Nat) (s t : State) : Prop extends Moves s t where
  others : ∀ n, n ≠ m → Beside n s t

section
variable {s t u : State} {n m : Nat} {c : Closure}

theorem Moves.refl (s : State) : Moves s s :=
  ⟨.refl _ s, fun _ h => h, [], by simp, by simp, by simp⟩

theorem Moves.trans (h : Moves s t) (g : Moves t u) : Moves s u := by
  obtain ⟨a, e1, c1, f1⟩ := h.closes
  obtain ⟨b, e2, c2, f2⟩ := g.closes
  refine ⟨h.within.trans g.within, fun n none => g.gone n (h.gone n none), a ++ b, ?_, fun c hc => ?_, fun some => ?_⟩
  · rw [e2, e1, List.append_assoc]
  · rcases List.mem_append.mp hc with hc | hc
    · exact ⟨(c1 c hc).1, g.gone _ (c1 c hc).2⟩
    · refine ⟨?_, (c2 c hc).2⟩
      cases there : s.occ? c.occupancy with
      | none => simpa [h.gone _ there] using (c2 c hc).1
      | some x => rfl
  · by_cases later : b = []
    · exact g.within.hasFlag (f1 (by simpa [later] using some))
    · exact f2 later

theorem Moves.sch (h : Moves s t) : t.sch = s.sch := h.within.frame .sch (by decide)

theorem Moves.bal (h : Moves s t) : t.bal = s.bal := h.within.frame .bal (by decide)

theorem Moves.settings (h : Moves s t) : t.settings = s.settings := h.within.frame .settings (by decide)

theorem Moves.moments (h : Moves s t) : t.moments = s.moments := h.within.frame .moments (by decide)

theorem Moves.now (h : Moves s t) : t.now = s.now := time_of_sch h.sch

theorem Moves.today (h : Moves s t) : t.today = s.today := by simp [State.today, h.sch]

theorem Moves.berthPoint (h : Moves s t) (b : Nat) : t.berthPoint b = s.berthPoint b := by
  simp [State.berthPoint, State.berth?, h.bal]

theorem Moves.full (h : Moves s t) (full : 8 ≤ s.occ.closures.length) : 8 ≤ t.occ.closures.length := by
  obtain ⟨a, e, -, -⟩ := h.closes
  rw [e, List.length_append]
  omega

/-- A closure of `t` that `s` did not have (R34). -/
def NewClosure (s t : State) (c : Closure) : Prop := c ∈ t.occ.closures.drop s.occ.closures.length

theorem NewClosure.after (h : NewClosure s t c) (g : Moves t u) : NewClosure s u c := by
  obtain ⟨b, e, -, -⟩ := g.closes
  unfold NewClosure at *
  rw [e, List.drop_append]
  exact List.mem_append_left _ h

theorem NewClosure.before (h : NewClosure t u c) (g : Moves s t) : NewClosure s u c := by
  obtain ⟨a, e, -, -⟩ := g.closes
  unfold NewClosure at *
  rw [e, List.length_append, ← List.drop_drop] at h
  exact List.mem_of_mem_drop h

theorem Beside.refl (n : Nat) (s : State) : Beside n s s := ⟨.refl s, rfl, rfl, fun _ h _ => h⟩

theorem Beside.trans (h : Beside n s t) (g : Beside n t u) : Beside n s u :=
  ⟨h.toMoves.trans g.toMoves, g.stays.trans h.stays, g.link.trans h.link,
    fun x hx e => g.notices x (h.notices x hx e) e⟩

theorem Touches.refl (m : Nat) (s : State) : Touches m s s := ⟨.refl s, fun n _ => .refl n s⟩

theorem Touches.trans (h : Touches m s t) (g : Touches m t u) : Touches m s u :=
  ⟨h.toMoves.trans g.toMoves, fun n other => (h.others n other).trans (g.others n other)⟩

/-! ### A pass over a list of numbers -/

section
variable {f : State → Nat → State}

theorem foldl_moves (h : ∀ s m, Touches m s (f s m)) (l : List Nat) (s : State) : Moves s (l.foldl f s) := by
  induction l generalizing s with
  | nil => exact .refl s
  | cons m l ih => exact (h s m).toMoves.trans (ih _)

/-- A pass that does not come to a number leaves its record. -/
theorem foldl_beside (h : ∀ s m, Touches m s (f s m)) {l : List Nat} (s : State) (out : n ∉ l) :
    Beside n s (l.foldl f s) := by
  induction l generalizing s with
  | nil => exact .refl n s
  | cons m l ih =>
    exact ((h s m).others n fun e => out (e ▸ List.mem_cons_self ..)).trans
      (ih _ fun hn => out (List.mem_cons_of_mem _ hn))

/-- A pass comes to each number once: before it and after it the record stays. -/
theorem foldl_split (h : ∀ s m, Touches m s (f s m)) {l : List Nat} (once : l.Nodup) (s : State) (in_ : n ∈ l) :
    ∃ before, before <+: l ∧ Beside n s (before.foldl f s) ∧ Beside n (f (before.foldl f s) n) (l.foldl f s) := by
  obtain ⟨before, after, split⟩ := List.append_of_mem in_
  subst split
  have apart := List.nodup_middle.mp once
  have fresh : n ∉ before ++ after := (List.nodup_cons.mp apart).1
  refine ⟨before, List.prefix_append _ _, foldl_beside h s fun hn => fresh (List.mem_append_left _ hn), ?_⟩
  rw [List.foldl_append, List.foldl_cons]
  exact foldl_beside h _ fun hn => fresh (List.mem_append_right _ hn)

/-- A pass comes to each number once, finds its record as it was, and leaves it as the step made it. -/
theorem foldl_at (h : ∀ s m, Touches m s (f s m)) {l : List Nat} (once : l.Nodup) (s : State) (in_ : n ∈ l) :
    ∃ u, Beside n s u ∧ Beside n (f u n) (l.foldl f s) := by
  obtain ⟨before, -, here, later⟩ := foldl_split h once s in_
  exact ⟨_, here, later⟩

end

/-! ### The steps -/

theorem modOcc_touches {g : Occupancy → Occupancy} (hg : ∀ r, (g r).number = r.number) (s : State) (m : Nat) :
    Touches m s (s.modOcc m g) := by
  have moves : Moves s (s.modOcc m g) := by
    refine ⟨(within_modOcc s m g).widen, fun n none => ?_, [], by simp [State.modOcc], by simp, by simp⟩
    rw [modOcc_occ? s hg, none]
    simp
  exact ⟨moves, fun n other => ⟨moves, modOcc_other other hg, rfl, fun _ h _ => h⟩⟩

theorem beside_pnp (s : State) (p : Pnp) (h : Within [] s { s with pnp := p }) (n : Nat) :
    Beside n s { s with pnp := p } :=
  ⟨⟨h.widen, fun _ h => h, [], by simp, by simp, by simp⟩, rfl, rfl, fun _ h _ => h⟩

theorem setFlag_touches (s : State) (m : Nat) (g : Flag) : Touches m s (s.setFlag g) :=
  ⟨(beside_pnp s _ (within_setFlag s g) m).toMoves, fun n _ => beside_pnp s _ (within_setFlag s g) n⟩

theorem notify_touches (s : State) (k : NoticeKind) (m : Nat) : Touches m s (s.notify k m) := by
  have moves : Moves s (s.notify k m) :=
    ⟨(within_notify s k m).widen, fun _ h => h, [], by simp [State.notify], by simp, by simp⟩
  exact ⟨moves, fun n _ => ⟨moves, rfl, rfl, fun _ h _ => List.mem_append_left _ h⟩⟩

theorem removeOcc_notices (s : State) (m : Nat) {x : Notice} (h : x ∈ s.occ.notices) (other : x.occ ≠ m) :
    x ∈ (s.removeOcc m).occ.notices := List.mem_filter.mpr ⟨h, by simpa using other⟩

theorem closeOcc_touches {r : Occupancy} (live : s.occ? m = some r) (reason : CloseReason) :
    Touches m s (s.closeOcc m reason) := by
  have closed := closeOcc_closed live reason
  have number := occ?_number live
  have moves : Moves s (s.closeOcc m reason) := by
    refine ⟨closed.within, fun n none => ?_, [closureOf s r reason], closed.closures, fun c hc => ?_,
      fun _ => closed.flag⟩
    · rw [closed.others n fun e => by rw [e, live] at none; cases none]
      exact none
    · rw [List.mem_singleton.mp hc]
      show (s.occ? r.number).isSome = true ∧ _ = _
      rw [number, live]
      exact ⟨rfl, (congrArg _ number).trans closed.gone⟩
  have runs : s.closeOcc m reason =
      (({ s with occ := { s.occ with closures := s.occ.closures ++ [closureOf s r reason] } } : State).setFlag
        .closureAdded).removeOcc m := by
    unfold State.closeOcc
    simp only [live]
  refine ⟨moves, fun n other => ⟨moves, closed.others n other, ?_, fun x hx e => ?_⟩⟩
  · rw [runs, removeOcc_link?, if_neg other]
    rfl
  · rw [runs]
    exact removeOcc_notices _ m hx (by rw [e]; exact other)

theorem Closed.new {r : Occupancy} {reason : CloseReason} (h : Closed m r reason s t) :
    NewClosure s t (closureOf s r reason) := by
  unfold NewClosure
  rw [h.closures, List.drop_left]
  exact List.mem_singleton_self _

theorem testRemoval_touches (s : State) (m : Nat) : Touches m s (s.testRemoval m) := by
  cases live : s.occ? m with
  | none =>
    have : s.testRemoval m = s := by unfold State.testRemoval; simp only [live]
    rw [this]
    exact .refl m s
  | some r =>
    cases waits : r.closureWaits with
    | false =>
      rw [testRemoval_stays live waits]
      exact .refl m s
    | true =>
      cases room : s.closureRoom with
      | true =>
        rw [testRemoval_closes live waits room]
        exact closeOcc_touches live _
      | false =>
        rw [testRemoval_full live waits room]
        split
        · exact .refl m s
        · exact setFlag_touches s m _

end

/-! ### The waiting closures retried (R35) -/

/-- One waiting closure retried (R35). -/
def State.retryOne (s : State) (n : Nat) : State := if s.closureRoom then s.testRemoval n else s

theorem retryOne_touches (s : State) (m : Nat) : Touches m s (s.retryOne m) := by
  unfold State.retryOne
  split
  · exact testRemoval_touches s m
  · exact .refl m s

theorem retryClosures_eq (s : State) : s.retryClosures =
    (keysOf Occupancy.number (s.occ.records.filter Occupancy.closureWaits)).foldl State.retryOne s := rfl

section
variable {s : State} {n : Nat} {r : Occupancy}

theorem occ?_mem (live : s.occ? n = some r) : r ∈ s.occ.records := (lookupKey_some live).1

/-- In a table in number order each record is the one its number finds (R25). -/
theorem occ?_of_mem (sorted : s.occ.records.Pairwise fun a b => a.number < b.number) (there : r ∈ s.occ.records) :
    s.occ? r.number = some r := by
  unfold State.occ? lookupKey
  generalize s.occ.records = l at sorted there
  induction l with
  | nil => cases there
  | cons x l ih =>
    obtain ⟨first, rest⟩ := List.pairwise_cons.mp sorted
    rw [List.find?_cons]
    rcases List.mem_cons.mp there with rfl | later
    · simp
    · have : (x.number == r.number) = false := by simpa using Nat.ne_of_lt (first r later)
      rw [this]
      exact ih rest later

theorem keys_nodup (sorted : s.occ.records.Pairwise fun a b => a.number < b.number) (p : Occupancy → Bool) :
    (keysOf Occupancy.number (s.occ.records.filter p)).Nodup :=
  List.Pairwise.map _ (fun _ _ h => Nat.ne_of_lt h) (sorted.sublist List.filter_sublist)

/-- What retrying the waiting closures leaves of a record: one that does not wait stays, and one that waits closes,
or stays where the list is full (R35). -/
theorem retryClosures_at (sorted : s.occ.records.Pairwise fun a b => a.number < b.number) (live : s.occ? n = some r) :
    (r.closureWaits = false → Beside n s s.retryClosures) ∧
    (r.closureWaits = true →
      (s.retryClosures.occ? n = none ∧
        ∃ c, NewClosure s s.retryClosures c ∧ IsClosureOf s r (r.closureDue.getD .departed) c) ∨
      (8 ≤ s.retryClosures.occ.closures.length ∧ Beside n s s.retryClosures)) := by
  have once := keys_nodup sorted Occupancy.closureWaits
  rw [retryClosures_eq]
  refine ⟨fun idle => foldl_beside retryOne_touches s fun listed => ?_, fun waits => ?_⟩
  · obtain ⟨x, hx, number⟩ := List.mem_map.mp listed
    obtain ⟨there, waits⟩ := List.mem_filter.mp hx
    have := occ?_of_mem sorted there
    rw [number, live] at this
    obtain rfl := Option.some.inj this
    simp [idle] at waits
  · have listed : n ∈ keysOf Occupancy.number (s.occ.records.filter Occupancy.closureWaits) :=
      List.mem_map.mpr ⟨r, List.mem_filter.mpr ⟨occ?_mem live, waits⟩, occ?_number live⟩
    obtain ⟨u, before, after⟩ := foldl_at retryOne_touches once s listed
    have live' : u.occ? n = some r := before.stays.trans live
    cases room : u.closureRoom with
    | true =>
      have closes : u.retryOne n = u.closeOcc n (r.closureDue.getD .departed) := by
        unfold State.retryOne
        rw [if_pos room, testRemoval_closes live' waits room]
      rw [closes] at after
      have closed := closeOcc_closed live' (r.closureDue.getD .departed)
      refine .inl ⟨after.stays.trans closed.gone, closureOf u r (r.closureDue.getD .departed),
        (closed.new.before before.toMoves).after after.toMoves, ?_⟩
      · have number := occ?_number live
        exact (closureOf_is u r _).congr before.now (by rw [number]; exact before.link) rfl rfl rfl rfl rfl rfl rfl
    | false =>
      have waits' : u.retryOne n = u := by
        unfold State.retryOne
        rw [room]
        rfl
      rw [waits'] at after
      have full := mt (closureRoom_iff u).mpr (Bool.eq_false_iff.mp room)
      exact .inr ⟨after.full (Nat.not_lt.mp full), before.trans after⟩

end

end Sys2Proof.Machine
end

section
/-! PROOFS. CLOSURE COLLECT and JOURNAL COLLECT (R35, R125), and the day roll (R32). -/

namespace Sys2Proof.Machine

set_option Elab.async false

/-! ### O36: the collects -/

section
variable {s : State} {n : Nat} {r : Occupancy}

theorem retryOne_idle (live : s.occ? n = some r) (idle : r.closureWaits = false) (m : Nat) :
    (s.retryOne m).occ? n = some r := by
  by_cases same : n = m
  · subst same
    unfold State.retryOne
    rw [testRemoval_stays live idle, ite_self]
    exact live
  · exact ((retryOne_touches s m).others n same).stays.trans live

/-- A record that does not wait for its closure stays whatever is retried (R35). -/
theorem foldl_retryOne_idle (idle : r.closureWaits = false) (l : List Nat) :
    ∀ s : State, s.occ? n = some r → (l.foldl State.retryOne s).occ? n = some r := by
  induction l with
  | nil => exact fun _ live => live
  | cons m l ih => exact fun s live => ih _ (retryOne_idle live idle m)

/-- The first record that waits, with room, is the first to close (R35). -/
theorem retryClosures_first {before after : List Occupancy}
    (sorted : s.occ.records.Pairwise fun a b => a.number < b.number) (split : s.occ.records = before ++ r :: after)
    (idle : ∀ x ∈ before, x.closureWaits = false) (waits : r.closureWaits = true) (room : s.closureRoom = true) :
    s.retryClosures.occ? r.number = none ∧ ∃ more, s.retryClosures.occ.closures =
      s.occ.closures ++ closureOf s r (r.closureDue.getD .departed) :: more := by
  have live : s.occ? r.number = some r := occ?_of_mem sorted (by rw [split]; simp)
  have keys : keysOf Occupancy.number (s.occ.records.filter Occupancy.closureWaits) =
      r.number :: keysOf Occupancy.number (after.filter Occupancy.closureWaits) := by
    have none : before.filter Occupancy.closureWaits = [] :=
      List.filter_eq_nil_iff.mpr fun x hx => by simp [idle x hx]
    rw [split, List.filter_append, none, List.nil_append, List.filter_cons_of_pos waits]
    rfl
  have closes : s.retryOne r.number = s.closeOcc r.number (r.closureDue.getD .departed) := by
    unfold State.retryOne
    rw [if_pos room, testRemoval_closes live waits room]
  have closed := closeOcc_closed live (r.closureDue.getD .departed)
  rw [retryClosures_eq, keys, List.foldl_cons, closes]
  have moves := foldl_moves retryOne_touches (keysOf Occupancy.number (after.filter Occupancy.closureWaits))
    (s.closeOcc r.number (r.closureDue.getD .departed))
  obtain ⟨more, closures, -, -⟩ := moves.closes
  refine ⟨moves.gone _ closed.gone, more, ?_⟩
  rw [closures, closed.closures, List.append_assoc]
  rfl

end

theorem exec_closureCollect {s : State} (taken : Takes 25 s) :
    (s.occ.closures = [] → exec .closureCollect s = .next { s with pnp := s.pnp.answered 25 .ignored }) ∧
    (∀ c rest, s.occ.closures = c :: rest → exec .closureCollect s = .next
      (State.writeAnswer 25 (.done []) (State.retryClosures
        { s.takeFrame 25 with occ := { s.occ with closures := rest } }))) := by
  have decided : exec .closureCollect s = .next _ := congrArg Host.Outcome.next (State.request_taken taken)
  refine ⟨fun none => decided.trans ?_, fun c rest some => decided.trans ?_⟩
  · have none' : (s.takeFrame 25).occ.closures = [] := none
    simp only [none']
    rfl
  · have some' : (s.takeFrame 25).occ.closures = c :: rest := some
    simp only [some']
    rfl

theorem exec_journalCollect {s : State} (taken : Takes 54 s) :
    (s.oldestClosed = none → exec .journalCollect s = .next { s with pnp := s.pnp.answered 54 .ignored }) ∧
    (∀ r, s.oldestClosed = some r → exec .journalCollect s = .next { s with
      fdc := { s.fdc with journal := s.fdc.journal.filter fun x => x.number != r.number }
      pnp := s.pnp.answered 54 (.done [⟨2, r.number⟩]) }) := by
  have decided : exec .journalCollect s = .next _ := congrArg Host.Outcome.next (State.request_taken taken)
  refine ⟨fun empty => decided.trans ?_, fun c there => decided.trans ?_⟩
  · have empty' : (s.takeFrame 54).oldestClosed = none := empty
    simp only [empty']
    rfl
  · have there' : (s.takeFrame 54).oldestClosed = some c := there
    simp only [there']
    rfl

/-- Settles O36: the collects take the oldest closure and journal records. -/
theorem collectsTakeTheOldest : Obligations.CollectsTakeTheOldest := by
  refine ⟨fun s taken => ?_, fun s taken => ?_⟩
  · obtain ⟨empty, takes⟩ := exec_closureCollect taken
    refine ⟨empty, fun c rest there => ?_⟩
    intro waits
    have runs := takes c rest there
    let u : State := { s.takeFrame 25 with occ := { s.occ with closures := rest } }
    have moves : Moves u u.retryClosures := foldl_moves retryOne_touches _ u
    obtain ⟨added, closures, -, -⟩ := moves.closes
    have waits_iff : ∀ r : Occupancy, r.closureWaits = true ↔ waits r := closureWaits_iff
    refine ⟨_, added, runs, closures, fun idle => ?_, fun sound before r after split first wait => ?_,
      fun n r live idle => ?_, rfl, frame_of_runs runs⟩
    · have none : u.occ.records.filter Occupancy.closureWaits = [] :=
        List.filter_eq_nil_iff.mpr fun x hx => fun h => idle x hx ((waits_iff x).mp h)
      have same : u.retryClosures = u := by
        rw [retryClosures_eq, none]
        rfl
      have nothing : added = [] := by simpa [same] using closures
      refine ⟨nothing, ?_⟩
      show u.retryClosures.occ.records = _
      rw [same]
    · have room : u.closureRoom = true := by
        refine (closureRoom_iff u).mpr ?_
        have := sound.2.2.2.1
        rw [there, List.length_cons] at this
        exact this
      obtain ⟨gone, more, first_⟩ := retryClosures_first (s := u) sound.1 split
        (fun x hx => Bool.eq_false_iff.mpr fun h => first x hx ((waits_iff x).mp h)) ((waits_iff r).mpr wait) room
      refine ⟨gone, _, more, List.append_cancel_left (closures.symm.trans first_), rfl, rfl, rfl⟩
    · exact foldl_retryOne_idle (Bool.eq_false_iff.mpr fun h => idle ((waits_iff r).mp h)) _ u live
  · obtain ⟨empty, takes⟩ := exec_journalCollect taken
    refine ⟨fun none => empty (List.find?_eq_none.mpr fun r hr => by simp [none r hr]),
      fun before r after split first closed => takes r ?_⟩
    exact List.find?_eq_some_iff_append.mpr ⟨closed, before, after, split, fun x hx => by simp [first x hx]⟩

end Sys2Proof.Machine
end

section
/-! PROOFS. The day roll (R32): the state step of every record, the overdue checks, and the waiting closures. -/

namespace Sys2Proof.Machine

set_option Elab.async false

/-! ### The state step of a record -/

/-- The record's departure day has come (R30, R32). -/
def Occupancy.leaves (r : Occupancy) (today : Nat) : Bool :=
  r.state == .alongside && decide (r.arrival + r.nights ≤ today)

/-- The record's arrival day has passed with the boat still awaited (R32). -/
def Occupancy.missed (r : Occupancy) (today : Nat) : Bool :=
  r.state == .booked && decide (r.arrival + 1 ≤ today) && r.closureDue.isNone

/-- The record as the state step of the day roll makes it, unless it closes (R32). -/
def State.rolled (s : State) (r : Occupancy) : Occupancy :=
  if r.leaves s.today then s.departed r
  else if r.missed s.today then { r with closureDue := some .noShow } else r

section
variable {s : State} {n m : Nat} {r : Occupancy}

theorem toDeparting_touches (s : State) (m : Nat) : Touches m s (s.toDeparting m) := by
  unfold State.toDeparting
  exact ((modOcc_touches (g := fun r => { r with
    state := .departing
    graceEnd := some (s.now.addSec (s.settings.departureGrace * 3600))
    awaiting := (s.occPoint m).isSome }) (fun _ => rfl) s m).trans (notify_touches _ _ m)).trans (testRemoval_touches _ m)

theorem dayRollRecord_none (gone : s.occ? n = none) : s.dayRollRecord n = s := by
  unfold State.dayRollRecord
  simp only [gone]

theorem dayRollRecord_leaves (live : s.occ? n = some r) (leaves : r.leaves s.today = true) :
    s.dayRollRecord n = s.toDeparting n := by
  obtain ⟨state, day⟩ := Bool.and_eq_true_iff.mp leaves
  have state : r.state = .alongside := by simpa using state
  have day : r.departureDay ≤ s.today := of_decide_eq_true day
  unfold State.dayRollRecord
  simp only [live, state, day, if_true]

theorem dayRollRecord_missed (live : s.occ? n = some r) (missed : r.missed s.today = true) :
    s.dayRollRecord n = if s.closureRoom = true then s.closeOcc n .noShow
      else (s.modOcc n fun r => { r with closureDue := some .noShow }).setFlag .closureWaiting := by
  obtain ⟨first, free⟩ := Bool.and_eq_true_iff.mp missed
  obtain ⟨state, day⟩ := Bool.and_eq_true_iff.mp first
  have state : r.state = .booked := by simpa using state
  unfold State.dayRollRecord
  simp only [live, state]
  exact if_pos (Bool.and_eq_true_iff.mpr ⟨day, free⟩)

theorem dayRollRecord_stays (live : s.occ? n = some r) (h1 : r.leaves s.today = false) (h2 : r.missed s.today = false) :
    s.dayRollRecord n = s := by
  unfold State.dayRollRecord
  simp only [live]
  cases state : r.state with
  | alongside =>
    refine if_neg fun day => ?_
    have : r.leaves s.today = true := Bool.and_eq_true_iff.mpr ⟨by simp [state], decide_eq_true day⟩
    simp [h1] at this
  | booked =>
    refine if_neg fun day => ?_
    obtain ⟨d, f⟩ := Bool.and_eq_true_iff.mp day
    have : r.missed s.today = true :=
      Bool.and_eq_true_iff.mpr ⟨Bool.and_eq_true_iff.mpr ⟨by simp [state], d⟩, f⟩
    simp [h2] at this
  | departing => rfl

theorem dayRollRecord_touches (s : State) (m : Nat) : Touches m s (s.dayRollRecord m) := by
  cases live : s.occ? m with
  | none => rw [dayRollRecord_none live]; exact .refl m s
  | some r =>
    cases leaves : r.leaves s.today with
    | true => rw [dayRollRecord_leaves live leaves]; exact toDeparting_touches s m
    | false =>
      cases missed : r.missed s.today with
      | true =>
        rw [dayRollRecord_missed live missed]
        split
        · exact closeOcc_touches live _
        · exact (modOcc_touches (g := fun r => { r with closureDue := some .noShow }) (fun _ => rfl) s m).trans (setFlag_touches _ m _)
      | false => rw [dayRollRecord_stays live leaves missed]; exact .refl m s

/-- What the state step leaves of its record: closed, or written with its flag and notice (R30, R32). -/
structure Stepped (n : Nat) (r x : Occupancy) (s t : State) : Prop where
  now     : t.occ? n = some x
  link    : t.link? n = s.link? n
  full    : r.missed s.today = true ∨ (r.leaves s.today = true ∧ r.closureDue = none ∧ x.closureWaits = true) →
    t.hasFlag .closureWaiting = true
  notice  : r.leaves s.today = true → ⟨.departing, n, ⟨s.moments, s.now⟩⟩ ∈ t.occ.notices

theorem dayRollRecord_at (live : s.occ? n = some r) :
    ((s.dayRollRecord n).occ? n = none ∧ (s.rolled r).closureWaits = true ∧ ∃ c, NewClosure s (s.dayRollRecord n) c ∧
      IsClosureOf s r ((s.rolled r).closureDue.getD .departed) c) ∨
    Stepped n r (s.rolled r) s (s.dayRollRecord n) := by
  have number := occ?_number live
  cases leaves : r.leaves s.today with
  | true =>
    have rolled : s.rolled r = s.departed r := by unfold State.rolled; rw [if_pos leaves]
    have notMissed : r.missed s.today = false := by
      have state : r.state = .alongside := by simpa using (Bool.and_eq_true_iff.mp leaves).1
      simp [Occupancy.missed, state]
    rw [dayRollRecord_leaves live leaves, rolled]
    obtain ⟨w, departs, there, others, shape⟩ := toDeparting_eq live
    rw [departs]
    obtain ⟨-, stays, closes⟩ := testRemoval_says there
    have notices : w.occ.notices = s.occ.notices ++ [⟨.departing, n, ⟨s.moments, s.now⟩⟩] := by rw [shape]
    have closures : w.occ.closures = s.occ.closures := by rw [shape]
    have link : w.link? n = s.link? n := by rw [shape]; rfl
    have now : w.now = s.now := by rw [shape]; rfl
    by_cases h : (s.departed r).closureWaits = true ∧ w.occ.closures.length < 8
    · have closed := closes h.1 h.2
      refine .inl ⟨closed.gone, h.1, _, ?_, (closureOf_is w _ _).congr now ?_ rfl rfl rfl rfl rfl rfl rfl⟩
      · have new := closed.new
        unfold NewClosure at *
        rwa [closures] at new
      · show w.link? r.number = s.link? r.number
        rw [number]
        exact link
    · have none : (s.departed r).closureWaits = false ∨ 8 ≤ w.occ.closures.length := by
        by_cases waits : (s.departed r).closureWaits = true
        · exact .inr (Nat.not_lt.mp fun few => h ⟨waits, few⟩)
        · exact .inl (Bool.eq_false_iff.mpr waits)
      obtain ⟨same, occ, spc, flag⟩ := stays none
      refine .inr ⟨same, (link?_congr spc n).trans link, fun why => ?_, fun _ => ?_⟩
      · rcases why with why | ⟨-, due, waits⟩
        · rw [notMissed] at why
          cases why
        · exact flag waits due
      · rw [congrArg Occ.notices occ, notices]
        exact List.mem_append_right _ (List.mem_singleton_self _)
  | false =>
    cases missed : r.missed s.today with
    | true =>
      have rolled : s.rolled r = { r with closureDue := some .noShow } := by
        unfold State.rolled
        rw [if_neg (by simp [leaves]), if_pos missed]
      rw [dayRollRecord_missed live missed, rolled]
      split
      · have closed := closeOcc_closed live .noShow
        exact .inl ⟨closed.gone, by simp [Occupancy.closureWaits], _, closed.new, closureOf_is s r .noShow⟩
      · refine .inr ⟨?_, rfl, fun _ => hasFlag_setFlag _ _, fun h => ?_⟩
        · exact modOcc_self (f := fun r => { r with closureDue := some .noShow }) live fun _ => rfl
        · rw [leaves] at h
          cases h
    | false =>
      have rolled : s.rolled r = r := by
        unfold State.rolled
        rw [if_neg (by simp [leaves]), if_neg (by simp [missed])]
      rw [dayRollRecord_stays live leaves missed, rolled]
      refine .inr ⟨live, rfl, fun why => ?_, fun h => ?_⟩
      · rcases why with why | why
        · rw [missed] at why
          cases why
        · rw [leaves] at why
          cases why.1
      · rw [leaves] at h
        cases h

/-! ### The overdue check of a record (R36) -/

/-- The overdue grace of the account has passed (R36). -/
def Occupancy.graced (r : Occupancy) (grace : Nat) (now : Time) : Bool :=
  r.account.state == .overdue && (match r.account.overdueSince with
    | some since => decide (since.toMs + grace * 3600000 < now.toMs)
    | none => false)

theorem graced_iff (r : Occupancy) (grace : Nat) (now : Time) : r.graced grace now = true ↔
    r.account.state = .overdue ∧ ∃ since, r.account.overdueSince = some since ∧ graceOver grace now since = true := by
  unfold Occupancy.graced
  rw [Bool.and_eq_true, beq_iff_eq]
  refine and_congr_right fun _ => ?_
  cases r.account.overdueSince with
  | none => simp
  | some since => simp [graceOver_iff]

theorem overdueCheck_touches (s : State) (m : Nat) : Touches m s (s.overdueCheck m) := by
  unfold State.overdueCheck
  split
  · exact .refl m s
  · split
    · split
      · exact ((modOcc_touches (g := fun r => { r with account := { r.account with state := .barred } })
          (fun _ => rfl) s m).trans (notify_touches _ _ m)).trans (setFlag_touches _ m _)
      · exact .refl m s
    · exact .refl m s

/-- The record after its overdue check (R36, R37). -/
def State.checked (s : State) (r : Occupancy) : Occupancy :=
  if r.graced s.settings.overdueGrace s.now then { r with account := { r.account with state := .barred } } else r

theorem overdueCheck_at (live : s.occ? n = some r) :
    (s.overdueCheck n).occ? n = some (s.checked r) ∧ (s.overdueCheck n).link? n = s.link? n ∧
    (∀ x ∈ s.occ.notices, x ∈ (s.overdueCheck n).occ.notices) ∧
    (r.graced s.settings.overdueGrace s.now = true →
      ⟨.barred, n, ⟨s.moments, s.now⟩⟩ ∈ (s.overdueCheck n).occ.notices ∧
      (s.overdueCheck n).hasFlag .accountBarred = true) := by
  unfold State.checked
  cases graced : r.graced s.settings.overdueGrace s.now with
  | true =>
    obtain ⟨state, since, due, late⟩ := (graced_iff r _ _).mp graced
    rw [overdueCheck_bars live due ⟨state, late⟩]
    refine ⟨?_, rfl, fun x hx => List.mem_append_left _ hx, fun _ =>
      ⟨List.mem_append_right _ (List.mem_singleton_self _), hasFlag_setFlag _ _⟩⟩
    exact modOcc_self (f := fun r => { r with account := { r.account with state := .barred } }) live fun _ => rfl
  | false =>
    have stays : s.overdueCheck n = s := overdueCheck_stays live fun since due state => by
      refine Bool.eq_false_iff.mpr fun late => ?_
      have := (graced_iff r _ _).mpr ⟨state, since, due, late⟩
      rw [graced] at this
      cases this
    rw [stays]
    exact ⟨live, rfl, fun _ h => h, fun h => by cases h⟩

end

end Sys2Proof.Machine
end

section
/-! PROOFS. The day roll as a whole (R32): its three passes, and what is left of each record. -/

namespace Sys2Proof.Machine

set_option Elab.async false

/-- The closure a day roll made of a record (R32, R34). -/
def State.RolledOut (s t : State) (r : Occupancy) (n : Nat) : Prop :=
  t.occ? n = none ∧ ∃ c, NewClosure s t c ∧ IsClosureOf s r ((s.rolled r).closureDue.getD .departed) c

/-- The record a day roll left in the table, with its flags and notices (R32, R34, R37). -/
structure RolledOn (n : Nat) (r : Occupancy) (s t : State) : Prop where
  now      : t.occ? n = some (s.checked (s.rolled r))
  full     : r.missed s.today = true ∨ (r.leaves s.today = true ∧ r.closureDue = none ∧ (s.rolled r).closureWaits = true) →
    t.hasFlag .closureWaiting = true
  departs  : r.leaves s.today = true → ⟨.departing, n, ⟨s.moments, s.now⟩⟩ ∈ t.occ.notices
  bars     : r.graced s.settings.overdueGrace s.now = true →
    ⟨.barred, n, ⟨s.moments, s.now⟩⟩ ∈ t.occ.notices ∧ t.hasFlag .accountBarred = true

section
variable {s t u : State} {n : Nat} {r : Occupancy}

theorem Moves.rolled (h : Moves s t) (r : Occupancy) : t.rolled r = s.rolled r := by
  unfold State.rolled State.departed
  rw [h.today, h.now, h.settings, h.berthPoint]

theorem Moves.checked (h : Moves s t) (r : Occupancy) : t.checked r = s.checked r := by
  unfold State.checked
  rw [h.now, h.settings]

theorem rolled_account (s : State) (r : Occupancy) : (s.rolled r).account = r.account := by
  unfold State.rolled
  split
  · rfl
  · split <;> rfl

theorem rolled_graced (s : State) (r : Occupancy) (grace : Nat) (now : Time) :
    (s.rolled r).graced grace now = r.graced grace now := by
  unfold Occupancy.graced
  rw [rolled_account]

theorem checked_waits (s : State) (r : Occupancy) : (s.checked r).closureWaits = r.closureWaits := by
  unfold State.checked
  split <;> rfl

theorem checked_closureDue (s : State) (r : Occupancy) : (s.checked r).closureDue = r.closureDue := by
  unfold State.checked
  split <;> rfl

/-- What a closure record copies of a record (R34). -/
def Occupancy.stay (r : Occupancy) : (Nat × Nat × BoatClass) × (Nat × Nat × Int × Bool) :=
  ((r.number, r.berth, r.cls), r.arrival, r.nights, r.account.balance, r.account.late)

theorem rolled_stay (s : State) (r : Occupancy) : (s.rolled r).stay = r.stay := by
  unfold State.rolled
  split
  · rfl
  · split <;> rfl

theorem checked_stay (s : State) (r : Occupancy) : (s.checked r).stay = r.stay := by
  unfold State.checked
  split <;> rfl

theorem IsClosureOf.of_stay {w : State} {x : Occupancy} {reason : CloseReason} {c : Closure}
    (h : IsClosureOf w x reason c) (same : x.stay = r.stay) (now : w.now = s.now)
    (link : w.link? r.number = s.link? r.number) : IsClosureOf s r reason c := by
  simp only [Occupancy.stay, Prod.mk.injEq] at same
  obtain ⟨⟨number, berth, cls⟩, arrival, nights, balance, late⟩ := same
  exact h.congr now (by rw [number]; exact link) number berth cls arrival nights balance late

/-- The day roll's three passes, in order (R32). -/
theorem dayRoll_moves (s : State) : Moves s s.dayRoll :=
  ((foldl_moves dayRollRecord_touches _ s).trans (foldl_moves overdueCheck_touches _ _)).trans
    (foldl_moves retryOne_touches _ _)

theorem keys_listed (live : s.occ? n = some r) : n ∈ keysOf Occupancy.number s.occ.records :=
  List.mem_map.mpr ⟨r, occ?_mem live, occ?_number live⟩

/-- What the day roll leaves of a record (R30, R32, R35 to R37). -/
theorem dayRoll_at (sound : OccupancySound s) (live : s.occ? n = some r) :
    ((s.rolled r).closureWaits = true ∧ s.RolledOut s.dayRoll r n) ∨
    (RolledOn n r s s.dayRoll ∧ ((s.rolled r).closureWaits = true → 8 ≤ s.dayRoll.occ.closures.length)) := by
  have distinct {w : State} (sound : OccupancySound w) : (keysOf Occupancy.number w.occ.records).Nodup :=
    List.Pairwise.map _ (fun _ _ h => Nat.ne_of_lt h) sound.1
  have number := occ?_number live
  unfold State.dayRoll State.RolledOut
  dsimp only
  generalize ea : (keysOf Occupancy.number s.occ.records).foldl State.dayRollRecord s = a
  have soundA : OccupancySound a := by
    rw [← ea]
    exact (Kept.foldl _ (fun s n => kept_dayRollRecord s n) _ s).occ sound
  generalize eb : (keysOf Occupancy.number a.occ.records).foldl (fun s n => s.overdueCheck n) a = b
  have soundB : OccupancySound b := by
    rw [← eb]
    exact (Kept.foldl _ (fun s n => kept_overdueCheck s n) _ a).occ soundA
  have movesA : Moves s a := ea ▸ foldl_moves dayRollRecord_touches _ s
  have movesB : Moves a b := eb ▸ foldl_moves overdueCheck_touches _ a
  have movesC : Moves b b.retryClosures := foldl_moves retryOne_touches _ b
  obtain ⟨u, before, after⟩ := foldl_at dayRollRecord_touches (distinct sound) s (keys_listed live)
  rw [ea] at after
  rcases dayRollRecord_at (before.stays.trans live) with ⟨gone, waits, c, new, of⟩ | stepped
  · rw [before.toMoves.rolled] at waits of
    refine .inl ⟨waits, movesC.gone n (movesB.gone n (after.stays.trans gone)), c, ?_,
      of.congr before.now (by rw [number]; exact before.link) rfl rfl rfl rfl rfl rfl rfl⟩
    exact (((new.before before.toMoves).after after.toMoves).after movesB).after movesC
  · obtain ⟨now, link, full, notice⟩ := stepped
    rw [before.toMoves.rolled] at now full
    rw [before.today] at full notice
    have liveA := after.stays.trans now
    obtain ⟨v, beforeB, afterB⟩ := foldl_at overdueCheck_touches (distinct soundA) a (keys_listed liveA)
    rw [eb] at afterB
    obtain ⟨nowB, linkB, noticesB, barsB⟩ := overdueCheck_at (beforeB.stays.trans liveA)
    have movesV := movesA.trans beforeB.toMoves
    rw [movesV.checked] at nowB
    rw [rolled_graced, movesV.settings, movesV.now, movesV.moments] at barsB
    have liveB := afterB.stays.trans nowB
    have linkAll : b.link? n = s.link? n :=
      afterB.link.trans (linkB.trans (beforeB.link.trans (after.link.trans (link.trans before.link))))
    have carried (h : Beside n b b.retryClosures) : RolledOn n r s b.retryClosures := by
      refine ⟨h.stays.trans liveB, fun why => ?_, fun leaves => ?_, fun bars => ?_⟩
      · exact movesC.within.hasFlag (movesB.within.hasFlag (after.within.hasFlag (full why)))
      · have there := notice leaves
        rw [before.moments, before.now] at there
        exact h.notices _ (afterB.notices _ (noticesB _ (beforeB.notices _ (after.notices _ there rfl) rfl)) rfl) rfl
      · obtain ⟨there, flag⟩ := barsB bars
        exact ⟨h.notices _ (afterB.notices _ there rfl) rfl, movesC.within.hasFlag (afterB.within.hasFlag flag)⟩
    obtain ⟨idle, waiting⟩ := retryClosures_at soundB.1 liveB
    rw [checked_waits] at idle waiting
    cases waits : (s.rolled r).closureWaits with
    | false => exact .inr ⟨carried (idle waits), fun h => by cases h⟩
    | true =>
      rcases waiting waits with ⟨gone, c, new, of⟩ | ⟨full, beside⟩
      · rw [checked_closureDue] at of
        exact .inl ⟨rfl, gone, c, new.before (movesA.trans movesB), of.of_stay
          ((checked_stay s _).trans (rolled_stay s r)) (movesA.trans movesB).now (by rw [number]; exact linkAll)⟩
      · exact .inr ⟨carried beside, fun _ => full⟩

theorem exec_dayRoll (on : s.powered = true) (running : s.lif.state ≠ .unconfigured) :
    exec .dayRoll s =
      .next ({ s with sch := { s.sch with firings := s.sch.firings.erase .dayRoll } } : State).dayRoll := by
  refine congrArg Host.Outcome.next ((takeAndFire_on on .dayRoll _).trans (if_neg ?_))
  show ¬ (s.lif.state == .unconfigured) = true
  simpa using running

/-- The station state of a day roll's passes: its firing has left the list. -/
theorem isClosureOf_fired {l : List ScheduleKind} {reason : CloseReason} {c : Closure}
    (h : IsClosureOf { s with sch := { s.sch with firings := l } } r reason c) : IsClosureOf s r reason c := h

end

/-- Settles O20: the three passes meet each record once (`dayRoll_at`), and only records and closures move
(`dayRoll_moves`). -/
theorem dayRollMovesEveryRecord : Obligations.DayRollMovesEveryRecord := by
  intro s on running sound
  generalize eu : ({ s with sch := { s.sch with firings := s.sch.firings.erase .dayRoll } } : State) = u
  have runs : exec .dayRoll s = .next u.dayRoll := eu ▸ exec_dayRoll on running
  have moves := dayRoll_moves u
  obtain ⟨added, closures, gone, flagged⟩ := moves.closes
  have new {c : Closure} (h : NewClosure u u.dayRoll c) : c ∈ added := by
    unfold NewClosure at h
    rwa [closures, List.drop_left] at h
  refine ⟨u.dayRoll, added, runs, moves.sch.trans (by rw [← eu]), closures.trans (by rw [← eu]), ?_, flagged, ?_, ?_,
    frame_of_runs runs⟩
  · rw [← eu] at gone ⊢
    exact gone
  · rw [← eu] at moves ⊢
    exact moves.gone
  · intro n r live leaves missed rolled bars kept ends
    have eKept : s.checked (s.rolled r) = kept := by
      unfold State.checked
      rw [rolled_graced, rolled_account]
      rfl
    have eEnds : (s.rolled r).closureWaits = true ↔ ends := closureWaits_iff _
    have met := dayRoll_at (s := u) (n := n) (r := r) (by rw [← eu]; exact sound) (by rw [← eu]; exact live)
    generalize u.dayRoll = t at met new
    rw [← eKept]
    subst eu
    rcases met with ⟨waits, out, c, made, of⟩ | ⟨⟨now, full, departs, barred⟩, room⟩
    · have absent {x : Occupancy} (there : t.occ? n = some x) : False := by
        rw [out] at there
        cases there
      exact ⟨fun no => absurd (eEnds.mp waits) no, fun _ => .inl ⟨out, c, new made, of⟩,
        fun _ there => (absent there).elim, fun _ there => (absent there).elim⟩
    · exact ⟨fun _ => now, fun e => .inr ⟨room (eEnds.mpr e), now,
        fun why => full (why.imp_right fun ⟨leaves, due⟩ => ⟨leaves, due, eEnds.mpr e⟩)⟩,
        fun bars _ => barred bars, fun leaves _ => departs leaves⟩

end Sys2Proof.Machine
end

section
/-! PROOFS. JOIN refused (R199): the six checks in their order, each naming the lowest number it finds. -/

namespace Sys2Proof.Machine

set_option Elab.async false

theorem lowest_none_iff (l : List Nat) : lowest l = none ↔ l = [] := by
  cases l with
  | nil => simp [lowest]
  | cons n r => simp [lowest]

theorem lowest_eq_iff (l : List Nat) (n : Nat) : lowest l = some n ↔ n ∈ l ∧ ∀ m ∈ l, n ≤ m := by
  induction l generalizing n with
  | nil => simp [lowest]
  | cons x l ih =>
    unfold lowest
    rw [Option.some.injEq, List.forall_mem_cons, List.mem_cons]
    cases rest : lowest l with
    | none =>
      rw [(lowest_none_iff l).mp rest]
      simp only [List.not_mem_nil, or_false, false_implies, implies_true, and_true]
      omega
    | some m =>
      obtain ⟨there, least⟩ := (ih m).mp rest
      show min x m = n ↔ _
      constructor
      · rintro rfl
        refine ⟨?_, Nat.min_le_left x m, fun k hk => Nat.le_trans (Nat.min_le_right x m) (least k hk)⟩
        rcases Nat.le_total x m with h | h
        · exact .inl (Nat.min_eq_left h)
        · rw [Nat.min_eq_right h]
          exact .inr there
      · rintro ⟨rfl | listed, low, all⟩
        · exact Nat.min_eq_left (all m there)
        · have h1 := all m there
          have h2 := least n listed
          omega

section
variable {s : State}

theorem mem_berthsNoPoint (s : State) (n : Nat) :
    n ∈ s.berthsNoPoint ↔ ∃ b ∈ s.bal.berths, b.number = n ∧ ∃ p, b.point = some p ∧ s.point? p = none := by
  unfold State.berthsNoPoint
  simp only [List.mem_map, List.mem_filter]
  constructor
  · rintro ⟨b, ⟨there, bare⟩, number⟩
    refine ⟨b, there, number, ?_⟩
    cases point : b.point with
    | none => simp [point] at bare
    | some p => exact ⟨p, rfl, by simpa [point] using bare⟩
  · rintro ⟨b, there, number, p, point, bare⟩
    exact ⟨b, ⟨there, by simp [point, bare]⟩, number⟩

theorem mem_sharedPoints (s : State) (p : Nat) :
    p ∈ s.sharedPoints ↔ 1 < (s.bal.berths.filterMap Berth.point).count p := by
  unfold State.sharedPoints
  dsimp only
  rw [List.mem_filter, decide_eq_true_iff, ← List.count_eq_length_filter]
  refine ⟨fun h => h.2, fun h => ⟨List.count_pos_iff.mp (by omega), h⟩⟩

theorem mem_straySections (s : State) (n : Nat) :
    n ∈ s.fdc.straySections.map PumpSection.pump ↔ ∃ w ∈ s.fdc.straySections, w.pump = n := List.mem_map

theorem nil_of_absent {l : List Nat} (h : ∀ m, m ∉ l) : l = [] := List.eq_nil_iff_forall_not_mem.mpr h

/-- A JOIN in UNCONFIGURED with a fault is refused CONFIG with it (R199). -/
theorem exec_join_fault {f : JoinFault} {n : Nat} (taken : Takes 2 s) (here : s.lif.state = .unconfigured)
    (fault : s.joinFault = some (f, n)) : exec .join s = .next { s with
      pnp := s.pnp.answered 2 ⟨.refused, false, some .config, [⟨1, f.code⟩, ⟨1, n⟩]⟩ } := by
  have fault' : (s.takeFrame 2).joinFault = some (f, n) := fault
  have here' : (s.takeFrame 2).unconfigured = true := by simpa [State.unconfigured] using here
  have decided : exec .join s = .next _ := congrArg Host.Outcome.next (State.request_taken taken)
  refine decided.trans ?_
  simp only [here', fault', Bool.not_true, Bool.false_eq_true, if_false]
  rfl

end

/-- Settles O14: the checks in the order of `joinFault`, and the lowest number each finds (`lowest_eq_iff`). -/
theorem joinRefusedAtTheFirstFailingCheck : Obligations.JoinRefusedAtTheFirstFailingCheck := by
  intro s taken
  refine ⟨fun running => ?_, fun here => ?_⟩
  · have running' : (s.takeFrame 2).unconfigured = false := by simpa [State.unconfigured] using running
    have decided : exec .join s = .next _ := congrArg Host.Outcome.next (State.request_taken taken)
    refine decided.trans ?_
    simp only [running', Bool.not_false, if_true]
    rfl
  · intro refused noPoint shared stray
    have refuses (f : JoinFault) (n : Nat) (h : s.joinFault = some (f, n)) : refused f.code n :=
      exec_join_fault taken here h
    have berths {n : Nat} (h : noPoint n) : s.bal.berths.isEmpty = false := by
      obtain ⟨b, there, -⟩ := h
      cases list : s.bal.berths with
      | nil => rw [list] at there; cases there
      | cons b l => rfl
    have pointed (h : ∀ m, ¬ noPoint m) : lowest s.berthsNoPoint = none :=
      (lowest_none_iff _).mpr (nil_of_absent fun m there => h m ((mem_berthsNoPoint s m).mp there))
    have apart (h : ∀ q, ¬ shared q) : lowest s.sharedPoints = none :=
      (lowest_none_iff _).mpr (nil_of_absent fun m there => h m ((mem_sharedPoints s m).mp there))
    refine ⟨fun strap => refuses .strap 0 ?_, fun strap bare => refuses .noBerths 0 ?_,
      fun strap n first least => refuses .noPoint n ?_, fun strap h3 p first least => refuses .sharedPoint p ?_,
      fun strap h2 h3 h4 n first least => refuses .pumpNumber n ?_,
      fun strap h2 h3 h4 h5 dock => ⟨fun one => refuses .noDock 1 ?_, fun bare two => refuses .noDock 2 ?_⟩⟩
    · unfold State.joinFault
      rw [if_pos strap]
    · unfold State.joinFault
      rw [if_neg strap, bare]
      rfl
    · have low : lowest s.berthsNoPoint = some n := (lowest_eq_iff _ n).mpr
        ⟨(mem_berthsNoPoint s n).mpr first, fun m there => least m ((mem_berthsNoPoint s m).mp there)⟩
      unfold State.joinFault
      simp only [strap, berths first, low, if_false, Bool.false_eq_true]
    · have low : lowest s.sharedPoints = some p := (lowest_eq_iff _ p).mpr
        ⟨(mem_sharedPoints s p).mpr first, fun m there => least m ((mem_sharedPoints s m).mp there)⟩
      have some : s.bal.berths.isEmpty = false := by
        cases list : s.bal.berths with
        | nil =>
          have : 1 < (s.bal.berths.filterMap Berth.point).count p := first
          simp [list] at this
        | cons b l => rfl
      unfold State.joinFault
      simp only [strap, some, pointed h3, low, if_false, Bool.false_eq_true]
    · have low : lowest (s.fdc.straySections.map PumpSection.pump) = some n := (lowest_eq_iff _ n).mpr
        ⟨(mem_straySections s n).mpr first, fun m there => least m ((mem_straySections s m).mp there)⟩
      unfold State.joinFault
      simp only [strap, List.isEmpty_eq_false_iff.mpr h2, pointed h3, apart h4, low, if_false, Bool.false_eq_true]
    all_goals
      unfold State.joinFault State.pumpsWritten
      simp only [strap, List.isEmpty_eq_false_iff.mpr h2, pointed h3, apart h4, h5, dock, if_false, Bool.false_eq_true,
        List.map_nil, lowest]
    · rw [if_pos one]
      cases second : s.fdc.pump2.config with
      | none => rfl
      | some c => rfl
    · rw [bare, if_pos two]
      rfl

end Sys2Proof.Machine
end

section
/-! PROOFS. The acceptance of JOIN, first part (R153, R170, R200): the JOIN queued, the schedule entries armed, and
the poll of the configured posts begun. -/

namespace Sys2Proof.Machine

set_option Elab.async false

/-! ### The schedule table armed (R153) -/

/-- The start of an entry with a plausibility check is plausible at a station time (R153). -/
def ScheduleEntry.timely (e : ScheduleEntry) (now : Nat) : Bool :=
  decide (now ≤ e.start * 1000 ∧ e.start * 1000 ≤ now + 691200 * 1000)

/-- The next due an entry is armed with, if it has one (R153). -/
def ScheduleEntry.firstDue (e : ScheduleEntry) (now sec : Nat) : Option Nat :=
  if e.check then
    if e.timely now then some e.start else if e.cycle = 0 then none else some (sec + e.cycle)
  else if now ≤ e.start * 1000 then some e.start
  else if e.cycle = 0 then none else some (firstNotBefore e.start e.cycle now)

/-- An entry with a next due, or spent. -/
def ScheduleEntry.dueOrSpent (d : Option Nat) (e : ScheduleEntry) : ScheduleEntry :=
  match d with
  | some d => e.dueAt d
  | none => e.spent

/-- What the acceptance of JOIN makes of an entry (R153). -/
def ScheduleEntry.begun (e : ScheduleEntry) (now sec : Nat) : ScheduleEntry :=
  if e.state = .idle then e.dueOrSpent (e.firstDue now sec) else e

/-- An entry whose start is not plausible fires as it is armed (R153). -/
def ScheduleEntry.lateFires (e : ScheduleEntry) (now : Nat) : Bool := e.state == .idle && e.check && !e.timely now

theorem dueOrSpent_place (d : Option Nat) (e : ScheduleEntry) : (e.dueOrSpent d).place = e.place := by
  cases d with
  | none => rfl
  | some d => exact e.dueAt_place d

theorem dueOrSpent_state (d : Option Nat) (e : ScheduleEntry) : (e.dueOrSpent d).state ≠ .idle := by
  cases d with
  | none => simp [ScheduleEntry.dueOrSpent, ScheduleEntry.spent]
  | some d =>
    unfold ScheduleEntry.dueOrSpent ScheduleEntry.dueAt
    dsimp only
    split <;> simp

theorem begun_place (e : ScheduleEntry) (now sec : Nat) : (e.begun now sec).place = e.place := by
  unfold ScheduleEntry.begun
  split
  · exact dueOrSpent_place _ e
  · rfl

theorem modEntry_due (s : State) (e : ScheduleEntry) (d : Option Nat) (p : Pnp) (l : List ScheduleKind) :
    ({ s with
      sch := { s.sch with
        places := modifyKey ScheduleEntry.place e.place (ScheduleEntry.dueOrSpent d) s.sch.places
        firings := l }
      pnp := p } : State).sch.places =
      modifyKey ScheduleEntry.place e.place (ScheduleEntry.dueOrSpent d) s.sch.places := rfl

theorem armEntry_eq (s : State) (e : ScheduleEntry) : ∃ p : Pnp, s.armEntry e = { s with
    sch := { s.sch with
      places := if e.state = .idle then modifyKey ScheduleEntry.place e.place
        (ScheduleEntry.dueOrSpent (e.firstDue s.now.toMs s.sch.sec)) s.sch.places else s.sch.places
      firings := s.sch.firings ++ if e.lateFires s.now.toMs then [e.kind] else [] }
    pnp := p } := by
  have setDue (u : State) (n d : Nat) : ∃ p : Pnp, u.setDue n d = { u with
      sch := { u.sch with places := modifyKey ScheduleEntry.place n (ScheduleEntry.dueOrSpent (some d)) u.sch.places }
      pnp := p } := ⟨_, setDue_eq u n d⟩
  unfold State.armEntry ScheduleEntry.lateFires ScheduleEntry.firstDue
  by_cases idle : e.state = .idle
  · have busy : (e.state != .idle) = false := by simp [idle]
    have here : (e.state == .idle) = true := by simp [idle]
    rw [busy, here, if_pos idle]
    simp only [Bool.false_eq_true, if_false, Bool.true_and]
    cases check : e.check with
    | true =>
      have timely : (decide (s.now.toMs ≤ e.start * 1000) &&
          decide (e.start * 1000 ≤ s.now.toMs + Config.plausibleSec * 1000)) = e.timely s.now.toMs :=
        (Bool.decide_and _ _).symm
      simp only [if_true, timely, Bool.true_and]
      cases e.timely s.now.toMs with
      | true => simpa using setDue s e.place e.start
      | false =>
        by_cases once : e.cycle = 0
        · exact ⟨s.pnp, by simp [once, expire_eq, State.fire]; rfl⟩
        · simpa [once, State.fire] using setDue (s.fire e.kind) e.place (s.sch.sec + e.cycle)
    | false =>
      by_cases early : s.now.toMs ≤ e.start * 1000
      · simpa [early] using setDue s e.place e.start
      · by_cases once : e.cycle = 0
        · exact ⟨s.pnp.flagged Flag.scheduleExpired.bit, by simp [early, once, expire_eq]; rfl⟩
        · simpa [early, once] using setDue s e.place (firstNotBefore e.start e.cycle s.now.toMs)
  · exact ⟨s.pnp, by simp [idle]⟩

/-- The entries armed one by one, those before them done. -/
theorem foldl_armEntry (now sec : Nat) (l : List ScheduleEntry) : ∀ (done : List ScheduleEntry) (s : State),
    s.sch.places = done ++ l → ((done ++ l).map ScheduleEntry.place).Nodup → s.now.toMs = now → s.sch.sec = sec →
    (l.foldl State.armEntry s).sch = { s.sch with
      places := done ++ l.map fun e => e.begun now sec
      firings := s.sch.firings ++ (l.filter fun e => e.lateFires now).map ScheduleEntry.kind } := by
  induction l with
  | nil =>
    intro done s places _ _ _
    simp [← places]
  | cons e rest ih =>
    intro done s places apart at_ second
    subst at_ second
    obtain ⟨p, armed⟩ := armEntry_eq s e
    have here : (if e.state = .idle then modifyKey ScheduleEntry.place e.place
        (ScheduleEntry.dueOrSpent (e.firstDue s.now.toMs s.sch.sec)) s.sch.places else s.sch.places) =
        (done ++ [e.begun s.now.toMs s.sch.sec]) ++ rest := by
      rw [places]
      unfold ScheduleEntry.begun
      split
      · rw [modifyKey_middle (key := ScheduleEntry.place) _ apart]
        simp
      · simp
    rw [here] at armed
    rw [List.foldl_cons]
    have places' : (s.armEntry e).sch.places = done ++ [e.begun s.now.toMs s.sch.sec] ++ rest := by rw [armed]
    have now' : (s.armEntry e).now.toMs = s.now.toMs := by rw [armed]; rfl
    have sec' : (s.armEntry e).sch.sec = s.sch.sec := by rw [armed]
    refine (ih (done ++ [e.begun s.now.toMs s.sch.sec]) _ places' (by simpa [begun_place] using apart) now' sec').trans ?_
    rw [armed]
    cases late : e.lateFires s.now.toMs <;> simp [late]

theorem armEntry_clock (s : State) (e : ScheduleEntry) :
    (s.armEntry e).sch.sec = s.sch.sec ∧ (s.armEntry e).sch.ms = s.sch.ms := by
  obtain ⟨p, armed⟩ := armEntry_eq s e
  rw [armed]
  exact ⟨rfl, rfl⟩

/-- The clock runs on as it was while the entries are armed. -/
theorem armAll_clock (s : State) : s.armAll.sch.sec = s.sch.sec ∧ s.armAll.sch.ms = s.sch.ms := by
  unfold State.armAll
  generalize s.sch.places = l
  induction l generalizing s with
  | nil => exact ⟨rfl, rfl⟩
  | cons e l ih =>
    obtain ⟨sec, ms⟩ := ih (s.armEntry e)
    obtain ⟨sec', ms'⟩ := armEntry_clock s e
    exact ⟨sec.trans sec', ms.trans ms'⟩

/-- No entry is left IDLE: each one of the table is at the place of an entry armed, or was not IDLE (R153). -/
theorem foldl_armEntry_idle (l : List ScheduleEntry) : ∀ s : State,
    (∀ x ∈ s.sch.places, x.state ≠ .idle ∨ ∃ e ∈ l, e.state = .idle ∧ e.place = x.place) →
    ∀ x ∈ (l.foldl State.armEntry s).sch.places, x.state ≠ .idle := by
  induction l with
  | nil =>
    intro s all x hx
    rcases all x hx with busy | ⟨e, he, -⟩
    · exact busy
    · cases he
  | cons e l ih =>
    intro s all
    obtain ⟨p, armed⟩ := armEntry_eq s e
    rw [List.foldl_cons, armed]
    refine ih _ fun x hx => ?_
    by_cases idle : e.state = .idle
    · simp only [idle, if_true] at hx
      obtain ⟨y, hy, rfl⟩ := List.mem_map.mp hx
      by_cases same : y.place = e.place
      · rw [if_pos same]
        exact .inl (dueOrSpent_state _ y)
      · rw [if_neg same]
        rcases all y hy with busy | ⟨z, hz, zIdle, zPlace⟩
        · exact .inl busy
        · rcases List.mem_cons.mp hz with rfl | hz
          · exact absurd zPlace.symm same
          · exact .inr ⟨z, hz, zIdle, zPlace⟩
    · simp only [idle, if_false] at hx
      rcases all x hx with busy | ⟨z, hz, zIdle, zPlace⟩
      · exact .inl busy
      · rcases List.mem_cons.mp hz with rfl | hz
        · exact absurd zIdle idle
        · exact .inr ⟨z, hz, zIdle, zPlace⟩

theorem armAll_idle (s : State) : ∀ x ∈ s.armAll.sch.places, x.state ≠ .idle :=
  foldl_armEntry_idle _ s fun x hx => by
    by_cases idle : x.state = .idle
    · exact .inr ⟨x, hx, idle, rfl⟩
    · exact .inl idle

/-! ### The JOIN queued (R170) -/

theorem enterJoining_eq {s : State} (k : JoinKind) (empty : s.lif.tx = []) : s.enterJoining k = { s with
    lif := { s.lif with
      state := .joining
      failed := 0
      listenEnd := none
      silenceEnd := none
      serial := s.lif.serial + 1
      tx := [⟨s.lif.serial, joinFrame s.me s.settings.baseShare k⟩] } } := by
  unfold State.enterJoining State.queueFrame
  have kind : (joinFrame s.straps.station s.settings.baseShare k).kind = 17 :=
    mkFrame_kind s.straps.station _ (by decide) (by simp [keyWidth])
  simp [State.me, kind, acceptedIn, empty, txInsert, Config.maxTx]

/-! ### The poll begun (R82) -/

theorem beginPolling_eq {s : State} (on : s.lif.state ≠ .unconfigured) :
    (s.configuredPosts = [] → s.beginPolling = { s with
      spc := { s.spc with nextCycle := s.elapsed + 2000000, toPoll := [], poll := none } }) ∧
    ∀ n l, s.configuredPosts = n :: l → ∃ q : OpenPoll, s.beginPolling = { s with
      moments := s.moments + 1
      spc := { s.spc with nextCycle := s.elapsed + 2000000, toPoll := l, poll := some q } } ∧
      q.post = n ∧ q.allOff = false ∧ q.sentAt = s.elapsed ∧ q.moment = s.moments + 1 := by
  have running : s.unconfigured = false := by simpa [State.unconfigured] using on
  refine ⟨fun empty => ?_, fun n l posts => ?_⟩
  · have empty' : ({ s with spc := { s.spc with nextCycle := s.elapsed } } : State).configuredPosts = [] := empty
    unfold State.beginPolling State.startCycle
    simp only [show ({ s with spc := { s.spc with nextCycle := s.elapsed } } : State).unconfigured = false from running,
      empty', Bool.false_eq_true, if_false]
    rfl
  · have posts' : ({ s with spc := { s.spc with nextCycle := s.elapsed } } : State).configuredPosts = n :: l := posts
    have running' (c : Spc) : ({ s with spc := c } : State).unconfigured = false := running
    unfold State.beginPolling State.startCycle State.nextPoll
    simp only [running', posts', Bool.false_eq_true, if_false]
    exact ⟨_, rfl, rfl, rfl, rfl, rfl⟩

end Sys2Proof.Machine
end

section
/-! PROOFS. The acceptance of JOIN, second part (R201): the retained records meet the new configuration one by one. -/

namespace Sys2Proof.Machine

set_option Elab.async false

/-! ### Holds of one record lapse (R43) -/

section
variable {s t u : State} {n m : Nat} {r : Occupancy}

theorem lapseHold_touches (s : State) (n id : Nat) : Touches n s (s.lapseHold n id) :=
  ((modOcc_touches (g := fun r => { r with holds := r.holds.filter fun h => h.id != id }) (fun _ => rfl) s n).trans
    (setFlag_touches _ n _)).trans (testRemoval_touches _ n)

/-- The record without the holds of some ids. -/
def Occupancy.without (ids : List Nat) (r : Occupancy) : Occupancy :=
  { r with holds := r.holds.filter fun h => !ids.contains h.id }

theorem without_nil (r : Occupancy) : r.without [] = r := by simp [Occupancy.without]

theorem without_cons (id : Nat) (ids : List Nat) (r : Occupancy) :
    (r.without [id]).without ids = r.without (id :: ids) := by
  simp [Occupancy.without, List.filter_filter, Bool.and_comm]

theorem without_waits {ids : List Nat} (h : (r.without [m]).closureWaits = true) :
    (r.without (m :: ids)).closureWaits = true := by
  rw [closureWaits_iff] at h ⊢
  rw [← without_cons]
  refine h.imp id fun ⟨state, reading, bare⟩ => ⟨state, reading, ?_⟩
  show List.filter _ (r.without [m]).holds = []
  rw [bare]
  rfl

theorem modOcc_gone (gone : s.occ? n = none) (f : Occupancy → Occupancy) : s.modOcc n f = s := by
  have same : modifyKey Occupancy.number n f s.occ.records = s.occ.records := by
    conv_rhs => rw [← List.map_id s.occ.records]
    refine List.map_congr_left fun x hx => ?_
    have := List.find?_eq_none.mp gone x hx
    rw [if_neg (by simpa using this)]
    rfl
  unfold State.modOcc
  rw [same]

theorem lapseHold_gone (gone : s.occ? n = none) (id : Nat) :
    (s.lapseHold n id).occ = s.occ ∧ (s.lapseHold n id).occ? n = none := by
  have dropped : s.dropHold n id = s := modOcc_gone gone _
  have bare : (s.setFlag .holdLapsed).occ? n = none := gone
  have still : s.lapseHold n id = s.setFlag .holdLapsed := by
    unfold State.lapseHold State.testRemoval
    rw [dropped]
    simp only [bare]
  rw [still]
  exact ⟨rfl, gone⟩

/-- What the lapse of some holds of a record leaves: closed, or kept without them (R31, R43). -/
def Lapsed (n : Nat) (r : Occupancy) (ids : List Nat) (s t : State) : Prop :=
  ((r.without ids).closureWaits = true ∧ t.occ? n = none ∧
    ∃ c, t.occ.closures = s.occ.closures ++ [c] ∧ IsClosureOf s r (r.closureDue.getD .departed) c) ∨
  (t.occ? n = some (r.without ids) ∧ t.occ.closures = s.occ.closures ∧ t.link? n = s.link? n ∧
    ((r.without ids).closureWaits = true → 8 ≤ s.occ.closures.length ∧
      (r.closureDue = none → t.hasFlag .closureWaiting = true)))

theorem lapseHold_at (live : s.occ? n = some r) (id : Nat) :
    Lapsed n r [id] s (s.lapseHold n id) ∧ (s.lapseHold n id).hasFlag .holdLapsed = true := by
  have within := within_testRemoval ((s.dropHold n id).setFlag .holdLapsed) n
  refine ⟨?_, within.hasFlag (hasFlag_setFlag _ _)⟩
  have there : ((s.dropHold n id).setFlag .holdLapsed).occ? n = some (r.without [id]) := by
    refine (modOcc_self (f := fun r => { r with holds := r.holds.filter fun h => h.id != id }) live
      fun _ => rfl).trans ?_
    simp [Occupancy.without, bne, beq_eq_decide]
  have number := occ?_number live
  obtain ⟨-, stays, closes⟩ := testRemoval_says there
  by_cases ends : (r.without [id]).closureWaits = true ∧ s.occ.closures.length < 8
  · have closed := closes ends.1 ends.2
    refine .inl ⟨ends.1, closed.gone, _, closed.closures, ?_⟩
    exact (closureOf_is _ _ _).congr rfl rfl rfl rfl rfl rfl rfl rfl rfl
  · have idle : (r.without [id]).closureWaits = false ∨ 8 ≤ s.occ.closures.length := by
      by_cases waits : (r.without [id]).closureWaits = true
      · exact .inr (Nat.not_lt.mp fun few => ends ⟨waits, few⟩)
      · exact .inl (Bool.eq_false_iff.mpr waits)
    obtain ⟨same, occ, spc, flag⟩ := stays idle
    refine .inr ⟨same, (congrArg Occ.closures occ :), link?_congr spc n, fun waits => ⟨?_, flag waits⟩⟩
    rcases idle with idle | full
    · rw [waits] at idle
      cases idle
    · exact full

theorem foldl_lapse_gone (ids : List Nat) : ∀ s : State, s.occ? n = none →
    (ids.foldl (fun s id => s.lapseHold n id) s).occ = s.occ ∧
    (ids.foldl (fun s id => s.lapseHold n id) s).occ? n = none := by
  induction ids with
  | nil => exact fun s gone => ⟨rfl, gone⟩
  | cons id ids ih =>
    intro s gone
    obtain ⟨occ, gone'⟩ := lapseHold_gone gone id
    obtain ⟨occ', gone''⟩ := ih (s.lapseHold n id) gone'
    exact ⟨occ'.trans occ, gone''⟩

theorem foldl_lapse_moves (n : Nat) (ids : List Nat) (s : State) :
    Touches n s (ids.foldl (fun s id => s.lapseHold n id) s) := by
  induction ids generalizing s with
  | nil => exact .refl n s
  | cons id ids ih => exact (lapseHold_touches s n id).trans (ih _)

theorem foldl_lapse_at (ids : List Nat) : ∀ (id : Nat) (s : State) (r : Occupancy), s.occ? n = some r →
    Lapsed n r (id :: ids) s ((id :: ids).foldl (fun s id => s.lapseHold n id) s) ∧
    ((id :: ids).foldl (fun s id => s.lapseHold n id) s).hasFlag .holdLapsed = true := by
  induction ids with
  | nil => exact fun id s r live => lapseHold_at live id
  | cons next ids ih =>
    intro id s r live
    obtain ⟨first, flag⟩ := lapseHold_at live id
    have later := foldl_lapse_moves n (next :: ids) (s.lapseHold n id)
    rw [List.foldl_cons]
    refine ⟨?_, later.within.hasFlag flag⟩
    rcases first with ⟨waits, gone, c, closures, of⟩ | ⟨there, closures, link, full⟩
    · obtain ⟨occ, gone'⟩ := foldl_lapse_gone (n := n) (next :: ids) _ gone
      exact .inl ⟨without_waits waits, gone', c, (congrArg Occ.closures occ).trans closures, of⟩
    · have now := (lapseHold_touches s n id).now
      obtain ⟨rest, -⟩ := ih next (s.lapseHold n id) _ there
      unfold Lapsed at rest ⊢
      rw [without_cons, closures] at rest
      refine rest.imp (fun ⟨waits, gone, c, list, of⟩ => ⟨waits, gone, c, list, ?_⟩)
        fun ⟨same, list, link', more⟩ => ⟨same, list, link'.trans link, more⟩
      have number := occ?_number live
      exact of.congr now (by rw [number]; exact (congrArg _ number).trans link) rfl rfl rfl rfl rfl rfl rfl

end

end Sys2Proof.Machine
end

section
/-! PROOFS. The acceptance of JOIN, third part (R201): what meeting the new configuration leaves of each record. -/

namespace Sys2Proof.Machine

set_option Elab.async false

/-! ### The points through OCC's passes -/

/-- A point without what SPC keeps of occupancies. -/
def Point.setup (p : Point) : Point := { p with charging := none, finalMark := none, arrivals := [], retained := [] }

/-- From `s` to `t` SPC's points lose occupancies alone, and nothing where there are none. -/
structure Setup (s t : State) : Prop where
  points : t.spc.points.map Point.setup = s.spc.points.map Point.setup
  links  : s.spc.links = [] → t.spc.links = []
  idle   : (∀ p ∈ s.spc.points, p.setup = p) → t.spc.points = s.spc.points

section
variable {s t u : State} {n m : Nat} {r : Occupancy}

theorem Setup.of_eq (h : t.spc = s.spc) : Setup s t := ⟨by rw [h], fun e => by rw [h, e], fun _ => by rw [h]⟩

theorem Setup.trans (h : Setup s t) (g : Setup t u) : Setup s u := by
  refine ⟨g.points.trans h.points, fun e => g.links (h.links e), fun idle => ?_⟩
  have same := h.idle idle
  exact (g.idle (by rw [same]; exact idle)).trans same

theorem Setup.before (same : u.spc = s.spc) (h : Setup u t) : Setup s t := (Setup.of_eq same).trans h

theorem Setup.foldl {α : Type} {f : State → α → State} (h : ∀ s x, Setup s (f s x)) (l : List α) (s : State) :
    Setup s (l.foldl f s) := by
  induction l generalizing s with
  | nil => exact .of_eq rfl
  | cons x l ih => exact (h s x).trans (ih _)

theorem setup_removeOcc (s : State) (n : Nat) : Setup s (s.removeOcc n) := by
  refine ⟨?_, fun e => ?_, fun idle => ?_⟩
  · show (s.spc.points.map _).map _ = _
    rw [List.map_map]
    rfl
  · show eraseKey Link.occ n s.spc.links = []
    rw [e]
    rfl
  · show s.spc.points.map _ = s.spc.points
    conv_rhs => rw [← List.map_id s.spc.points]
    refine List.map_congr_left fun p hp => ?_
    rw [← idle p hp]
    simp [Point.setup]

theorem setup_testRemoval (s : State) (n : Nat) : Setup s (s.testRemoval n) := by
  have closes (reason : CloseReason) : Setup s (s.closeOcc n reason) := by
    unfold State.closeOcc
    split
    · exact .of_eq rfl
    · dsimp only
      refine .before ?_ (setup_removeOcc _ n)
      rfl
  unfold State.testRemoval
  split
  · exact .of_eq rfl
  · split
    · split
      · exact closes _
      · exact .of_eq rfl
    · split
      · split
        · exact closes _
        · exact .of_eq rfl
      · exact .of_eq rfl

theorem lookupKey_map {α β : Type} {key : α → Nat} {key' : β → Nat} {g : α → β} (h : ∀ x, key' (g x) = key x) (n : Nat)
    (l : List α) : lookupKey key' n (l.map g) = (lookupKey key n l).map g := by
  unfold lookupKey
  rw [List.find?_map]
  simp only [Function.comp_def, h]

theorem Setup.point? (h : Setup s t) (n : Nat) : (t.point? n).map Point.setup = (s.point? n).map Point.setup := by
  have of (u : State) : (u.point? n).map Point.setup = lookupKey Point.number n (u.spc.points.map Point.setup) :=
    (lookupKey_map (key := Point.number) (g := Point.setup) (fun _ => rfl) n _).symm
  rw [of, of, h.points]

theorem fitProfile_setup (q : Option Profile) (p : Option Point) : fitProfile q (p.map Point.setup) = fitProfile q p := by
  cases p <;> rfl

/-! ### One record (R201) -/

/-- The holds of a record whose expiry has not come (R43, R201). -/
def Occupancy.unexpired (r : Occupancy) (now : Time) : List Hold :=
  r.holds.filter fun h => decide (now.toMs < h.expiry.toMs)

/-- The profile of a record fitted to its berth's point (R201). -/
def State.fitted (s : State) (r : Occupancy) : Option Profile :=
  fitProfile r.profile ((s.berthPoint r.berth).bind s.point?)

/-- The record as it meets the new configuration, unless it closes (R201). -/
def State.met (s : State) (r : Occupancy) : Occupancy :=
  if s.berth? r.berth = none then { r with closureDue := some .orphan, holds := [] }
  else { r with profile := s.fitted r, holds := r.unexpired s.now }

/-- The record closes as it meets the new configuration, where the closure list has room (R201). -/
def State.metEnds (s : State) (r : Occupancy) : Prop :=
  s.berth? r.berth = none ∨ (r.unexpired s.now ≠ r.holds ∧ (s.met r).closureWaits = true)

/-- One step of `meetRecords`. -/
def State.meetOne (s : State) (n : Nat) : State := (s.meetRecord n).lapseRecord n

/-- What meeting the new configuration leaves of a record: closed, or rewritten (R201). -/
def State.Met (s : State) (n : Nat) (r : Occupancy) (t : State) : Prop :=
  (s.metEnds r ∧ t.occ? n = none ∧
    ∃ c, t.occ.closures = s.occ.closures ++ [c] ∧ IsClosureOf s r ((s.met r).closureDue.getD .departed) c) ∨
  (t.occ? n = some (s.met r) ∧ t.occ.closures = s.occ.closures ∧
    (s.metEnds r → 8 ≤ s.occ.closures.length ∧
      ((s.berth? r.berth).isSome = true → r.closureDue = none → t.hasFlag .closureWaiting = true)))

theorem met_stay (s : State) (r : Occupancy) : (s.met r).stay = r.stay := by
  unfold State.met
  split <;> rfl

theorem lapseRecord_eq (live : s.occ? n = some r) : s.lapseRecord n =
    ((r.holds.filter fun h => decide (h.expiry.toMs ≤ s.now.toMs)).map Hold.id).foldl
      (fun s id => s.lapseHold n id) s := by
  unfold State.lapseRecord
  simp only [live, List.foldl_map]

theorem lapseRecord_touches (s : State) (n : Nat) : Touches n s (s.lapseRecord n) := by
  cases live : s.occ? n with
  | none =>
    have : s.lapseRecord n = s := by unfold State.lapseRecord; simp only [live]
    rw [this]
    exact .refl n s
  | some r =>
    rw [lapseRecord_eq live]
    exact foldl_lapse_moves n _ s

theorem meetRecord_gone (gone : s.occ? n = none) : s.meetRecord n = s := by
  unfold State.meetRecord
  simp only [gone]

/-- An orphan marked, before its removal test (R201). -/
def State.orphaned (s : State) (n : Nat) (r : Occupancy) : State :=
  ((s.modOcc n fun r => { r with closureDue := some .orphan, holds := [] }).setFlagIf (!r.holds.isEmpty)
    .holdLapsed).setFlag .orphanMarked

theorem meetRecord_orphan (live : s.occ? n = some r) (orphan : s.berth? r.berth = none) :
    s.meetRecord n = (s.orphaned n r).testRemoval n := by
  unfold State.meetRecord
  simp only [live, orphan, Option.isNone_none, if_true]
  rfl

theorem meetRecord_fits (live : s.occ? n = some r) (berth : (s.berth? r.berth).isSome = true) :
    s.meetRecord n = s.modOcc n fun r => { r with profile := s.fitted r } := by
  have known : (s.berth? r.berth).isNone = false := by simpa using berth
  unfold State.meetRecord
  simp only [live, known, Bool.false_eq_true, if_false]
  rfl

theorem setFlagIf_touches (s : State) (m : Nat) (b : Bool) (g : Flag) : Touches m s (s.setFlagIf b g) := by
  unfold State.setFlagIf
  split
  · exact setFlag_touches s m g
  · exact .refl m s

theorem orphaned_touches (s : State) (n : Nat) (r : Occupancy) : Touches n s (s.orphaned n r) :=
  ((modOcc_touches (g := fun r => { r with closureDue := some .orphan, holds := [] }) (fun _ => rfl) s n).trans
    (setFlagIf_touches _ n _ _)).trans (setFlag_touches _ n _)

theorem meetOne_touches (s : State) (n : Nat) : Touches n s (s.meetOne n) := by
  refine Touches.trans ?_ (lapseRecord_touches _ n)
  cases live : s.occ? n with
  | none => rw [meetRecord_gone live]; exact .refl n s
  | some r =>
    cases berth : s.berth? r.berth with
    | none =>
      rw [meetRecord_orphan live berth]
      exact (orphaned_touches s n r).trans (testRemoval_touches _ n)
    | some b =>
      rw [meetRecord_fits live (by rw [berth]; rfl)]
      exact modOcc_touches (g := fun r => { r with profile := s.fitted r }) (fun _ => rfl) s n

theorem meetOne_setup (s : State) (n : Nat) : Setup s (s.meetOne n) := by
  have lapse (s : State) (id : Nat) : Setup s (s.lapseHold n id) :=
    .before (u := (s.dropHold n id).setFlag .holdLapsed) rfl (setup_testRemoval _ n)
  have first : Setup s (s.meetRecord n) := by
    cases live : s.occ? n with
    | none => rw [meetRecord_gone live]; exact .of_eq rfl
    | some r =>
      cases berth : s.berth? r.berth with
      | none =>
        rw [meetRecord_orphan live berth]
        refine .before ?_ (setup_testRemoval _ n)
        unfold State.orphaned State.setFlagIf
        split <;> rfl
      | some b =>
        rw [meetRecord_fits live (by rw [berth]; rfl)]
        exact .of_eq rfl
  refine first.trans ?_
  cases live : (s.meetRecord n).occ? n with
  | none =>
    have : (s.meetRecord n).lapseRecord n = s.meetRecord n := by unfold State.lapseRecord; simp only [live]
    unfold State.meetOne
    rw [this]
    exact .of_eq rfl
  | some r =>
    unfold State.meetOne
    rw [lapseRecord_eq live]
    exact .foldl (fun s id => lapse s id) _ _

theorem expired_unexpired (once : (r.holds.map Hold.id).Nodup) (now : Time) :
    (r.without ((r.holds.filter fun h => decide (h.expiry.toMs ≤ now.toMs)).map Hold.id)).holds = r.unexpired now := by
  refine List.filter_congr fun h hh => ?_
  have listed : (((r.holds.filter fun h => decide (h.expiry.toMs ≤ now.toMs)).map Hold.id).contains h.id) =
      decide (h.expiry.toMs ≤ now.toMs) := by
    rw [Bool.eq_iff_iff, List.contains_iff_mem, decide_eq_true_iff, List.mem_map]
    constructor
    · rintro ⟨g, hg, same⟩
      obtain ⟨there, due⟩ := List.mem_filter.mp hg
      rw [List.inj_on_of_nodup_map once there hh same] at due
      exact of_decide_eq_true due
    · exact fun due => ⟨h, List.mem_filter.mpr ⟨hh, decide_eq_true due⟩, rfl⟩
  rw [listed, ← decide_not]
  exact decide_eq_decide.mpr Nat.not_le

theorem meetOne_orphan (live : s.occ? n = some r) (orphan : s.berth? r.berth = none) :
    s.Met n r (s.meetOne n) ∧ (s.meetOne n).hasFlag .orphanMarked = true ∧
      (r.holds ≠ [] → (s.meetOne n).hasFlag .holdLapsed = true) := by
  have number := occ?_number live
  have metIs : s.met r = { r with closureDue := some .orphan, holds := [] } := if_pos orphan
  have there : (s.orphaned n r).occ? n = some (s.met r) := by
    rw [metIs]
    have changed := modOcc_self (f := fun r => { r with closureDue := some .orphan, holds := [] }) live fun _ => rfl
    unfold State.orphaned State.setFlagIf
    split <;> exact changed
  have same : (s.orphaned n r).occ.closures = s.occ.closures ∧ (s.orphaned n r).link? n = s.link? n ∧
      (s.orphaned n r).now = s.now := by
    unfold State.orphaned State.setFlagIf
    split <;> exact ⟨rfl, rfl, rfl⟩
  obtain ⟨closures, link, now⟩ := same
  have marked : (s.orphaned n r).hasFlag .orphanMarked = true := hasFlag_setFlag _ _
  have lapsed (held : r.holds ≠ []) : (s.orphaned n r).hasFlag .holdLapsed = true := by
    have some : (!r.holds.isEmpty) = true := by simpa using held
    unfold State.orphaned State.setFlagIf
    rw [if_pos some]
    exact (within_setFlag _ _).hasFlag (hasFlag_setFlag _ _)
  have waits : (s.met r).closureWaits = true := by rw [metIs]; rfl
  have due : (s.met r).closureDue.getD .departed = .orphan := by rw [metIs]; rfl
  have runs : s.meetOne n = ((s.orphaned n r).testRemoval n).lapseRecord n := by
    unfold State.meetOne
    rw [meetRecord_orphan live orphan]
  have later := (testRemoval_touches (s.orphaned n r) n).trans (lapseRecord_touches _ n)
  rw [← runs] at later
  refine ⟨?_, later.within.hasFlag marked, fun held => later.within.hasFlag (lapsed held)⟩
  obtain ⟨-, stays, closes⟩ := testRemoval_says there
  by_cases few : (s.orphaned n r).occ.closures.length < 8
  · have closed := closes waits few
    have still : s.meetOne n = (s.orphaned n r).testRemoval n := by
      rw [runs]
      unfold State.lapseRecord
      simp only [closed.gone]
    rw [still]
    exact .inl ⟨.inl orphan, closed.gone, _, by rw [closed.closures, closures],
      (closureOf_is (s.orphaned n r) (s.met r) _).of_stay (met_stay s r) now (by rw [number]; exact link)⟩
  · obtain ⟨same, occ, -, -⟩ := stays (.inr (Nat.not_lt.mp few))
    have still : s.meetOne n = (s.orphaned n r).testRemoval n := by
      rw [runs, lapseRecord_eq same, metIs]
      rfl
    rw [still]
    rw [closures] at few
    exact .inr ⟨same, (congrArg Occ.closures occ).trans closures, fun _ => ⟨Nat.not_lt.mp few, fun h => by
      rw [orphan] at h
      cases h⟩⟩

theorem meetOne_fits (live : s.occ? n = some r) (berth : (s.berth? r.berth).isSome = true)
    (once : (r.holds.map Hold.id).Nodup) :
    s.Met n r (s.meetOne n) ∧ (r.unexpired s.now ≠ r.holds → (s.meetOne n).hasFlag .holdLapsed = true) := by
  have number := occ?_number live
  have known : s.berth? r.berth ≠ none := by
    intro none
    rw [none] at berth
    cases berth
  have metIs : s.met r = { r with profile := s.fitted r, holds := r.unexpired s.now } := if_neg known
  have there : (s.meetRecord n).occ? n = some { r with profile := s.fitted r } := by
    rw [meetRecord_fits live berth]
    exact modOcc_self (f := fun r => { r with profile := s.fitted r }) live fun _ => rfl
  have before : (s.meetRecord n).occ.closures = s.occ.closures ∧ (s.meetRecord n).now = s.now ∧
      (s.meetRecord n).link? n = s.link? n := by
    rw [meetRecord_fits live berth]
    exact ⟨rfl, rfl, rfl⟩
  obtain ⟨closures, now, link⟩ := before
  have runs := lapseRecord_eq there
  have kept := expired_unexpired once s.now
  rw [now] at runs
  unfold State.meetOne State.Met
  generalize listed : ((r.holds.filter fun h => decide (h.expiry.toMs ≤ s.now.toMs)).map Hold.id) = l at runs kept
  have without : Occupancy.without l { r with profile := s.fitted r } = s.met r := by
    rw [metIs, ← kept]
    rfl
  have runs' : (s.meetRecord n).lapseRecord n = l.foldl (fun s id => s.lapseHold n id) (s.meetRecord n) := listed ▸ runs
  rw [runs']
  clear runs runs'
  cases l with
  | nil =>
    rw [without_nil] at without kept
    have same : r.unexpired s.now = r.holds := kept.symm
    refine ⟨.inr ⟨without ▸ there, closures, fun ends => ?_⟩, fun other => absurd same other⟩
    rcases ends with none | ⟨other, -⟩
    · exact absurd none known
    · exact absurd same other
  | cons id ids =>
    obtain ⟨lapsed, flag⟩ := foldl_lapse_at ids id (s.meetRecord n) _ there
    unfold Lapsed at lapsed
    rw [without, closures] at lapsed
    have due : (s.met r).closureDue = r.closureDue := by rw [metIs]
    refine ⟨?_, fun _ => flag⟩
    rcases lapsed with ⟨waits, gone, c, list, of⟩ | ⟨same, list, -, full⟩
    · obtain ⟨h, hh, -⟩ : ∃ h ∈ r.holds.filter fun h => decide (h.expiry.toMs ≤ s.now.toMs), h.id = id :=
        List.mem_map.mp (listed ▸ List.mem_cons_self ..)
      obtain ⟨there, due'⟩ := List.mem_filter.mp hh
      have fewer : r.unexpired s.now ≠ r.holds := fun same => by
        rw [← same] at there
        have := of_decide_eq_true (List.mem_filter.mp there).2
        have := of_decide_eq_true due'
        omega
      refine .inl ⟨.inr ⟨fewer, waits⟩, gone, c, list, ?_⟩
      rw [due]
      exact of.of_stay rfl now (by rw [number]; exact link)
    · exact .inr ⟨same, list, fun ends => by
        rcases ends with none | ⟨-, waits⟩
        · exact absurd none known
        · exact ⟨(full waits).1, fun _ bare => (full waits).2 bare⟩⟩

end

end Sys2Proof.Machine
end

section
/-! PROOFS. The acceptance of JOIN, fourth part (R201): the retained records as a whole. -/

namespace Sys2Proof.Machine

set_option Elab.async false

section
variable {s t u : State} {n : Nat} {r : Occupancy}

theorem holds_nodup (sound : OccupancySound s) (live : s.occ? n = some r) : (r.holds.map Hold.id).Nodup := by
  obtain ⟨-, -, -, -, apart, -⟩ := sound
  exact (List.nodup_flatMap.mp apart).1 r (occ?_mem live)

theorem meetOne_met (sound : OccupancySound s) (live : s.occ? n = some r) : s.Met n r (s.meetOne n) := by
  cases berth : s.berth? r.berth with
  | none => exact (meetOne_orphan live berth).1
  | some b => exact (meetOne_fits live (by rw [berth]; rfl) (holds_nodup sound live)).1

theorem meetOne_sound (sound : OccupancySound s) (n : Nat) : OccupancySound (s.meetOne n) :=
  ((kept_meetRecord s n).trans (kept_lapseRecord _ n)).occ sound

theorem meetOne_gone (gone : s.occ? n = none) : s.meetOne n = s := by
  unfold State.meetOne State.lapseRecord
  rw [meetRecord_gone gone]
  simp only [gone]

/-- The closures one record's meeting adds: at most its own (R34). -/
theorem meetOne_closes (sound : OccupancySound s) (n : Nat) : ∃ added,
    (s.meetOne n).occ.closures = s.occ.closures ++ added ∧ (added.map Closure.occupancy).Sublist [n] := by
  cases live : s.occ? n with
  | none =>
    rw [meetOne_gone live]
    exact ⟨[], by simp, by simp⟩
  | some r =>
    rcases meetOne_met sound live with ⟨-, -, c, closures, of⟩ | ⟨-, closures, -⟩
    · refine ⟨[c], closures, ?_⟩
      have number : c.occupancy = r.number := of.1
      rw [List.map_singleton, number, occ?_number live]
    · exact ⟨[], by simp [closures], by simp⟩

theorem foldl_closes (l : List Nat) : ∀ s : State, OccupancySound s → ∃ added,
    (l.foldl State.meetOne s).occ.closures = s.occ.closures ++ added ∧ (added.map Closure.occupancy).Sublist l := by
  induction l with
  | nil => exact fun s _ => ⟨[], by simp, by simp⟩
  | cons n l ih =>
    intro s sound
    obtain ⟨a, first, one⟩ := meetOne_closes sound n
    obtain ⟨b, rest, more⟩ := ih (s.meetOne n) (meetOne_sound sound n)
    refine ⟨a ++ b, by rw [List.foldl_cons, rest, first, List.append_assoc], ?_⟩
    rw [List.map_append]
    exact one.append more

theorem meetRecords_eq (s : State) : s.meetRecords =
    (keysOf Occupancy.number s.occ.records).foldl State.meetOne s := rfl

theorem meetRecords_moves (s : State) : Moves s s.meetRecords := foldl_moves meetOne_touches _ s

theorem meetRecords_setup (s : State) : Setup s s.meetRecords := .foldl meetOne_setup _ s

/-- The closures of the acceptance of JOIN come in number order (R201). -/
theorem meetRecords_closes (sound : OccupancySound s) : ∃ added,
    s.meetRecords.occ.closures = s.occ.closures ++ added ∧
    added.Pairwise (fun a b => a.occupancy < b.occupancy) := by
  obtain ⟨added, closures, among⟩ := foldl_closes (keysOf Occupancy.number s.occ.records) s sound
  have sorted : (keysOf Occupancy.number s.occ.records).Pairwise (· < ·) := List.pairwise_map.mpr sound.1
  exact ⟨added, closures, List.pairwise_map.mp (sorted.sublist among)⟩

theorem met_same (moves : Moves s u) (setup : Setup s u) (r : Occupancy) : u.met r = s.met r := by
  have berth : u.berth? r.berth = s.berth? r.berth := by simp [State.berth?, moves.bal]
  have fits : u.fitted r = s.fitted r := by
    unfold State.fitted
    rw [moves.berthPoint]
    cases s.berthPoint r.berth with
    | none => rfl
    | some q =>
      show fitProfile _ (u.point? q) = fitProfile _ (s.point? q)
      rw [← fitProfile_setup, setup.point?, fitProfile_setup]
  unfold State.met
  rw [berth, fits, moves.now]

theorem metEnds_same (moves : Moves s u) (setup : Setup s u) (r : Occupancy) : u.metEnds r ↔ s.metEnds r := by
  have berth : u.berth? r.berth = s.berth? r.berth := by simp [State.berth?, moves.bal]
  unfold State.metEnds
  rw [berth, met_same moves setup, moves.now]

/-- What the acceptance of JOIN leaves of a retained record (R201). -/
theorem meetRecords_at (sound : OccupancySound s) (live : s.occ? n = some r) :
    ((s.metEnds r ∧ s.meetRecords.occ? n = none ∧
        ∃ c, NewClosure s s.meetRecords c ∧ IsClosureOf s r ((s.met r).closureDue.getD .departed) c) ∨
      (s.meetRecords.occ? n = some (s.met r) ∧ (s.metEnds r → 8 ≤ s.meetRecords.occ.closures.length ∧
        ((s.berth? r.berth).isSome = true → r.closureDue = none →
          s.meetRecords.hasFlag .closureWaiting = true)))) ∧
    (s.berth? r.berth = none → s.meetRecords.hasFlag .orphanMarked = true ∧
      (r.holds ≠ [] → s.meetRecords.hasFlag .holdLapsed = true)) ∧
    ((s.berth? r.berth).isSome = true → r.unexpired s.now ≠ r.holds →
      s.meetRecords.hasFlag .holdLapsed = true) := by
  have once : (keysOf Occupancy.number s.occ.records).Nodup :=
    List.Pairwise.map _ (fun _ _ h => Nat.ne_of_lt h) sound.1
  obtain ⟨before, -, here, later⟩ := foldl_split meetOne_touches once s (keys_listed live)
  have setup : Setup s (before.foldl State.meetOne s) := .foldl meetOne_setup before s
  have soundU : OccupancySound (before.foldl State.meetOne s) :=
    (Kept.foldl _ (fun s n => (kept_meetRecord s n).trans (kept_lapseRecord _ n)) before s).occ sound
  rw [← meetRecords_eq] at later
  generalize before.foldl State.meetOne s = u at here later setup soundU
  have liveU : u.occ? n = some r := here.stays.trans live
  have number := occ?_number live
  have berth : u.berth? r.berth = s.berth? r.berth := by simp [State.berth?, here.bal]
  have met := meetOne_met soundU liveU
  have same := met_same here.toMoves setup r
  have ends := metEnds_same here.toMoves setup r
  unfold State.Met at met
  rw [same, ends, berth] at met
  refine ⟨?_, fun orphan => ?_, fun known => ?_⟩
  · rcases met with ⟨ends, gone, c, closures, of⟩ | ⟨there, closures, full⟩
    · refine .inl ⟨ends, later.stays.trans gone, c, ?_, of.of_stay rfl here.now (by rw [number]; exact here.link)⟩
      have new : NewClosure u (u.meetOne n) c := by
        unfold NewClosure
        rw [closures, List.drop_left]
        exact List.mem_singleton_self c
      exact (new.before here.toMoves).after later.toMoves
    · refine .inr ⟨later.stays.trans there, fun e => ?_⟩
      obtain ⟨list, flag⟩ := full e
      exact ⟨later.full (by rw [closures]; exact list), fun known bare => later.within.hasFlag (flag known bare)⟩
  · obtain ⟨-, marked, lapsed⟩ := meetOne_orphan liveU (berth.trans orphan)
    exact ⟨later.within.hasFlag marked, fun held => later.within.hasFlag (lapsed held)⟩
  · obtain ⟨-, lapsed⟩ := meetOne_fits liveU (by rw [berth]; exact known) (holds_nodup soundU liveU)
    rw [here.now] at lapsed
    exact fun fewer => later.within.hasFlag (lapsed fewer)

/-- After the acceptance of JOIN no hold of the table has an expiry the clock has reached (R201). -/
theorem meetRecords_holds (sound : OccupancySound s) :
    ∀ r ∈ s.meetRecords.occ.records, ∀ h ∈ r.holds, s.now.toMs < h.expiry.toMs := by
  intro x hx h hh
  have sorted := (kept_meetRecords s).occ sound
  have there := occ?_of_mem sorted.1 hx
  cases live : s.occ? x.number with
  | none =>
    rw [(meetRecords_moves s).gone _ live] at there
    cases there
  | some r =>
    rcases (meetRecords_at sound live).1 with ⟨-, gone, -⟩ | ⟨now, -⟩
    · rw [gone] at there
      cases there
    · rw [now] at there
      obtain rfl := Option.some.inj there
      unfold State.met at hh
      split at hh
      · cases hh
      · exact of_decide_eq_true (List.mem_filter.mp hh).2

end

end Sys2Proof.Machine
end

section
/-! PROOFS. The acceptance of JOIN, fifth part (R100): the links and marks of the retained records at each point. -/

namespace Sys2Proof.Machine

set_option Elab.async false

/-- The links and marks of one record touch its own point and link alone, and no record held back is let go. -/
structure LinksOnly (q n : Nat) (s t : State) : Prop where
  points  : ∀ m, m ≠ q → t.point? m = s.point? m
  links   : ∀ m, m ≠ n → t.link? m = s.link? m
  held    : ∀ m ∈ s.spc.heldBack, m ∈ t.spc.heldBack
  moments : s.moments ≤ t.moments
  numbers : t.spc.points.map Point.number = s.spc.points.map Point.number

section
variable {s t u : State} {q n m : Nat} {p : Point} {r : Occupancy}

theorem LinksOnly.refl (q n : Nat) (s : State) : LinksOnly q n s s :=
  ⟨fun _ _ => rfl, fun _ _ => rfl, fun _ h => h, Nat.le_refl _, rfl⟩

theorem LinksOnly.trans (h : LinksOnly q n s t) (g : LinksOnly q n t u) : LinksOnly q n s u :=
  ⟨fun m other => (g.points m other).trans (h.points m other), fun m other => (g.links m other).trans (h.links m other),
    fun m held => g.held m (h.held m held), Nat.le_trans h.moments g.moments, g.numbers.trans h.numbers⟩

theorem linksOnly_modPoint {f : Point → Point} (hf : ∀ p, (f p).number = p.number) (s : State) (q n : Nat) :
    LinksOnly q n s (s.modPoint q f) := by
  refine ⟨fun m other => modPoint_point?_ne s other.symm hf, fun _ _ => rfl, fun _ h => h, Nat.le_refl _, ?_⟩
  show (modifyKey Point.number q f s.spc.points).map Point.number = _
  unfold modifyKey
  rw [List.map_map]
  refine List.map_congr_left fun p _ => ?_
  simp only [Function.comp_apply]
  split
  · exact hf p
  · rfl

theorem linksOnly_chargeLink (s : State) (q n : Nat) : LinksOnly q n s (s.chargeLink q n) := by
  unfold State.chargeLink
  refine LinksOnly.trans ?_ (linksOnly_modPoint (f := fun p => { p with charging := some n }) (fun _ => rfl) _ q n)
  split
  · exact .refl q n s
  · exact ⟨fun _ _ => rfl, fun m other => lookupKey_insertKey_ne Link.occ (Link.fresh n q) _ other, fun _ h => h,
      Nat.le_refl _, rfl⟩

theorem linksOnly_stamp (s : State) (q n : Nat) : LinksOnly q n s s.stamp :=
  ⟨fun _ _ => rfl, fun _ _ => rfl, fun _ h => h, Nat.le_succ _, rfl⟩

theorem chargeLink_link? (bare : s.link? n = none) (q : Nat) :
    (s.chargeLink q n).link? n = some (Link.mk n q 0 0 0 0) := by
  unfold State.chargeLink
  rw [bare]
  exact lookupKey_insertKey Link.occ (Link.fresh n q) s.spc.links

theorem chargeLink_point? (at_ : s.point? q = some p) (n : Nat) :
    (s.chargeLink q n).point? q = some { p with charging := some n } := by
  unfold State.chargeLink
  split <;> exact modPoint_point?_self _ (f := fun p => { p with charging := some n }) at_ fun _ => rfl

theorem chargeLink_time (s : State) (q n : Nat) : (s.chargeLink q n).moments = s.moments ∧ (s.chargeLink q n).now = s.now := by
  unfold State.chargeLink
  split <;> exact ⟨rfl, rfl⟩

/-! ### One record (R100) -/

theorem retainLink_booked (live : s.occ? n = some r) (booked : r.state = .booked) : s.retainLink n = s := by
  unfold State.retainLink
  simp only [live, booked, if_true]

theorem retainLink_nowhere (live : s.occ? n = some r) (bare : (s.berthPoint r.berth).bind s.point? = none) :
    s.retainLink n = s := by
  unfold State.retainLink
  simp only [live]
  split
  · rfl
  · cases berth : s.berthPoint r.berth with
    | none => rfl
    | some q =>
      have none : s.point? q = none := by simpa [berth] using bare
      simp only [none]

theorem retainLink_eq (live : s.occ? n = some r) (past : r.state ≠ .booked) (berth : s.berthPoint r.berth = some q)
    (at_ : s.point? q = some p) : s.retainLink n =
      if p.charging.isNone then
        if r.state = .departing then (s.chargeLink q n).markFinal q
        else if r.account.state = .barred then (s.chargeLink q n).setOutlet q .heldOff else s.chargeLink q n
      else if r.state = .departing then
        (s.modPoint q fun p => { p with arrivals := p.arrivals ++ [n] }).markRetained q n
      else { s.modPoint q fun p => { p with arrivals := p.arrivals ++ [n] } with
        spc := { (s.modPoint q fun p => { p with arrivals := p.arrivals ++ [n] }).spc with
          heldBack := s.spc.heldBack ++ [n] } } := by
  unfold State.retainLink
  simp only [live, past, berth, at_, if_false]
  rfl

theorem linksOnly_markFinal (s : State) (q n : Nat) : LinksOnly q n s (s.markFinal q) :=
  (linksOnly_stamp s q n).trans (linksOnly_modPoint
    (f := fun p => { p with finalMark := some { moment := s.stamp.moments, time := s.stamp.now } }) (fun _ => rfl) _ q n)

theorem linksOnly_markRetained (s : State) (q n : Nat) : LinksOnly q n s (s.markRetained q n) :=
  (linksOnly_stamp s q n).trans (linksOnly_modPoint (f := fun p => { p with
    retained := p.retained ++ [{ occ := n, mark := { moment := s.stamp.moments, time := s.stamp.now } }] })
    (fun _ => rfl) _ q n)

theorem linksOnly_retainLink (live : s.occ? n = some r) (past : r.state ≠ .booked)
    (berth : s.berthPoint r.berth = some q) (at_ : s.point? q = some p) : LinksOnly q n s (s.retainLink n) := by
  have arrives := linksOnly_modPoint (f := fun p => { p with arrivals := p.arrivals ++ [n] }) (fun _ => rfl) s q n
  rw [retainLink_eq live past berth at_]
  split
  · split
    · exact (linksOnly_chargeLink s q n).trans (linksOnly_markFinal _ q n)
    · split
      · exact (linksOnly_chargeLink s q n).trans
          (linksOnly_modPoint (f := fun p => { p with outlet := .heldOff }) (fun _ => rfl) _ q n)
      · exact linksOnly_chargeLink s q n
  · split
    · exact arrives.trans (linksOnly_markRetained _ q n)
    · exact arrives.trans ⟨fun _ _ => rfl, fun _ _ => rfl, fun m held => List.mem_append_left _ held, Nat.le_refl _, rfl⟩

/-- The first record of a point is charged there; a departing one sets the final-reading mark (R100). -/
theorem retainLink_first (live : s.occ? n = some r) (past : r.state ≠ .booked)
    (berth : s.berthPoint r.berth = some q) (at_ : s.point? q = some p) (free : p.charging = none)
    (bare : s.link? n = none) :
    (s.retainLink n).link? n = some (Link.mk n q 0 0 0 0) ∧ (s.retainLink n).point? q = some { p with
      charging := some n
      finalMark := if r.state = .departing then some ⟨s.moments + 1, s.now⟩ else p.finalMark
      outlet := if r.state ≠ .departing ∧ r.account.state = .barred then .heldOff else p.outlet } ∧
    (r.state = .departing → (s.retainLink n).moments = s.moments + 1) := by
  have charged := chargeLink_point? at_ n
  have linked := chargeLink_link? bare q
  obtain ⟨moments, now⟩ := chargeLink_time s q n
  rw [retainLink_eq live past berth at_, free]
  by_cases departing : r.state = .departing
  · rw [if_pos (show (none : Option Nat).isNone = true from rfl), if_pos departing]
    have marked : ((s.chargeLink q n).markFinal q).point? q = some { p with
        charging := some n
        finalMark := some ⟨(s.chargeLink q n).moments + 1, (s.chargeLink q n).now⟩ } :=
      modPoint_point?_self (s.chargeLink q n).stamp (f := fun p => { p with
        finalMark := some ⟨(s.chargeLink q n).moments + 1, (s.chargeLink q n).now⟩ }) charged fun _ => rfl
    rw [moments, now] at marked
    refine ⟨linked, ?_, fun _ => congrArg (· + 1) moments⟩
    rw [marked, if_pos departing, if_neg fun h => h.1 departing]
  · rw [if_pos (show (none : Option Nat).isNone = true from rfl), if_neg departing, if_neg departing]
    by_cases barred : r.account.state = .barred
    · rw [if_pos barred, if_pos ⟨departing, barred⟩]
      exact ⟨linked, modPoint_point?_self _ (f := fun p => { p with outlet := .heldOff }) charged fun _ => rfl,
        fun h => absurd h departing⟩
    · rw [if_neg barred, if_neg fun h => barred h.2]
      exact ⟨linked, charged, fun h => absurd h departing⟩

/-- A later record of a point waits there; a departing one sets its own mark, another is held back (R100, R202). -/
theorem retainLink_later (live : s.occ? n = some r) (past : r.state ≠ .booked)
    (berth : s.berthPoint r.berth = some q) (at_ : s.point? q = some p) (taken : p.charging ≠ none) :
    (s.retainLink n).link? = s.link? ∧ (s.retainLink n).point? q = some { p with
      arrivals := p.arrivals ++ [n]
      retained := if r.state = .departing then p.retained ++ [⟨n, ⟨s.moments + 1, s.now⟩⟩] else p.retained } ∧
    (r.state = .departing → (s.retainLink n).moments = s.moments + 1) ∧
    (r.state ≠ .departing → n ∈ (s.retainLink n).spc.heldBack) := by
  have arrives := modPoint_point?_self _ (f := fun p => { p with arrivals := p.arrivals ++ [n] }) at_ fun _ => rfl
  have held : ¬ p.charging.isNone = true := by simpa using taken
  rw [retainLink_eq live past berth at_, if_neg held]
  by_cases departing : r.state = .departing
  · rw [if_pos departing, if_pos departing]
    refine ⟨rfl, ?_, fun _ => rfl, fun h => absurd departing h⟩
    exact modPoint_point?_self (s.modPoint q fun p => { p with arrivals := p.arrivals ++ [n] }).stamp
      (f := fun p => { p with retained := p.retained ++ [⟨n, ⟨s.moments + 1, s.now⟩⟩] }) arrives fun _ => rfl
  · rw [if_neg departing, if_neg departing]
    exact ⟨rfl, arrives, fun h => absurd h departing, fun _ => List.mem_append_right _ (List.mem_singleton_self n)⟩

/-! ### The records of a point, one after the other -/

/-- The record stays at a point (R100). -/
def State.atPoint (s : State) (q : Nat) (r : Occupancy) : Bool :=
  r.state != .booked && s.berthPoint r.berth == some q

/-- What the records met so far leave of their point (R100). -/
def State.Retained (s : State) (q : Nat) (p : Point) (here : List Occupancy) (t : State) : Prop :=
  (here = [] → t.point? q = some p) ∧
  ∀ r rest, here = r :: rest → ∃ x, t.point? q = some x ∧
    x.charging = some r.number ∧ t.link? r.number = some (Link.mk r.number q 0 0 0 0) ∧
    x.arrivals = rest.map Occupancy.number ∧
    (∀ y ∈ rest, y.state = .alongside → y.number ∈ t.spc.heldBack) ∧
    x.retained.map RetainedFinal.occ = (rest.filter fun y => y.state == .departing).map Occupancy.number ∧
    (x.finalMark.isSome = true ↔ r.state = .departing) ∧
    (∀ m, x.finalMark = some m ∨ m ∈ x.retained.map RetainedFinal.mark → m.time = s.now ∧ m.moment ≤ t.moments) ∧
    x.outlet = (if r.state = .alongside ∧ r.account.state = .barred then .heldOff else p.outlet)

theorem Retained.beside {here : List Occupancy} (h : s.Retained q p here t) (g : LinksOnly m n t u) (other : q ≠ m)
    (fresh : ∀ r ∈ here, r.number ≠ n) : s.Retained q p here u := by
  obtain ⟨none, some⟩ := h
  refine ⟨fun empty => (g.points q other).trans (none empty), fun r rest list => ?_⟩
  obtain ⟨x, at_, charging, link, arrivals, held, retained, final, marks, outlet⟩ := some r rest list
  have distinct : r.number ≠ n := fresh r (list ▸ List.mem_cons_self ..)
  exact ⟨x, (g.points q other).trans at_, charging, (g.links _ distinct).trans link, arrivals,
    fun y hy along => g.held _ (held y hy along), retained, final,
    fun m hm => ⟨(marks m hm).1, Nat.le_trans (marks m hm).2 g.moments⟩, outlet⟩

end

end Sys2Proof.Machine
end

section
/-! PROOFS. O15: the acceptance of JOIN, step by step (R100, R153, R170, R200, R201). -/

namespace Sys2Proof.Machine

set_option Elab.async false

section
variable {s t u : State} {q n : Nat} {p : Point} {r : Occupancy}

/-- A retained record is linked at its point, or changes nothing. -/
theorem retainLink_cases (live : s.occ? n = some r) : s.retainLink n = s ∨
    ∃ q p, r.state ≠ .booked ∧ s.berthPoint r.berth = some q ∧ s.point? q = some p := by
  by_cases booked : r.state = .booked
  · exact .inl (retainLink_booked live booked)
  · cases berth : s.berthPoint r.berth with
    | none => exact .inl (retainLink_nowhere live (by rw [berth]; rfl))
    | some q =>
      cases at_ : s.point? q with
      | none => exact .inl (retainLink_nowhere live (by rw [berth]; exact at_))
      | some p => exact .inr ⟨q, p, booked, rfl, at_⟩

theorem atPoint_iff (s : State) (q : Nat) (r : Occupancy) :
    s.atPoint q r = true ↔ r.state ≠ .booked ∧ s.berthPoint r.berth = some q := by
  simp [State.atPoint]

/-- The first record of a point, and each later one, taken into account (R100). -/
theorem Retained.next {here : List Occupancy} (h : s.Retained q p here u) (now : u.now = s.now)
    (idle : p.charging = none ∧ p.arrivals = [] ∧ p.retained = [] ∧ p.finalMark = none)
    (live : u.occ? r.number = some r) (past : r.state ≠ .booked) (berth : u.berthPoint r.berth = some q)
    (bare : u.link? r.number = none) : s.Retained q p (here ++ [r]) (u.retainLink r.number) := by
  obtain ⟨empty, some⟩ := h
  refine ⟨fun none => by simp at none, fun r' rest list => ?_⟩
  cases here with
  | nil =>
    obtain ⟨rfl, rfl⟩ := List.cons.inj list
    have at_ := empty rfl
    have only := linksOnly_retainLink live past berth at_
    obtain ⟨link, point, moments⟩ := retainLink_first live past berth at_ idle.1 bare
    refine ⟨_, point, rfl, link, idle.2.1, fun y hy => absurd hy List.not_mem_nil, by simp [idle.2.2.1], ?_,
      fun m hm => ?_, ?_⟩
    · by_cases departing : r.state = .departing <;> simp [departing, idle.2.2.2]
    · by_cases departing : r.state = .departing
      · have same : m = ⟨u.moments + 1, u.now⟩ := by simpa [departing, idle.2.2.1, eq_comm] using hm
        rw [same, moments departing]
        exact ⟨now, Nat.le_refl _⟩
      · simp [departing, idle.2.2.1, idle.2.2.2] at hm
    · have states : r.state ≠ .departing ↔ r.state = .alongside := by
        cases state : r.state <;> simp_all
      simp only [states]
  | cons first more =>
    obtain ⟨rfl, rfl⟩ := List.cons.inj list
    obtain ⟨x, at_, charging, link, arrivals, held, retained, final, marks, outlet⟩ := some first more rfl
    have only := linksOnly_retainLink live past berth at_
    obtain ⟨links, point, moments, waits⟩ := retainLink_later live past berth at_ (by simp [charging])
    refine ⟨_, point, charging, (congrFun links _).trans link, ?_, fun y hy along => ?_, ?_, final, fun m hm => ?_, outlet⟩
    · simp [arrivals]
    · rcases List.mem_append.mp hy with hy | hy
      · exact only.held _ (held y hy along)
      · obtain rfl := List.mem_singleton.mp hy
        exact waits (by simp [along])
    · by_cases departing : r.state = .departing <;> simp [departing, retained]
    · by_cases departing : r.state = .departing
      · have split : (x.finalMark = Option.some m ∨ m ∈ x.retained.map RetainedFinal.mark) ∨ m = ⟨u.moments + 1, u.now⟩ := by
          simpa [departing, or_assoc, and_comm] using hm
        rcases split with old | rfl
        · exact ⟨(marks m old).1, Nat.le_trans (marks m old).2 only.moments⟩
        · rw [moments departing]
          exact ⟨now, Nat.le_refl _⟩
      · have old : x.finalMark = Option.some m ∨ m ∈ x.retained.map RetainedFinal.mark := by
          simpa [departing] using hm
        exact ⟨(marks m old).1, Nat.le_trans (marks m old).2 only.moments⟩

/-- The retained records are met one after the other, the ones before them done. -/
theorem foldl_retainLink (l : List Occupancy) : ∀ (done : List Occupancy) (u : State),
    u.occ = s.occ → u.now = s.now → u.bal = s.bal → s.occ.records = done ++ l →
    s.occ.records.Pairwise (fun a b => a.number < b.number) →
    (p.charging = none ∧ p.arrivals = [] ∧ p.retained = [] ∧ p.finalMark = none) →
    s.Retained q p (done.filter (s.atPoint q)) u → (∀ r ∈ l, u.link? r.number = none) →
    s.Retained q p (s.occ.records.filter (s.atPoint q))
      ((keysOf Occupancy.number l).foldl State.retainLink u) := by
  induction l with
  | nil =>
    intro done u _ _ _ split _ _ h _
    rw [split, List.append_nil]
    exact h
  | cons r l ih =>
    intro done u occ now bal split sorted idle h bare
    have live : u.occ? r.number = some r := by
      have there : r ∈ u.occ.records := by rw [occ, split]; simp
      exact occ?_of_mem (by rw [occ]; exact sorted) there
    have within := within_retainLink u r.number
    have point (b : Nat) : u.berthPoint b = s.berthPoint b := by simp [State.berthPoint, State.berth?, bal]
    have apart := sorted
    rw [split] at apart
    obtain ⟨-, after, before⟩ := List.pairwise_append.mp apart
    obtain ⟨later, -⟩ := List.pairwise_cons.mp after
    have now' : (u.retainLink r.number).now = s.now := (time_of_sch (within.frame .sch (by decide))).trans now
    refine ih (done ++ [r]) (u.retainLink r.number) ((within.frame .occ (by decide)).trans occ) now'
      ((within.frame .bal (by decide)).trans bal) (by rw [split]; simp) sorted idle ?_ fun x hx => ?_
    · rw [List.filter_append]
      by_cases here : s.atPoint q r = true
      · obtain ⟨past, berth⟩ := (atPoint_iff s q r).mp here
        rw [List.filter_cons_of_pos here, List.filter_nil]
        exact Retained.next h now idle live past ((point _).trans berth) (bare r (List.mem_cons_self ..))
      · rw [List.filter_cons_of_neg here, List.filter_nil, List.append_nil]
        rcases retainLink_cases live with same | ⟨m, x, past, berth, at_⟩
        · rwa [same]
        · have other : q ≠ m := fun e => here ((atPoint_iff s q r).mpr ⟨past, by rw [← point, berth, e]⟩)
          refine Retained.beside h (linksOnly_retainLink live past berth at_) other fun y hy => ?_
          exact Nat.ne_of_lt (before y (List.mem_of_mem_filter hy) r (List.mem_cons_self ..))
    · have old := bare x (List.mem_cons_of_mem _ hx)
      rcases retainLink_cases live with same | ⟨m, y, past, berth, at_⟩
      · rw [same]
        exact old
      · exact ((linksOnly_retainLink live past berth at_).links _ (Nat.ne_of_gt (later x hx))).trans old

theorem retainLink_numbers (s : State) (n : Nat) :
    (s.retainLink n).spc.points.map Point.number = s.spc.points.map Point.number := by
  cases live : s.occ? n with
  | none =>
    have : s.retainLink n = s := by unfold State.retainLink; simp only [live]
    rw [this]
  | some r =>
    rcases retainLink_cases live with same | ⟨q, p, past, berth, at_⟩
    · rw [same]
    · exact (linksOnly_retainLink live past berth at_).numbers

theorem foldl_retainLink_numbers (l : List Nat) (s : State) :
    (l.foldl State.retainLink s).spc.points.map Point.number = s.spc.points.map Point.number := by
  induction l generalizing s with
  | nil => rfl
  | cons n l ih => exact (ih _).trans (retainLink_numbers s n)

/-- The posts to poll depend on the points' numbers alone (R74, R82). -/
theorem configuredPosts_numbers (h : t.spc.points.map Point.number = s.spc.points.map Point.number) :
    t.configuredPosts = s.configuredPosts := by
  have any (u : State) (n : Nat) : (u.spc.points.any fun p => postOf p.number == n) =
      (u.spc.points.map Point.number).any fun k => postOf k == n := by
    rw [List.any_map]
    rfl
  unfold State.configuredPosts
  simp only [any, h]

/-! ### The acceptance (R200) -/

/-- The station state a JOIN is accepted with, before OCC meets its records. -/
def State.opened (s : State) : State := (s.enterJoining s.startKind.joinKind).armAll

/-- The retained records met and linked, before the poll begins. -/
def State.linked (s : State) : State :=
  (keysOf Occupancy.number s.opened.meetRecords.occ.records).foldl State.retainLink s.opened.meetRecords

theorem acceptJoin_linked (s : State) : s.acceptJoin = s.linked.beginPolling := rfl

theorem exec_join_accepted (taken : Takes 2 s) (here : s.lif.state = .unconfigured) (passes : s.joinFault = none) :
    exec .join s = .next ((s.takeFrame 2).acceptJoin.writeAnswer 2 (.done [])) := by
  have passes' : (s.takeFrame 2).joinFault = none := passes
  have here' : (s.takeFrame 2).unconfigured = true := by simpa [State.unconfigured] using here
  have decided : exec .join s = .next _ := congrArg Host.Outcome.next (State.request_taken taken)
  refine decided.trans ?_
  simp only [here', passes', Bool.not_true, Bool.false_eq_true, if_false]

/-- What the JOIN queued and the schedule armed leave alone. -/
theorem opened_rest (s : State) : s.opened.occ = s.occ ∧ s.opened.bal = s.bal ∧ s.opened.spc = s.spc ∧
    s.opened.elapsed = s.elapsed ∧ s.opened.now = s.now := by
  have joined := within_enterJoining s s.startKind.joinKind
  have armed := within_armAll (s.enterJoining s.startKind.joinKind)
  have sch : (s.enterJoining s.startKind.joinKind).sch = s.sch := joined.frame .sch (by decide)
  obtain ⟨sec, ms⟩ := armAll_clock (s.enterJoining s.startKind.joinKind)
  refine ⟨(armed.frame .occ (by decide)).trans (joined.frame .occ (by decide)),
    (armed.frame .bal (by decide)).trans (joined.frame .bal (by decide)),
    (armed.frame .spc (by decide)).trans (joined.frame .spc (by decide)),
    (armed.frame .elapsed (by decide)).trans (joined.frame .elapsed (by decide)), ?_⟩
  show (⟨s.opened.sch.sec, s.opened.sch.ms⟩ : Time) = ⟨s.sch.sec, s.sch.ms⟩
  rw [← sch]
  exact congrArg₂ Time.mk sec ms

theorem opened_lif (empty : s.lif.tx = []) : s.opened.lif = { s.lif with
    state := .joining
    failed := 0
    listenEnd := none
    silenceEnd := none
    serial := s.lif.serial + 1
    tx := [⟨s.lif.serial, joinFrame s.me s.settings.baseShare s.startKind.joinKind⟩] } :=
  (within_armAll _).lif.trans (congrArg State.lif (enterJoining_eq _ empty))

theorem linked_moves (s : State) : Within [.occ, .spc, .moments] s.opened s.linked :=
  ((meetRecords_moves s.opened).within.mono (by decide)).trans
    ((Within.foldl _ within_retainLink _ _).mono (by decide))

/-- The acceptance of JOIN after the schedule: OCC's records met, SPC's links and the poll begun. -/
theorem accepted_moves (s : State) : Within [.occ, .spc, .moments] s.opened s.acceptJoin :=
  (linked_moves s).trans ((within_beginPolling _).mono (by decide))

/-- OCC's part of the acceptance is done once its records are met. -/
theorem accepted_met (s : State) : Within [.spc, .moments] s.opened.meetRecords s.acceptJoin :=
  ((Within.foldl _ within_retainLink _ _).mono (by decide)).trans ((within_beginPolling _).mono (by decide))

theorem linked_posts (s : State) : s.linked.configuredPosts = s.configuredPosts := by
  obtain ⟨-, -, spc, -, -⟩ := opened_rest s
  refine configuredPosts_numbers ((foldl_retainLink_numbers _ _).trans ?_)
  have points := congrArg (List.map Point.number) (meetRecords_setup s.opened).points
  rw [List.map_map, List.map_map, spc] at points
  exact points

/-- The poll of the configured posts begins (R82, R200). -/
theorem accepted_polls (empty : s.lif.tx = []) : s.acceptJoin.spc.nextCycle = s.elapsed + 2000000 ∧
    (s.acceptJoin.spc.poll.isSome = true ↔ s.configuredPosts ≠ []) ∧
    (∀ o, s.acceptJoin.spc.poll = some o → some o.post = s.configuredPosts.head? ∧ o.allOff = false ∧
      s.acceptJoin.spc.toPoll = s.configuredPosts.tail ∧ o.sentAt = s.elapsed ∧ s.linked.moments < o.moment) ∧
    s.acceptJoin.spc.points = s.linked.spc.points ∧ s.acceptJoin.spc.links = s.linked.spc.links ∧
    s.acceptJoin.spc.heldBack = s.linked.spc.heldBack := by
  have on : s.linked.lif.state ≠ .unconfigured := by
    rw [(linked_moves s).lif, opened_lif empty]
    simp
  have elapsed : s.linked.elapsed = s.elapsed :=
    ((linked_moves s).frame .elapsed (by decide)).trans (opened_rest s).2.2.2.1
  obtain ⟨idle, busy⟩ := beginPolling_eq on
  rw [linked_posts, elapsed] at idle busy
  rw [acceptJoin_linked]
  cases posts : s.configuredPosts with
  | nil =>
    rw [idle posts]
    exact ⟨rfl, by simp, fun o h => (nomatch (h : (none : Option OpenPoll) = some o)), rfl, rfl, rfl⟩
  | cons n l =>
    obtain ⟨o, eq, post, off, sent, moment⟩ := busy n l posts
    rw [eq]
    refine ⟨rfl, by simp, fun o' h => ?_, rfl, rfl, rfl⟩
    obtain rfl := Option.some.inj h
    exact ⟨by rw [post]; rfl, off, rfl, sent, by omega⟩

theorem accepted_schedule (s : State) (apart : (s.sch.places.map ScheduleEntry.place).Nodup) :
    s.acceptJoin.sch.places = s.sch.places.map (fun e => e.begun s.now.toMs s.sch.sec) ∧
    s.acceptJoin.sch.firings = s.sch.firings ++
      (s.sch.places.filter fun e => e.lateFires s.now.toMs).map ScheduleEntry.kind := by
  have joined := within_enterJoining s s.startKind.joinKind
  have sch : (s.enterJoining s.startKind.joinKind).sch = s.sch := joined.frame .sch (by decide)
  have now : (s.enterJoining s.startKind.joinKind).now = s.now := time_of_sch sch
  have armed := foldl_armEntry s.now.toMs s.sch.sec s.sch.places [] (s.enterJoining s.startKind.joinKind)
    (by rw [sch]; rfl) apart (by rw [now]) (by rw [sch])
  have opened : s.opened.sch = _ := (congrArg (fun l => (List.foldl State.armEntry _ l).sch)
    (congrArg Sch.places sch)).trans armed
  rw [(accepted_moves s).frame .sch (by decide), opened, sch]
  exact ⟨rfl, rfl⟩

theorem accepted_points (sound : OccupancySound s) (bare : s.spc.links = [])
    (idle : ∀ p ∈ s.spc.points, p.charging = none ∧ p.arrivals = [] ∧ p.retained = [] ∧ p.finalMark = none)
    (at_ : s.point? q = some p) :
    s.Retained q p (s.acceptJoin.occ.records.filter (s.atPoint q)) s.linked := by
  obtain ⟨occ, bal, spc, elapsed, now⟩ := opened_rest s
  have moves := meetRecords_moves s.opened
  have setup := meetRecords_setup s.opened
  have plain : ∀ p ∈ s.opened.spc.points, p.setup = p := by
    rw [spc]
    intro p hp
    obtain ⟨h1, h2, h3, h4⟩ := idle p hp
    simp [Point.setup, ← h1, ← h2, ← h3, ← h4]
  have points := setup.idle plain
  have links := setup.links (by rw [spc]; exact bare)
  rw [spc] at points
  have sorted := ((kept_meetRecords s.opened).occ (by unfold OccupancySound; rw [occ]; exact sound)).1
  have records : s.acceptJoin.occ.records = s.opened.meetRecords.occ.records := by rw [(accepted_met s).frame .occ (by decide)]
  have same (q : Nat) : s.opened.meetRecords.atPoint q = s.atPoint q := by
    funext r
    unfold State.atPoint
    rw [moves.berthPoint, State.berthPoint, State.berthPoint, State.berth?, State.berth?, bal]
  have clear (n : Nat) : s.opened.meetRecords.link? n = none := by
    unfold State.link?
    rw [links]
    rfl
  have begins : s.opened.meetRecords.Retained q p [] s.opened.meetRecords := by
    refine ⟨fun _ => ?_, fun r rest h => by cases h⟩
    unfold State.point?
    rw [points]
    exact at_
  have done := foldl_retainLink (s := s.opened.meetRecords) (q := q) (p := p) s.opened.meetRecords.occ.records []
    s.opened.meetRecords rfl rfl rfl rfl sorted (idle p (lookupKey_some at_).1) begins fun r _ => clear _
  unfold State.Retained at done ⊢
  rw [moves.now, now, same] at done
  rw [records]
  exact done

/-- What the acceptance leaves of a retained record, said of the state it was accepted in (R201). -/
theorem accepted_at (sound : OccupancySound s) (live : s.occ? n = some r) :
    ((s.metEnds r ∧ s.acceptJoin.occ? n = none ∧
        ∃ c, NewClosure s s.acceptJoin c ∧ IsClosureOf s r ((s.met r).closureDue.getD .departed) c) ∨
      (s.acceptJoin.occ? n = some (s.met r) ∧ (s.metEnds r → 8 ≤ s.acceptJoin.occ.closures.length ∧
        ((s.berth? r.berth).isSome = true → r.closureDue = none → s.acceptJoin.hasFlag .closureWaiting = true)))) ∧
    (s.berth? r.berth = none → s.acceptJoin.hasFlag .orphanMarked = true ∧
      (r.holds ≠ [] → s.acceptJoin.hasFlag .holdLapsed = true)) ∧
    ((s.berth? r.berth).isSome = true → r.unexpired s.now ≠ r.holds → s.acceptJoin.hasFlag .holdLapsed = true) := by
  obtain ⟨occ, bal, spc, elapsed, now⟩ := opened_rest s
  have met := meetRecords_at (s := s.opened) (n := n) (r := r) (by unfold OccupancySound; rw [occ]; exact sound)
    (by unfold State.occ?; rw [occ]; exact live)
  have berth (b : Nat) : s.opened.berth? b = s.berth? b := by unfold State.berth?; rw [bal]
  have fits : s.opened.fitted r = s.fitted r := by
    unfold State.fitted State.berthPoint State.berth? State.point?
    rw [bal, spc]
  have same : s.opened.met r = s.met r := by
    unfold State.met
    rw [berth, fits, now]
  have ends : s.opened.metEnds r ↔ s.metEnds r := by
    unfold State.metEnds
    rw [berth, same, now]
  have here : s.acceptJoin.occ = s.opened.meetRecords.occ := (accepted_met s).frame .occ (by decide)
  have flags {g : Flag} := (accepted_met s).hasFlag (f := g)
  obtain ⟨outcome, orphan, fitted⟩ := met
  rw [same, ends, berth] at outcome
  rw [berth] at orphan fitted
  rw [now] at fitted
  have found : s.acceptJoin.occ? n = s.opened.meetRecords.occ? n := by unfold State.occ?; rw [here]
  refine ⟨?_, fun none => ?_, fun known fewer => flags (fitted known fewer)⟩
  · rw [found, here]
    rcases outcome with ⟨e, gone, c, new, of⟩ | ⟨there, full⟩
    · refine .inl ⟨e, gone, c, ?_, of.congr now (link?_congr spc _) rfl rfl rfl rfl rfl rfl rfl⟩
      unfold NewClosure at new ⊢
      rwa [here, ← occ]
    · exact .inr ⟨there, fun e => ⟨(full e).1, fun known bare => flags ((full e).2 known bare)⟩⟩
  · obtain ⟨marked, lapsed⟩ := orphan none
    exact ⟨flags marked, fun held => flags (lapsed held)⟩

/-- The closures the acceptance adds, and the records it leaves out (R201). -/
theorem accepted_closes (sound : OccupancySound s) : ∃ added,
    s.acceptJoin.occ.closures = s.occ.closures ++ added ∧ added.Pairwise (fun a b => a.occupancy < b.occupancy) ∧
    (∀ c ∈ added, (s.occ? c.occupancy).isSome = true ∧ s.acceptJoin.occ? c.occupancy = none) ∧
    (added ≠ [] → s.acceptJoin.hasFlag .closureAdded = true) ∧
    (∀ n, s.occ? n = none → s.acceptJoin.occ? n = none) ∧
    (∀ r ∈ s.acceptJoin.occ.records, ∀ h ∈ r.holds, s.now.toMs < h.expiry.toMs) := by
  obtain ⟨occ, bal, spc, elapsed, now⟩ := opened_rest s
  have sound' : OccupancySound s.opened := by unfold OccupancySound; rw [occ]; exact sound
  have here : s.acceptJoin.occ = s.opened.meetRecords.occ := (accepted_met s).frame .occ (by decide)
  have moves := meetRecords_moves s.opened
  obtain ⟨added, closures, sorted⟩ := meetRecords_closes sound'
  obtain ⟨added', closures', gone, flag⟩ := moves.closes
  obtain rfl := List.append_cancel_left (closures'.symm.trans closures)
  have found (n : Nat) : s.acceptJoin.occ? n = s.opened.meetRecords.occ? n := by unfold State.occ?; rw [here]
  have before (n : Nat) : s.opened.occ? n = s.occ? n := by unfold State.occ?; rw [occ]
  refine ⟨added', by rw [here, closures, occ], sorted, fun c hc => ?_, fun some => (accepted_met s).hasFlag (flag some),
    fun n none => ?_, ?_⟩
  · rw [found, ← before]
    exact gone c hc
  · rw [found]
    exact moves.gone n ((before n).trans none)
  · rw [here, ← now]
    exact meetRecords_holds sound'

end

end Sys2Proof.Machine
end

section
/-! PROOFS. O15: a JOIN that passes R199's checks. -/

namespace Sys2Proof.Machine

set_option Elab.async false

/-- What arming makes of an entry, written out (R153). -/
theorem begun_eq (e : ScheduleEntry) (now sec : Nat) : e.begun now sec =
    if e.state ≠ .idle then e
    else if e.check = true then
      if e.timely now = true then e.dueAt e.start
      else if e.cycle = 0 then e.spent else e.dueAt (sec + e.cycle)
    else if now ≤ e.start * 1000 then e.dueAt e.start
    else if e.cycle = 0 then e.spent
    else e.dueAt (e.start + (now - e.start * 1000 + e.cycle * 1000 - 1) / (e.cycle * 1000) * e.cycle) := by
  unfold ScheduleEntry.begun ScheduleEntry.firstDue
  by_cases idle : e.state = .idle
  · rw [if_pos idle, if_neg (not_not_intro idle)]
    cases e.check with
    | true => cases e.timely now <;> by_cases once : e.cycle = 0 <;> simp [once, ScheduleEntry.dueOrSpent]
    | false =>
      by_cases early : now ≤ e.start * 1000
      · simp [early, ScheduleEntry.dueOrSpent]
      · by_cases once : e.cycle = 0 <;> simp [early, once, ScheduleEntry.dueOrSpent, firstNotBefore]
  · rw [if_neg idle, if_pos idle]

/-- Settles O15: the steps of the acceptance in their order, each said by its own lemma (`accepted_closes`,
`accepted_at`, `accepted_points`, `accepted_polls`, `accepted_schedule`). -/
theorem joinAcceptedStartsTheStation : Obligations.JoinAcceptedStartsTheStation := by
  intro s taken here passes empty sound
  have runs := exec_join_accepted taken here passes
  have frame := frame_of_runs runs
  have lif : (s.takeFrame 2).acceptJoin.lif = _ :=
    (accepted_moves (s.takeFrame 2)).lif.trans (opened_lif (s := s.takeFrame 2) empty)
  have armed : (∀ e ∈ (s.takeFrame 2).acceptJoin.sch.places, e.state ≠ .idle) ∧
      (s.takeFrame 2).acceptJoin.sch.sec = s.sch.sec ∧ (s.takeFrame 2).acceptJoin.sch.ms = s.sch.ms := by
    have joined := (within_enterJoining (s.takeFrame 2) s.startKind.joinKind).frame .sch (by decide)
    obtain ⟨sec, ms⟩ := armAll_clock ((s.takeFrame 2).enterJoining s.startKind.joinKind)
    rw [(accepted_moves (s.takeFrame 2)).frame .sch (by decide)]
    exact ⟨armAll_idle _, sec.trans (congrArg Sch.sec joined), ms.trans (congrArg Sch.ms joined)⟩
  have schedule := accepted_schedule (s.takeFrame 2)
  have metAt {n : Nat} {r : Occupancy} := accepted_at (s := s.takeFrame 2) (n := n) (r := r) sound
  have pointAt {q : Nat} {p : Point} := accepted_points (s := s.takeFrame 2) (q := q) (p := p) sound
  obtain ⟨added, closures, sorted, gone, flag, none, spared⟩ := accepted_closes (s := s.takeFrame 2) sound
  obtain ⟨cycle, polls, opened, points, links, held⟩ := accepted_polls (s := s.takeFrame 2) empty
  obtain ⟨idle, sec, ms⟩ := armed
  generalize (s.takeFrame 2).acceptJoin = w at *
  have new {c : Closure} (h : NewClosure (s.takeFrame 2) w c) : c ∈ added := by
    unfold NewClosure at h
    rwa [closures, List.drop_left] at h
  refine ⟨w.writeAnswer 2 (.done []), added, runs, congrArg Lif.state lif, ?_, congrArg Lif.failed lif,
    congrArg Lif.listenEnd lif, ?_, idle, sec, ms, cycle, ?_, fun q hq => ?_, fun apart => ?_, spared, closures, sorted,
    gone, flag, none, fun n r live orphan => ?_, fun n r live known => ?_, fun bare idle q p at_ => ?_, rfl,
    frame .elapsed (by decide), frame⟩
  · have on : s.powered = true := taken.1
    have power : w.powered = s.powered := frame .powered (by decide)
    show (w.powered && (w.lif.state == .joining || w.lif.state == .onLine)) = true
    rw [power, on, lif]
    rfl
  · refine (congrArg Lif.tx lif).trans ?_
    show [TxFrame.mk s.lif.serial (joinFrame s.straps.station s.settings.baseShare s.startKind.joinKind)] = _
    cases s.startKind <;> rfl
  · refine polls.trans ?_
    show s.configuredPosts ≠ [] ↔ _
    constructor
    · intro some
      obtain ⟨n, l, e⟩ := List.exists_cons_of_ne_nil some
      exact ⟨n, by rw [e]; exact List.mem_cons_self .., trivial⟩
    · rintro ⟨n, hn, -⟩ bare
      rw [bare] at hn
      cases hn
  · obtain ⟨post, off, toPoll, sent, -⟩ := opened q hq
    exact ⟨post, off, toPoll, sent⟩
  · obtain ⟨places, firings⟩ := schedule apart
    refine ⟨places.trans (List.map_congr_left fun e _ => begun_eq e _ _), firings⟩
  · obtain ⟨outcome, orphaned, -⟩ := metAt live
    obtain ⟨marked, lapsed⟩ := orphaned orphan
    have met : (s.takeFrame 2).met r = { r with closureDue := some .orphan, holds := [] } := if_pos orphan
    rw [met] at outcome
    refine ⟨marked, lapsed, ?_⟩
    rcases outcome with ⟨-, out, c, made, of⟩ | ⟨there, full⟩
    · exact .inl ⟨out, c, new made, of⟩
    · exact .inr ⟨(full (.inl orphan)).1, there⟩
  · intro fitted kept met ends
    obtain ⟨outcome, -, lapsed⟩ := metAt live
    have berth : s.berth? r.berth ≠ Option.none := fun none => by
      rw [none] at known
      cases known
    have fits : fitProfile r.profile ((s.berthPoint r.berth).bind s.point?) = fitted := by
      show _ = (match (s.berthPoint r.berth).bind s.point? with | Option.none => _ | some p => _)
      cases (s.berthPoint r.berth).bind s.point? with
      | none => rfl
      | some p => cases r.profile <;> rfl
    have metIs : (s.takeFrame 2).met r = met := by
      refine (if_neg berth).trans ?_
      show { r with profile := _, holds := _ } = { r with profile := fitted, holds := kept }
      rw [← fits]
      rfl
    have due : met.closureDue = r.closureDue := rfl
    have endsIff : (s.takeFrame 2).metEnds r ↔ ends := by
      unfold State.metEnds
      rw [metIs, closureWaits_iff]
      exact or_iff_right berth
    rw [metIs, endsIff, due] at outcome
    refine ⟨lapsed known, fun no => ?_, fun yes => ?_⟩
    · rcases outcome with ⟨yes, -⟩ | ⟨there, -⟩
      · exact absurd yes no
      · exact there
    · rcases outcome with ⟨-, out, c, made, of⟩ | ⟨there, full⟩
      · exact .inl ⟨out, c, new made, of⟩
      · exact .inr ⟨(full yes).1, there, (full yes).2 known⟩
  · intro here
    obtain ⟨nothing, something⟩ := pointAt bare idle at_
    have found : (w.writeAnswer 2 (.done [])).point? q = (s.takeFrame 2).linked.point? q :=
      congrArg (lookupKey Point.number q) points
    have link (n : Nat) : (w.writeAnswer 2 (.done [])).link? n = (s.takeFrame 2).linked.link? n :=
      congrArg (lookupKey Link.occ n) links
    refine ⟨fun e => found.trans (nothing e), fun r rest list => ?_⟩
    obtain ⟨x, atq, charging, fresh, arrivals, waits, retained, final, marks, outlet⟩ := something r rest list
    refine ⟨x, found.trans atq, charging, (link _).trans fresh, arrivals, fun y hy along => ?_, retained, final,
      fun m hm => ⟨(marks m hm).1, fun o ho => ?_⟩, outlet⟩
    · show y.number ∈ w.spc.heldBack
      rw [held]
      exact waits y hy along
    · obtain ⟨-, -, -, -, later⟩ := opened o ho
      exact Nat.lt_of_le_of_lt (marks m hm).2 later

end Sys2Proof.Machine
end

section
/-! PROOFS. PWB's shed pass and restore pass (R54, R55). -/

namespace Sys2Proof.Machine

set_option Elab.async false

/-! ### A list kept by energising time -/

/-- An entry goes in behind those of its time and before, and ahead of the next later one. -/
theorem insertMoment_split (e : OutletLoad) (l : List OutletLoad) : ∃ before after, l = before ++ after ∧
    insertMoment e l = before ++ e :: after ∧ (∀ x ∈ before, x.moment ≤ e.moment) ∧
    (∀ x rest, after = x :: rest → e.moment < x.moment) := by
  induction l with
  | nil => exact ⟨[], [], rfl, rfl, by simp, by simp⟩
  | cons y r ih =>
    unfold insertMoment
    by_cases first : e.moment < y.moment
    · rw [if_pos first]
      refine ⟨[], y :: r, rfl, rfl, by simp, fun x rest list => ?_⟩
      obtain ⟨rfl, -⟩ := List.cons.inj list
      exact first
    · rw [if_neg first]
      obtain ⟨before, after, split, put, early, late⟩ := ih
      refine ⟨y :: before, after, by rw [split]; rfl, by rw [put]; rfl, fun x hx => ?_, late⟩
      rcases List.mem_cons.mp hx with rfl | hx
      · exact Nat.not_lt.mp first
      · exact early x hx

section
variable {s t : State} {e : OutletLoad} {l : List OutletLoad}

/-! ### The shed pass (R54) -/

/-- One turn of the shed pass. -/
def State.shedTurn (s : State) (e : OutletLoad) : State := if s.ceiling < s.load then s.shedOutlet e else s

theorem shedPass_eq (s : State) : s.shedPass = s.shedOrder.foldl State.shedTurn s := rfl

theorem shedOutlet_pwb (e : OutletLoad) (s : State) : (s.shedOutlet e).pwb = { s.pwb with
    energised := eraseKey OutletLoad.point e.point s.pwb.energised
    shed := insertMoment e (eraseKey OutletLoad.point e.point s.pwb.shed)
    demands := s.pwb.demands.filter fun d => d.kind == .pump || d.source != e.point } := by
  unfold State.shedOutlet
  dsimp only
  rw [(within_setFlag _ _).pwb, (within_raiseOutcome _ _ _).pwb, (within_setOutlet _ _ _).pwb]
  rfl

theorem shedOutlet_ceiling (e : OutletLoad) (s : State) :
    (s.shedOutlet e).ceiling = s.ceiling ∧ (s.shedOutlet e).pumpLoads = s.pumpLoads := by
  have within := within_shedOutlet s e
  refine ⟨ceiling_congr (within.frame .settings (by decide)) (by rw [shedOutlet_pwb]), ?_⟩
  simp [State.pumpLoads, within.fdc]

theorem shedTurn_ceiling (s : State) (e : OutletLoad) :
    (s.shedTurn e).ceiling = s.ceiling ∧ (s.shedTurn e).pumpLoads = s.pumpLoads := by
  unfold State.shedTurn
  split
  · exact shedOutlet_ceiling e s
  · exact ⟨rfl, rfl⟩

theorem foldl_shedTurn_ceiling (l : List OutletLoad) (s : State) :
    (l.foldl State.shedTurn s).ceiling = s.ceiling ∧ (l.foldl State.shedTurn s).pumpLoads = s.pumpLoads := by
  induction l generalizing s with
  | nil => exact ⟨rfl, rfl⟩
  | cons e l ih =>
    obtain ⟨c, p⟩ := shedTurn_ceiling s e
    obtain ⟨c', p'⟩ := ih (s.shedTurn e)
    exact ⟨c'.trans c, p'.trans p⟩

theorem shedTurn_over (fits : (s.load : Int) ≤ s.ceiling) (l : List OutletLoad) : l.foldl State.shedTurn s = s := by
  induction l with
  | nil => rfl
  | cons e l ih =>
    rw [List.foldl_cons, State.shedTurn, if_neg (Int.not_lt.mpr fits)]
    exact ih

theorem foldl_shedTurn_clears (l : List OutletLoad) : ∀ s : State,
    ((l.foldl State.shedTurn s).load : Int) ≤ s.ceiling ∨
    ∀ x ∈ (l.foldl State.shedTurn s).pwb.energised, x ∈ s.pwb.energised ∧ x.point ∉ l.map OutletLoad.point := by
  induction l with
  | nil => exact fun s => .inr fun x hx => ⟨hx, by simp⟩
  | cons e l ih =>
    intro s
    by_cases short : s.ceiling < s.load
    · have turn : s.shedTurn e = s.shedOutlet e := if_pos short
      rw [List.foldl_cons, turn]
      rcases ih (s.shedOutlet e) with fits | clear
      · exact .inl (by rw [← (shedOutlet_ceiling e s).1]; exact fits)
      · refine .inr fun x hx => ?_
        obtain ⟨there, others⟩ := clear x hx
        rw [shedOutlet_pwb] at there
        obtain ⟨old, other⟩ := List.mem_filter.mp there
        refine ⟨old, ?_⟩
        rw [List.map_cons, List.mem_cons]
        rintro (same | later)
        · simp [same] at other
        · exact others later
    · rw [shedTurn_over (Int.not_lt.mp short)]
      exact .inl (Int.not_lt.mp short)

theorem shedClass_small (s : State) (n : Nat) : s.shedClass n = 0 ∨ s.shedClass n = 1 ∨ s.shedClass n = 2 := by
  unfold State.shedClass
  split
  · split
    · exact .inl rfl
    · split
      · exact .inr (.inl rfl)
      · exact .inr (.inr rfl)
  · exact .inr (.inr rfl)

theorem mem_shedOrder (s : State) (e : OutletLoad) : e ∈ s.shedOrder ↔ e ∈ s.pwb.energised := by
  unfold State.shedOrder
  simp only [List.mem_append, List.mem_filter, List.mem_reverse, beq_iff_eq]
  have := shedClass_small s e.point
  tauto

/-- The shed pass ends with G no greater than C, or with no outlet energised. -/
theorem shedPass_fits (s : State) : (s.shedPass.load : Int) ≤ s.ceiling ∨ s.shedPass.pwb.energised = [] := by
  rw [shedPass_eq]
  refine (foldl_shedTurn_clears s.shedOrder s).imp id fun clear => ?_
  refine List.eq_nil_iff_forall_not_mem.mpr fun x hx => ?_
  obtain ⟨old, out⟩ := clear x hx
  exact out (List.mem_map.mpr ⟨x, (mem_shedOrder s x).mpr old, rfl⟩)

/-- The turns that shed an outlet are the first ones. -/
theorem foldl_shedTurn_prefix (l : List OutletLoad) : ∀ s : State, ∃ taken left, l = taken ++ left ∧
    l.foldl State.shedTurn s = taken.foldl (fun s e => s.shedOutlet e) s ∧
    (∀ before e after, taken = before ++ e :: after →
      (before.foldl (fun s e => s.shedOutlet e) s).ceiling < (before.foldl (fun s e => s.shedOutlet e) s).load) ∧
    (left = [] ∨ ((taken.foldl (fun s e => s.shedOutlet e) s).load : Int) ≤
      (taken.foldl (fun s e => s.shedOutlet e) s).ceiling) := by
  induction l with
  | nil => exact fun s => ⟨[], [], rfl, rfl, by simp, .inl rfl⟩
  | cons e l ih =>
    intro s
    by_cases short : s.ceiling < s.load
    · have turn : s.shedTurn e = s.shedOutlet e := if_pos short
      obtain ⟨taken, left, split, runs, while_, ends⟩ := ih (s.shedOutlet e)
      refine ⟨e :: taken, left, by rw [split]; rfl, by rw [List.foldl_cons, turn, runs]; rfl,
        fun before x after list => ?_, ends⟩
      cases before with
      | nil => exact short
      | cons y before =>
        obtain ⟨rfl, rest⟩ := List.cons.inj list
        exact while_ before x after rest
    · exact ⟨[], e :: l, rfl, shedTurn_over (Int.not_lt.mp short) _, by simp, .inr (Int.not_lt.mp short)⟩

theorem shedOutlet_point?_ne {q : Nat} (other : e.point ≠ q) (s : State) : (s.shedOutlet e).point? q = s.point? q := by
  unfold State.shedOutlet
  dsimp only
  rw [setFlag_point?, raiseOutcome_point? _ other, setOutlet_point? _ other]
  rfl

theorem shedOutlet_point? {p : Point} (at_ : s.point? e.point = some p) :
    (s.shedOutlet e).point? e.point = some { p with
      outlet := .shed
      raisePending := none
      raiseLast := if p.raisePending.isSome = true then .budget else p.raiseLast } := by
  unfold State.shedOutlet
  dsimp only
  generalize eu : ({ (s.dropOutlet e.point).dropDemands e.point with
    pwb := { ((s.dropOutlet e.point).dropDemands e.point).pwb with
      shed := insertMoment e ((s.dropOutlet e.point).dropDemands e.point).pwb.shed } } : State) = u
  have at_u : u.point? e.point = some p := by rw [← eu]; exact at_
  have out : (u.setOutlet e.point .shed).point? e.point = some { p with outlet := .shed } :=
    modPoint_point?_self u (f := fun p => { p with outlet := .shed }) at_u fun _ => rfl
  rw [setFlag_point?]
  unfold State.raiseOutcome
  rw [out, Option.bind_some]
  cases raise : p.raisePending with
  | none => simp [raise, out]
  | some y =>
    simp only [setFlag_point?, Option.isSome_some, if_true]
    exact modPoint_point?_self _ (f := fun p => { p with raisePending := none, raiseLast := .budget }) out fun _ => rfl

theorem eraseKey_sum {l : List OutletLoad} (apart : (l.map OutletLoad.point).Nodup) (there : e ∈ l) :
    ((eraseKey OutletLoad.point e.point l).map OutletLoad.figure).sum + e.figure = (l.map OutletLoad.figure).sum := by
  induction l with
  | nil => cases there
  | cons x l ih =>
    rw [List.map_cons, List.nodup_cons] at apart
    obtain ⟨fresh, rest⟩ := apart
    unfold eraseKey at ih ⊢
    rcases List.mem_cons.mp there with rfl | later
    · have clean : l.filter (fun y => y.point != e.point) = l := List.filter_eq_self.mpr fun y hy => by
        simpa using fun same : y.point = e.point => fresh (same ▸ List.mem_map_of_mem hy)
      simp [clean, Nat.add_comm]
    · have other : (x.point != e.point) = true := by
        simpa using fun same : x.point = e.point => fresh (same ▸ List.mem_map_of_mem later)
      have := ih rest later
      simp only [List.filter_cons, other, if_true, List.map_cons, List.sum_cons]
      omega

theorem eraseKey_absent {n : Nat} (absent : ∀ x ∈ l, x.point ≠ n) : eraseKey OutletLoad.point n l = l :=
  List.filter_eq_self.mpr fun x hx => by simpa using absent x hx

/-- What shedding some of the energised outlets leaves (R54, R98). -/
structure Shedded (taken : List OutletLoad) (s t : State) : Prop where
  pwb     : t.pwb = { s.pwb with
    energised := s.pwb.energised.filter fun e => !(taken.map OutletLoad.point).contains e.point
    shed := taken.foldl (fun l e => insertMoment e l) s.pwb.shed
    demands := s.pwb.demands.filter fun d => d.kind == .pump || !(taken.map OutletLoad.point).contains d.source }
  ceiling : t.ceiling = s.ceiling
  load    : t.load + (taken.map OutletLoad.figure).sum = s.load
  at_     : ∀ e ∈ taken, ∀ p, s.point? e.point = some p → t.point? e.point = some { p with
    outlet := .shed
    raisePending := none
    raiseLast := if p.raisePending.isSome = true then .budget else p.raiseLast }
  rest    : ∀ m, m ∉ taken.map OutletLoad.point → t.point? m = s.point? m
  flag    : taken ≠ [] → t.hasFlag .outletShed = true

theorem mem_foldl_insertMoment {x : OutletLoad} (taken : List OutletLoad) : ∀ l : List OutletLoad,
    x ∈ taken.foldl (fun l e => insertMoment e l) l → x ∈ taken ∨ x ∈ l := by
  induction taken with
  | nil => exact fun l h => .inr h
  | cons e taken ih =>
    intro l h
    rcases ih _ h with h | h
    · exact .inl (List.mem_cons_of_mem _ h)
    · rcases mem_insertMoment.mp h with rfl | h
      · exact .inl (List.mem_cons_self ..)
      · exact .inr h

/-- The outlets of a list are shed one after the other, each still energised at its turn. -/
theorem foldl_shedOutlet (taken : List OutletLoad) : ∀ s : State,
    (s.pwb.energised.map OutletLoad.point).Nodup → (taken.map OutletLoad.point).Nodup →
    (∀ e ∈ taken, e ∈ s.pwb.energised) → (∀ e ∈ taken, ∀ x ∈ s.pwb.shed, x.point ≠ e.point) →
    Shedded taken s (taken.foldl (fun s e => s.shedOutlet e) s) := by
  induction taken with
  | nil => exact fun s _ _ _ _ => ⟨by simp, rfl, by simp, by simp, fun _ _ => rfl, fun h => absurd rfl h⟩
  | cons e taken ih =>
    intro s apart once among fresh
    rw [List.map_cons, List.nodup_cons] at once
    obtain ⟨first, once⟩ := once
    have pwb := shedOutlet_pwb e s
    have clean := eraseKey_absent (n := e.point) (fresh e (List.mem_cons_self ..))
    rw [clean] at pwb
    obtain ⟨ceiling, loads⟩ := shedOutlet_ceiling e s
    have distinct {x : OutletLoad} (hx : x ∈ taken) : x.point ≠ e.point := fun same =>
      first (same ▸ List.mem_map_of_mem hx)
    have next := ih (s.shedOutlet e)
      (by rw [pwb]; exact apart.sublist (List.filter_sublist.map _)) once
      (fun x hx => by
        rw [pwb]
        exact List.mem_filter.mpr ⟨among x (List.mem_cons_of_mem _ hx), by simpa using distinct hx⟩)
      (fun x hx y hy => by
        rw [pwb] at hy
        rcases mem_insertMoment.mp hy with rfl | hy
        · exact (distinct hx).symm
        · exact fresh x (List.mem_cons_of_mem _ hx) y hy)
    have load : (s.shedOutlet e).load + e.figure = s.load := by
      have sum := eraseKey_sum apart (among e (List.mem_cons_self ..))
      simp only [State.load, loads, pwb]
      omega
    refine ⟨?_, next.ceiling.trans ceiling, ?_, fun x hx p at_ => ?_, fun m out => ?_, fun _ => ?_⟩
    · rw [List.foldl_cons, next.pwb, pwb]
      simp only [eraseKey, List.filter_filter, List.map_cons, List.foldl_cons]
      congr 1
      · refine List.filter_congr fun d _ => ?_
        cases d.kind == DemandKind.pump <;> simp [bne, beq_eq_decide, Bool.and_comm]
      · refine List.filter_congr fun x _ => ?_
        simp [bne, beq_eq_decide, Bool.and_comm]
    · have := next.load
      rw [List.foldl_cons, List.map_cons, List.sum_cons]
      omega
    · rcases List.mem_cons.mp hx with rfl | hx
      · exact (next.rest _ first).trans (shedOutlet_point? at_)
      · exact next.at_ x hx p ((shedOutlet_point?_ne (distinct hx).symm s).trans at_)
    · rw [List.map_cons, List.mem_cons, not_or] at out
      exact (next.rest m out.2).trans (shedOutlet_point?_ne (Ne.symm out.1) s)
    · rw [List.foldl_cons]
      have flag : (s.shedOutlet e).hasFlag .outletShed = true := by
        unfold State.shedOutlet
        exact hasFlag_setFlag _ _
      exact (Within.foldl (ps := [.pwb, .spc]) _ (fun s e => within_shedOutlet s e) taken _).hasFlag flag

end

end Sys2Proof.Machine
end

section
/-! PROOFS. The passes as a whole: which outlets the shed pass takes (R54), and which the restore pass brings back
(R55). -/

namespace Sys2Proof.Machine

set_option Elab.async false

section
variable {s t : State} {e : OutletLoad}

theorem shedOrder_nodup (apart : (s.pwb.energised.map OutletLoad.point).Nodup) :
    (s.shedOrder.map OutletLoad.point).Nodup := by
  have newest : (s.pwb.energised.reverse.map OutletLoad.point).Nodup := by
    rw [List.map_reverse]
    exact List.nodup_reverse.mpr apart
  have part (k : Nat) :
      ((s.pwb.energised.reverse.filter fun e => s.shedClass e.point == k).map OutletLoad.point).Nodup :=
    newest.sublist (List.filter_sublist.map _)
  have class_ {k n : Nat}
      (h : n ∈ (s.pwb.energised.reverse.filter fun e => s.shedClass e.point == k).map OutletLoad.point) :
      s.shedClass n = k := by
    obtain ⟨x, hx, rfl⟩ := List.mem_map.mp h
    simpa using (List.mem_filter.mp hx).2
  unfold State.shedOrder
  dsimp only
  rw [List.map_append, List.map_append]
  refine (List.Nodup.append (part 0) (part 1) fun n h0 h1 => ?_).append (part 2) fun n h01 h2 => ?_
  · exact absurd ((class_ h0).symm.trans (class_ h1)) (by decide)
  · rcases List.mem_append.mp h01 with h | h
    · exact absurd ((class_ h).symm.trans (class_ h2)) (by decide)
    · exact absurd ((class_ h).symm.trans (class_ h2)) (by decide)

/-- The outlets the shed pass takes are the first of its order, until G is no greater than C (R54). -/
theorem shedPass_takes (apart : (s.pwb.energised.map OutletLoad.point).Nodup)
    (fresh : ∀ e ∈ s.pwb.energised, ∀ x ∈ s.pwb.shed, x.point ≠ e.point) :
    ∃ taken left : List OutletLoad, s.shedOrder = taken ++ left ∧
      (∀ before e after, taken = before ++ e :: after →
        s.ceiling < s.load - ((before.map OutletLoad.figure).sum : Int)) ∧
      (left = [] ∨ s.load - ((taken.map OutletLoad.figure).sum : Int) ≤ s.ceiling) ∧
      (taken = [] → s.shedPass = s) ∧ Shedded taken s s.shedPass := by
  obtain ⟨taken, left, order, runs, while_, ends⟩ := foldl_shedTurn_prefix s.shedOrder s
  have once := shedOrder_nodup apart
  have among (e : OutletLoad) (he : e ∈ taken) : e ∈ s.pwb.energised :=
    (mem_shedOrder s e).mp (order ▸ List.mem_append_left _ he)
  rw [order, List.map_append] at once
  have sheds {before after : List OutletLoad} (split : taken = before ++ after) :
      Shedded before s (before.foldl (fun s e => s.shedOutlet e) s) := by
    have part : before.Sublist taken := split ▸ List.sublist_append_left _ _
    exact foldl_shedOutlet before s apart (once.of_append_left.sublist (part.map _))
      (fun e he => among e (part.subset he)) fun e he => fresh e (among e (part.subset he))
  have all := sheds (List.append_nil taken).symm
  refine ⟨taken, left, order, fun before e after split => ?_, ends.imp id fun fits => ?_, fun none => ?_, ?_⟩
  · have some := while_ before e after split
    have now := sheds split
    rw [now.ceiling] at some
    have := now.load
    omega
  · rw [all.ceiling] at fits
    have := all.load
    omega
  · rw [shedPass_eq, runs, none]
    rfl
  · rw [shedPass_eq, runs]
    exact all

/-! ### The restore pass (R55) -/

theorem energise_eq (s : State) (n figure : Nat) : s.energise n figure = { s.modPoint n (fun p => { p with
      outlet := .on
      interval := max p.interval figure }) with
    moments := s.moments + 1
    pwb := { s.pwb with energised := s.pwb.energised ++ [⟨n, figure, s.moments + 1⟩] } } := rfl

/-- The front of the shed list brought back. -/
def State.restored (s : State) (e : OutletLoad) (rest : List OutletLoad) : State :=
  ({ s with pwb := { s.pwb with shed := rest } } : State).energise e.point e.figure

theorem restored_pwb (s : State) (e : OutletLoad) (rest : List OutletLoad) : (s.restored e rest).pwb = { s.pwb with
    energised := s.pwb.energised ++ [⟨e.point, e.figure, s.moments + 1⟩]
    shed := rest } := rfl

theorem restored_load (s : State) (e : OutletLoad) (rest : List OutletLoad) :
    (s.restored e rest).load = s.load + e.figure ∧ (s.restored e rest).ceiling = s.ceiling ∧
    (s.restored e rest).moments = s.moments + 1 := by
  refine ⟨?_, rfl, rfl⟩
  have loads : (s.restored e rest).pumpLoads = s.pumpLoads := rfl
  unfold State.load
  rw [loads, restored_pwb]
  simp only [List.map_append, List.map_cons, List.map_nil, List.sum_append, List.sum_cons, List.sum_nil]
  omega

theorem restored_point? {q : Nat} (other : q ≠ e.point) (rest : List OutletLoad) :
    (s.restored e rest).point? q = s.point? q := energise_point? _ other.symm _

theorem restored_point?_self {p : Point} (at_ : s.point? e.point = some p) (rest : List OutletLoad) :
    (s.restored e rest).point? e.point = some { p with outlet := .on, interval := max p.interval e.figure } :=
  modPoint_point?_self ({ s with pwb := { s.pwb with shed := rest } } : State).stamp
    (f := fun p => { p with outlet := .on, interval := max p.interval e.figure }) at_ fun _ => rfl

theorem restoreLoop_nil {k : Nat} (none : s.pwb.shed = []) : s.restoreLoop k = s := by
  cases k with
  | zero => rfl
  | succ k =>
    unfold State.restoreLoop
    simp only [none]

theorem restoreLoop_fits {k : Nat} {rest : List OutletLoad} (list : s.pwb.shed = e :: rest)
    (fits : (e.figure : Int) ≤ s.spare) : s.restoreLoop (k + 1) = (s.restored e rest).restoreLoop k := by
  rw [State.restoreLoop]
  simp only [list, fits, if_true]
  rfl

theorem restoreLoop_stops {k : Nat} {rest : List OutletLoad} (list : s.pwb.shed = e :: rest)
    (full : ¬ (e.figure : Int) ≤ s.spare) : s.restoreLoop k = s := by
  cases k with
  | zero => rfl
  | succ k =>
    rw [State.restoreLoop]
    simp only [list, full, if_false]

/-- What bringing some of the shed outlets back leaves (R55). -/
structure Restored (taken left : List OutletLoad) (s t : State) : Prop where
  while_ : ∀ before e after, taken = before ++ e :: after →
    (s.load : Int) + (before.map OutletLoad.figure).sum + e.figure ≤ s.ceiling
  ends   : ∀ e after, left = e :: after → s.ceiling < (s.load : Int) + (taken.map OutletLoad.figure).sum + e.figure
  pwb    : t.pwb = { s.pwb with
    energised := s.pwb.energised ++ taken.mapIdx fun i e => { e with moment := s.moments + 1 + i }
    shed := left }
  load   : t.load = s.load + (taken.map OutletLoad.figure).sum
  rest   : ∀ m, m ∉ taken.map OutletLoad.point → t.point? m = s.point? m
  at_    : (taken.map OutletLoad.point).Nodup → ∀ e ∈ taken, ∀ p, s.point? e.point = some p →
    t.point? e.point = some { p with outlet := .on, interval := max p.interval e.figure }

theorem restoreLoop_restored (k : Nat) : ∀ s : State, s.pwb.shed.length ≤ k →
    ∃ taken left, s.pwb.shed = taken ++ left ∧ Restored taken left s (s.restoreLoop k) := by
  have stays (s : State) (left : List OutletLoad) (list : s.pwb.shed = left)
      (ends : ∀ e after, left = e :: after → s.ceiling < (s.load : Int) + e.figure) : Restored [] left s s := by
    refine ⟨by simp, fun e after split => by simpa using ends e after split, ?_, by simp, fun _ _ => rfl, by simp⟩
    rw [← list]
    simp
  induction k with
  | zero =>
    intro s short
    have none : s.pwb.shed = [] := List.length_eq_zero_iff.mp (Nat.le_zero.mp short)
    exact ⟨[], [], none, stays s [] none (by simp)⟩
  | succ k ih =>
    intro s short
    cases list : s.pwb.shed with
    | nil =>
      rw [restoreLoop_nil list]
      exact ⟨[], [], rfl, stays s [] list (by simp)⟩
    | cons e rest =>
      by_cases fits : (e.figure : Int) ≤ s.spare
      · obtain ⟨load, ceiling, moments⟩ := restored_load s e rest
        obtain ⟨taken, left, split, later⟩ := ih (s.restored e rest) (by
          rw [list, List.length_cons] at short
          exact Nat.le_of_succ_le_succ short)
        have room : (s.load : Int) + e.figure ≤ s.ceiling := by
          unfold State.spare at fits
          omega
        have split' : rest = taken ++ left := split
        obtain ⟨while_, ends, pwb, sum, others, back⟩ := later
        rw [restoreLoop_fits list fits]
        rw [load, ceiling] at while_ ends
        rw [load] at sum
        rw [moments] at pwb
        refine ⟨e :: taken, left, by rw [split']; rfl, fun before x after h => ?_, fun x after h => ?_, ?_, ?_,
          fun m out => ?_, fun once x hx p at_ => ?_⟩
        · cases before with
          | nil =>
            obtain ⟨rfl, -⟩ := List.cons.inj h
            simpa using room
          | cons y before =>
            obtain ⟨rfl, more⟩ := List.cons.inj h
            have := while_ before x after more
            simp only [List.map_cons, List.sum_cons]
            omega
        · have := ends x after h
          simp only [List.map_cons, List.sum_cons]
          omega
        · rw [pwb, restored_pwb, List.mapIdx_cons]
          simp only [List.append_assoc, List.singleton_append, Nat.add_zero]
          congr 4
          funext i x
          rw [Nat.add_assoc (s.moments + 1), Nat.add_comm 1 i]
        · rw [sum, List.map_cons, List.sum_cons]
          omega
        · rw [List.map_cons, List.mem_cons, not_or] at out
          exact (others m out.2).trans (restored_point? out.1 rest)
        · rw [List.map_cons, List.nodup_cons] at once
          rcases List.mem_cons.mp hx with rfl | hx
          · exact (others _ once.1).trans (restored_point?_self at_ rest)
          · have other : x.point ≠ e.point := fun same => once.1 (same ▸ List.mem_map_of_mem hx)
            exact back once.2 x hx p ((restored_point? other rest).trans at_)
      · rw [restoreLoop_stops list fits]
        refine ⟨[], e :: rest, rfl, stays s (e :: rest) list fun x after h => ?_⟩
        obtain ⟨rfl, -⟩ := List.cons.inj h
        unfold State.spare at fits
        omega

theorem restorePass_restored (s : State) : ∃ taken left, s.pwb.shed = taken ++ left ∧
    Restored taken left s s.restorePass := restoreLoop_restored _ s (Nat.le_refl _)

theorem Restored.ceiling {taken left : List OutletLoad} (_h : Restored taken left s s.restorePass) :
    s.restorePass.ceiling = s.ceiling :=
  ceiling_congr ((within_restorePass s).frame .settings (by decide)) (by rw [_h.pwb])

/-- The restore pass keeps G no greater than C (R55). -/
theorem restorePass_fits (fits : (s.load : Int) ≤ s.ceiling) : (s.restorePass.load : Int) ≤ s.restorePass.ceiling := by
  obtain ⟨taken, left, split, h⟩ := restorePass_restored s
  rw [h.ceiling, h.load]
  rcases List.eq_nil_or_concat taken with rfl | ⟨before, e, rfl⟩
  · simpa using fits
  · have := h.while_ before e [] (by simp)
    simp only [List.concat_eq_append, List.map_append, List.map_cons, List.map_nil, List.sum_append, List.sum_cons,
      List.sum_nil]
    omega

theorem restorePass_demands (s : State) : s.restorePass.pwb.demands = s.pwb.demands := by
  obtain ⟨taken, left, split, h⟩ := restorePass_restored s
  rw [h.pwb]

/-- The front of the shed list does not fit once the restore pass has run (R55). -/
theorem restorePass_full {rest : List OutletLoad} (list : s.restorePass.pwb.shed = e :: rest) :
    s.restorePass.spare < e.figure := by
  obtain ⟨taken, left, split, h⟩ := restorePass_restored s
  rw [h.pwb] at list
  have := h.ends e rest list
  unfold State.spare
  rw [h.ceiling, h.load]
  omega

/-! ### What PWB goes on to do (R55, R57) -/

theorem examineLoop_nil {k : Nat} (none : s.pwb.demands = []) : s.examineLoop k = s := by
  cases k with
  | zero => rfl
  | succ k =>
    unfold State.examineLoop
    simp only [none]

theorem settle_nil (none : s.pwb.demands = []) : s.settle = s.restorePass := by
  unfold State.settle
  rw [examineLoop_nil none]
  dsimp only
  rw [none]
  rfl

theorem restorePass_nil (none : s.pwb.shed = []) : s.restorePass = s := restoreLoop_nil none

/-- With the queue empty after PWB has gone on, what is shed does not fit. -/
theorem settle_full {rest : List OutletLoad} (empty : s.settle.pwb.demands = [])
    (list : s.settle.pwb.shed = e :: rest) : s.settle.spare < e.figure := by
  rcases settle_cases s with ⟨-, runs⟩ | ⟨busy, runs⟩
  · rw [runs] at list ⊢
    exact restorePass_full list
  · rw [runs] at empty
    exact absurd empty busy

theorem settleSince_settle {before : State}
    (freed : before.pwb.demands ≠ [] ∨ before.ceiling < s.ceiling ∨ s.load < before.load) :
    s.settleSince before = s.settle := by
  have cond : (s.freedSince before || !before.pwb.demands.isEmpty) = true := by
    rw [Bool.or_eq_true, freedSince_iff]
    rcases freed with busy | freed
    · exact .inr (by simpa using busy)
    · exact .inl freed
  unfold State.settleSince State.settle
  simp only [cond, Bool.and_true]

theorem settleSince_same {before : State} (empty : before.pwb.demands = []) (none : s.pwb.demands = [])
    (ceiling : s.ceiling ≤ before.ceiling) (load : before.load ≤ s.load) : s.settleSince before = s := by
  have still : s.freedSince before = false := by
    refine Bool.eq_false_iff.mpr fun freed => ?_
    rcases (freedSince_iff s before).mp freed with h | h
    · omega
    · omega
  unfold State.settleSince
  dsimp only
  rw [still, empty, examineLoop_nil none]
  simp

theorem settleSince_idle (before : State) (none : s.pwb.demands = []) (bare : s.pwb.shed = []) :
    s.settleSince before = s ∧ s.settle = s := by
  have same : s.restorePass = s := restorePass_nil bare
  refine ⟨?_, (settle_nil none).trans same⟩
  unfold State.settleSince
  dsimp only
  rw [examineLoop_nil none, same]
  split <;> rfl

end

end Sys2Proof.Machine
end

section
/-! PROOFS. The head of PWB's queue (R57 to R60): served, failed, having loans recalled, or asking the line. -/

namespace Sys2Proof.Machine

set_option Elab.async false

section
variable {s t : State} {d : Demand} {rest : List Demand}

theorem popDemand_pwb (queue : s.pwb.demands = d :: rest) : s.popDemand.pwb = { s.pwb with demands := rest } := by
  unfold State.popDemand
  rw [queue]
  rfl

/-! ### The head served (R57) -/

/-- The energised outlets with the figure of one risen (R57, R98). -/
def State.raised (s : State) (d : Demand) : State := { s with pwb := { s.pwb with
  energised := modifyKey OutletLoad.point d.source (fun e => { e with figure := e.figure + d.need }) s.pwb.energised } }

theorem serveHead_energise (kind : d.kind = .energise) (s : State) :
    s.serveHead d = s.popDemand.energise d.source d.need := by
  unfold State.serveHead
  simp only [kind]

theorem serveHead_raise (kind : d.kind = .raise) (s : State) :
    s.serveHead d = (s.popDemand.raised d).raiseServed d.source := by
  unfold State.serveHead
  simp only [kind]
  rfl

theorem serveHead_pump (kind : d.kind = .pump) (s : State) :
    s.serveHead d = (s.popDemand.modSale d.source fun x => { x with load := .held }).tryAuthorise d.source := by
  unfold State.serveHead
  simp only [kind]

theorem setTap_raise (p : Point) (o : RaiseOutcome) (b : Bool) :
    ({ p.setTap b with raisePending := none, raiseLast := o } : Point) =
      Point.setTap { p with raisePending := none, raiseLast := o } b := by
  unfold Point.setTap
  split <;> rfl

theorem setTap_raisePending (p : Point) (b : Bool) : (p.setTap b).raisePending = p.raisePending := by
  unfold Point.setTap
  split <;> rfl

theorem raiseOutcome_some {n : Nat} {p : Point} {y : Profile} (at_ : s.point? n = some p) (raise : p.raisePending = some y)
    (o : RaiseOutcome) : s.raiseOutcome n o =
      (s.modPoint n fun p => { p with raisePending := none, raiseLast := o }).setFlag .profileDone := by
  unfold State.raiseOutcome
  rw [at_, Option.bind_some, raise]

theorem raiseOutcome_none {n : Nat} (none : (s.point? n).bind Point.raisePending = none) (o : RaiseOutcome) :
    s.raiseOutcome n o = s := by
  unfold State.raiseOutcome
  rw [none]

/-- A raise served writes the profile of the occupancy at its point, and the tap follows (R98). -/
theorem raiseServed_at {q n : Nat} {p : Point} {y : Profile} {r : Occupancy} (at_ : s.point? q = some p)
    (raise : p.raisePending = some y) (charging : p.charging = some n) (live : s.occ? n = some r) :
    (s.raiseServed q).occ? n = some { r with profile := some y } ∧
    (∀ m, m ≠ n → (s.raiseServed q).occ? m = s.occ? m) ∧
    (s.raiseServed q).point? q = some (Point.setTap { p with
      raisePending := none
      raiseLast := .applied
      interval := max p.interval y.figure }
      (p.tapFitted && decide (r.state = .alongside ∧ r.account.state ≠ .barred) && y.tapOpen)) ∧
    (s.raiseServed q).hasFlag .profileDone = true := by
  let u : State := (s.modOcc n fun r => { r with profile := some y }).modPoint q fun p => { p with
    interval := max p.interval y.figure }
  have runs : s.raiseServed q = (u.followTap q).raiseOutcome q .applied := by
    unfold State.raiseServed
    simp only [at_, raise, charging]
    rfl
  have there : u.occ? n = some { r with profile := some y } :=
    modOcc_self (f := fun r => { r with profile := some y }) live fun _ => rfl
  have here : u.point? q = some { p with interval := max p.interval y.figure } :=
    modPoint_point?_self (s.modOcc n fun r => { r with profile := some y })
      (f := fun p => { p with interval := max p.interval y.figure }) at_ fun _ => rfl
  have opens : u.tapMayOpen { p with interval := max p.interval y.figure } =
      (p.tapFitted && decide (r.state = .alongside ∧ r.account.state ≠ .barred) && y.tapOpen) := by
    unfold State.tapMayOpen
    simp only [charging, Option.bind_some, there]
    have standing (a : AccountState) : (a != .barred) = decide (a ≠ .barred) := by cases a <;> rfl
    simp only [standing, Bool.decide_and, beq_eq_decide, Bool.and_assoc]
  have tapped : (u.followTap q).point? q = some (Point.setTap { p with interval := max p.interval y.figure }
      (p.tapFitted && decide (r.state = .alongside ∧ r.account.state ≠ .barred) && y.tapOpen)) := by
    rw [← opens]
    exact modPoint_point?_self u (f := fun p => p.setTap (u.tapMayOpen p)) here fun p => Point.setTap_number p _
  have waiting : (Point.setTap { p with interval := max p.interval y.figure }
      (p.tapFitted && decide (r.state = .alongside ∧ r.account.state ≠ .barred) && y.tapOpen)).raisePending = some y :=
    (setTap_raisePending _ _).trans raise
  rw [runs, raiseOutcome_some tapped waiting]
  refine ⟨there, fun m other => modOcc_other (f := fun r => { r with profile := some y }) other fun _ => rfl, ?_,
    hasFlag_setFlag _ _⟩
  have done := modPoint_point?_self _ (f := fun p => { p with raisePending := none, raiseLast := .applied }) tapped
    fun _ => rfl
  rw [setTap_raise] at done
  exact done

/-- A pump's sale served, with its load held (R57, R109). -/
theorem tryAuthorise_at {n : Nat} {p : Pump} {x : Sale} {f : PumpConfig} (at_ : s.pump? n = some p)
    (sale : p.sale = some x) (config : p.config = some f) (held : x.load = .held) :
    (¬ (x.state = .authorising ∧ (x.card = none ∨ x.hold.isSome = true)) → s.tryAuthorise n = s) ∧
    (x.state = .authorising ∧ (x.card = none ∨ x.hold.isSome = true) → s.tryAuthorise n =
      (s.modPump n fun p => { p with
        sale := some { x with
          state := .authorised
          timer := some (s.elapsed + f.authTimeout * 1000000) }
        last := .authorised }).setFlag .authDone) := by
  have test : ((x.state = .authorising ∧ x.load = .held) ∧ (x.card.isNone || x.hold.isSome) = true) ↔
      (x.state = .authorising ∧ (x.card = none ∨ x.hold.isSome = true)) := by
    simp [held]
  have runs : s.tryAuthorise n = if (x.state = .authorising ∧ x.load = .held) ∧ (x.card.isNone || x.hold.isSome) = true then
      (s.modPump n fun p => { p with
        sale := some { x with
          state := .authorised
          timer := some (s.elapsed + f.authTimeout * 1000000) }
        last := .authorised }).setFlag .authDone else s := by
    unfold State.tryAuthorise
    simp only [at_, sale, config, Bool.and_eq_true, decide_eq_true_eq]
  rw [runs]
  exact ⟨fun no => if_neg fun h => no (test.mp h), fun yes => if_pos (test.mpr yes)⟩

theorem serveHead_served (queue : s.pwb.demands = d :: rest) : HeadServed d rest s (s.serveHead d) := by
  have popped := popDemand_pwb queue
  refine ⟨fun kind => ?_, fun kind => ?_, fun kind => ?_⟩
  · rw [serveHead_energise kind]
    have within : Within [.moments, .pwb, .spc] s (s.popDemand.energise d.source d.need) :=
      (within_popDemand s).andThen (within_energise _ _ _)
    refine ⟨?_, fun p at_ => ?_, fun m other => energise_point? _ other.symm _, within.quiet rfl⟩
    · rw [energise_eq, popped]
      rfl
    · exact modPoint_point?_self s.popDemand (f := fun p => { p with outlet := .on, interval := max p.interval d.need })
        at_ fun _ => rfl
  · rw [serveHead_raise kind]
    have within : Within [.occ, .pwb, .spc] s ((s.popDemand.raised d).raiseServed d.source) :=
      ((within_popDemand s).trans (within_pwb _ _)).andThen (within_raiseServed _ _)
    refine ⟨?_, fun p y n r at_ raise charging live => ?_, fun m other => raiseServed_point? _ other.symm, within.frame⟩
    · rw [(within_raiseServed _ _).pwb]
      unfold State.raised
      rw [popped]
      rfl
    · exact raiseServed_at (s := s.popDemand.raised d) at_ raise charging live
  · have journal := serveHead_journal (s := s) d
    rw [serveHead_pump kind] at journal ⊢
    have within : Within [.pwb, .fdc] s
        ((s.popDemand.modSale d.source fun x => { x with load := .held }).tryAuthorise d.source) :=
      ((within_popDemand s).andThen (within_modSale _ _ _) : Within [.pwb, .fdc] s _).andThen (within_tryAuthorise _ _)
    have pwb : ((s.popDemand.modSale d.source fun x => { x with load := .held }).tryAuthorise d.source).pwb =
        { s.pwb with demands := rest } := by
      rw [(within_tryAuthorise _ _).pwb, (within_modSale _ _ _).pwb, popped]
    have others (m : Nat) (other : m ≠ d.source) :
        ((s.popDemand.modSale d.source fun x => { x with load := .held }).tryAuthorise d.source).pump? m = s.pump? m :=
      (tryAuthorise_pump?_ne _ other).trans (modPump_pump?_ne _ other _)
    refine ⟨pwb, fun p x f at_ sale config => ?_, others, journal, within.frame⟩
    intro ready
    have held : (s.popDemand.modSale d.source fun x => { x with load := .held }).pump? d.source =
        some { p with sale := some { x with load := .held } } := by
      unfold State.modSale
      rw [modPump_pump?, if_pos rfl]
      have same : s.popDemand.pump? d.source = some p := at_
      rw [same, Option.map_some, sale, Option.map_some]
    obtain ⟨waits, goes⟩ := tryAuthorise_at held rfl config rfl
    have after : ∃ q, ((s.popDemand.modSale d.source fun x => { x with load := .held }).tryAuthorise d.source).pump?
        d.source = some q ∧ q.heldLoad = f.load := by
      by_cases go : ready
      · rw [goes go]
        refine ⟨_, (modPump_pump? _ _ _ _).trans (by rw [if_pos rfl, held]; rfl), ?_⟩
        simp [Pump.heldLoad, config]
      · rw [waits go]
        exact ⟨_, held, by simp [Pump.heldLoad, config]⟩
    refine ⟨fun queued => ?_, fun no => ?_, fun go => ?_⟩
    · obtain ⟨q, now, load⟩ := after
      have sum := pumpLoads_one at_ now others
      have none : p.heldLoad = 0 := by simp [Pump.heldLoad, sale, config, queued]
      have energised : ((s.popDemand.modSale d.source fun x => { x with load := .held }).tryAuthorise
          d.source).pwb.energised = s.pwb.energised := by rw [pwb]
      refine ⟨by omega, ?_⟩
      unfold State.load
      rw [energised]
      omega
    · rw [waits no]
      exact ⟨held, modPump_pnp _ _ _⟩
    · have elapsed : (s.popDemand.modSale d.source fun x => { x with load := .held }).elapsed = s.elapsed :=
        modPump_elapsed _ _ _
      rw [goes go, elapsed]
      refine ⟨hasFlag_setFlag _ _, (modPump_pump? _ _ _ _).trans ?_⟩
      rw [if_pos rfl, held]
      rfl

/-! ### The head failed (R60) -/

theorem failHead_energise (kind : d.kind = .energise) (c : FailCause) (short : Bool) (s : State) :
    s.failHead d c short = (s.popDemand.setFlagIf short .askShort).shedFailed d.source d.need := by
  unfold State.failHead
  simp only [kind]

theorem failHead_raise (kind : d.kind = .raise) (c : FailCause) (short : Bool) (s : State) :
    s.failHead d c short = (s.popDemand.setFlagIf short .askShort).raiseOutcome d.source .budget := by
  unfold State.failHead
  simp only [kind]

/-- The cause a pump's sale is refused with (R60, R106). -/
def FailCause.auth : FailCause → AuthCause
  | .budget => .budget
  | .noLine => .noLine

theorem failHead_pump (kind : d.kind = .pump) (c : FailCause) (short : Bool) (s : State) :
    s.failHead d c short = (s.popDemand.setFlagIf short .askShort).pumpFailed d.source c.auth := by
  unfold State.failHead
  simp only [kind]
  cases c <;> rfl

theorem setFlagIf_eq_pnp (s : State) (b : Bool) (f : Flag) : ∃ p, s.setFlagIf b f = { s with pnp := p } := by
  unfold State.setFlagIf
  split
  · exact ⟨_, rfl⟩
  · exact ⟨_, rfl⟩

theorem setFlagIf_hasFlag {b : Bool} (yes : b = true) (s : State) (f : Flag) : (s.setFlagIf b f).hasFlag f = true := by
  unfold State.setFlagIf
  rw [if_pos yes]
  exact hasFlag_setFlag _ _

theorem failHead_failed (c : FailCause) (short : Bool) (queue : s.pwb.demands = d :: rest) :
    HeadFailed d c short rest s (s.failHead d c short) := by
  have popped := popDemand_pwb queue
  have first : Within [.pwb] s (s.popDemand.setFlagIf short .askShort) :=
    (within_popDemand s).andThen (within_setFlagIf _ _ _)
  have flagged (yes : short = true) : (s.popDemand.setFlagIf short .askShort).hasFlag .askShort = true :=
    setFlagIf_hasFlag yes _ _
  obtain ⟨p, eu⟩ := setFlagIf_eq_pnp s.popDemand short .askShort
  rw [eu] at first flagged
  have pump := failHead_pump (d := d) (c := c) (short := short) (s := s)
  have energise := failHead_energise (d := d) (c := c) (short := short) (s := s)
  have raise := failHead_raise (d := d) (c := c) (short := short) (s := s)
  rw [eu] at pump energise raise
  have pwb : ({ s.popDemand with pnp := p } : State).pwb = { s.pwb with demands := rest } := popped
  generalize hu : ({ s.popDemand with pnp := p } : State) = u at first flagged pump energise raise pwb
  have moments : u.moments = s.moments := by rw [← hu]; rfl
  have points (m : Nat) : u.point? m = s.point? m := by rw [← hu]; rfl
  have lif : u.lif = s.lif := by rw [← hu]; rfl
  have straps : u.straps = s.straps := by rw [← hu]; rfl
  have pumps (m : Nat) : u.pump? m = s.pump? m := by rw [← hu]; rfl
  have journal : u.fdc.journal = s.fdc.journal := by rw [← hu]; rfl
  refine ⟨fun yes => ?_, fun kind => ?_, fun kind => ?_, fun kind => ?_⟩
  · cases kind : d.kind with
    | energise => rw [energise kind]; exact (within_shedFailed u _ _).hasFlag (flagged yes)
    | raise => rw [raise kind]; exact (within_raiseOutcome u _ _).hasFlag (flagged yes)
    | pump => rw [pump kind]; exact (within_pumpFailed u _ _).hasFlag (flagged yes)
  · rw [energise kind]
    have within : Within [.moments, .pwb, .spc] s (u.shedFailed d.source d.need) :=
      first.andThen (within_shedFailed u _ _)
    refine ⟨?_, fun p at_ => ?_, fun m other => (shedFailed_point? u other.symm _).trans (points m),
      hasFlag_setFlag _ _, within.frame.mono (by decide)⟩
    · show { u.pwb with shed := insertMoment ⟨d.source, d.need, u.moments + 1⟩ u.pwb.shed } = _
      rw [pwb, moments]
    · exact modPoint_point?_self u (f := fun p => { p with outlet := .shed }) ((points _).trans at_) fun _ => rfl
  · rw [raise kind]
    have within : Within [.pwb, .spc] s (u.raiseOutcome d.source .budget) := first.andThen (within_raiseOutcome u _ _)
    refine ⟨(within_raiseOutcome u _ _).pwb.trans pwb, fun p at_ waiting => ?_,
      fun m other => (raiseOutcome_point? u other.symm _).trans (points m), within.frame⟩
    obtain ⟨y, some⟩ := Option.isSome_iff_exists.mp waiting
    rw [raiseOutcome_some ((points _).trans at_) some]
    exact ⟨modPoint_point?_self u (f := fun p => { p with raisePending := none, raiseLast := .budget })
      ((points _).trans at_) fun _ => rfl, hasFlag_setFlag _ _⟩
  · rw [pump kind]
    have within : Within [.pwb, .fdc, .lif] s (u.pumpFailed d.source c.auth) := first.andThen (within_pumpFailed u _ _)
    refine ⟨(within_pumpFailed u _ _).pwb.trans pwb, fun p x at_ sale state => ?_,
      fun m other => (pumpFailed_pump?_ne u other _).trans (pumps m),
      (within.widen (qs := [.lif, .pwb, .fdc])).frame⟩
    have at_u : u.pump? d.source = some p := (pumps _).trans at_
    have sale_u : u.sale? d.source = some x := by simp [State.sale?, at_u, sale]
    have runs : u.pumpFailed d.source c.auth = u.endUnusedCore d.source c.auth .cancelled := by
      unfold State.pumpFailed
      simp only [sale_u, state, if_true]
    rw [runs]
    obtain ⟨now, -, -, -, journal', -, -, flag, quiet, settles, -⟩ :=
      endUnusedCore_gone at_u sale c.auth .cancelled _ rfl
    rw [if_pos state] at now flag
    rw [lif] at quiet settles
    rw [journal] at journal'
    refine ⟨?_, journal', flag, fun none => (quiet none).1, fun h some on room => ?_⟩
    · cases c <;> exact now
    · have := settles h some on room
      unfold State.me at this ⊢
      rwa [straps] at this

end

end Sys2Proof.Machine
end

section
/-! PROOFS. The head of PWB's queue that does not fit (R58, R59): loans recalled for it, and its ask. -/

namespace Sys2Proof.Machine

set_option Elab.async false

section
variable {s t : State} {d : Demand} {rest : List Demand} {l : Loan}

/-! ### Which loans are recalled (R58) -/

theorem mayRecall_eq (l : Loan) : mayRecall l = l.recallable := by
  unfold mayRecall Loan.recallable
  cases l.addition <;> rfl

/-- The newest loans are recalled, until their amounts reach the shortfall. -/
theorem recallChoice_split (outs : List Loan) : ∀ short : Nat, ∃ taken left, outs = taken ++ left ∧
    recallChoice short outs = taken.map Loan.partner ∧
    (∀ before l after, taken = before ++ l :: after → (before.map Loan.amount).sum < short) ∧
    (left = [] ∨ short ≤ (taken.map Loan.amount).sum) := by
  induction outs with
  | nil => exact fun short => ⟨[], [], rfl, rfl, by simp, .inl rfl⟩
  | cons l outs ih =>
    intro short
    by_cases enough : short = 0
    · exact ⟨[], l :: outs, rfl, by simp [recallChoice, enough], by simp, .inr (by simp [enough])⟩
    · obtain ⟨taken, left, split, choice, while_, ends⟩ := ih (short - l.amount)
      refine ⟨l :: taken, left, by rw [split]; rfl, by simp [recallChoice, enough, choice], fun before x after h => ?_,
        ends.imp id fun reached => ?_⟩
      · cases before with
        | nil => simpa using Nat.pos_of_ne_zero enough
        | cons y before =>
          obtain ⟨rfl, more⟩ := List.cons.inj h
          have := while_ before x after more
          simp only [List.map_cons, List.sum_cons]
          omega
      · simp only [List.map_cons, List.sum_cons]
        omega

/-- A loan recalled, with its deadline (R58). -/
def State.recalled (s : State) (l : Loan) : Loan :=
  { l with state := .recalled, deadline := some (s.elapsed + s.settings.recallPeriod * 1000000) }

/-- No two loans of a direction have one partner. -/
def PartnersApart (loans : List Loan) : Prop := loans.Pairwise fun a b => a.lent = b.lent → a.partner ≠ b.partner

theorem PartnersApart.unique {loans : List Loan} (apart : PartnersApart loans) {a b : Loan} (ha : a ∈ loans)
    (hb : b ∈ loans) (lent : a.lent = b.lent) (partner : a.partner = b.partner) : a = b := by
  by_contra differ
  have symmetric : Std.Symm fun a b : Loan => a.lent = b.lent → a.partner ≠ b.partner :=
    ⟨fun a b h e => (h e.symm).symm⟩
  exact List.Pairwise.forall apart ha hb differ lent partner

/-- Only the loan itself changes as it is recalled. -/
def State.withRecalled (s : State) (l : Loan) : State := { s with pwb := { s.pwb with
  loans := s.pwb.loans.map fun x => if x = l then s.recalled x else x } }

theorem recallOne_eq (apart : PartnersApart s.pwb.loans) (there : l ∈ s.pwb.loans) (may : l.recallable = true) :
    s.recallOne l.partner = (s.withRecalled l).queueFrame (loanRecallFrame s.me l.partner l.pledge l.amount) := by
  have lent : l.lent = true := by
    unfold Loan.recallable at may
    simp only [Bool.and_eq_true] at may
    exact may.1.1
  have found : s.pwb.loans.find? (fun x => x.recallable && x.partner == l.partner) = some l := by
    cases search : s.pwb.loans.find? (fun x => x.recallable && x.partner == l.partner) with
    | none =>
      have := List.find?_eq_none.mp search l there
      simp [may] at this
    | some x =>
      have test := List.find?_some search
      simp only [Bool.and_eq_true, beq_iff_eq] at test
      have lent' : x.lent = true := by
        have := test.1
        unfold Loan.recallable at this
        simp only [Bool.and_eq_true] at this
        exact this.1.1
      rw [apart.unique (List.mem_of_find?_eq_some search) there (lent'.trans lent.symm) test.2]
  have same : (s.pwb.loans.map fun x => if x.lent && x.partner == l.partner then
      { x with state := .recalled, deadline := some (s.elapsed + s.settings.recallPeriod * 1000000) } else x) =
      s.pwb.loans.map fun x => if x = l then s.recalled x else x := by
    refine List.map_congr_left fun x hx => ?_
    by_cases e : x = l
    · rw [if_pos e, if_pos (by simp [e, lent])]
      rfl
    · rw [if_neg e, if_neg]
      intro test
      simp only [Bool.and_eq_true, beq_iff_eq] at test
      exact e (apart.unique hx there (test.1.trans lent.symm) test.2)
  unfold State.recallOne
  rw [found]
  simp only [same]
  rfl

/-- What recalling some loans one after the other leaves (R58). -/
structure Recalled (taken : List Loan) (s t : State) : Prop where
  pwb    : t.pwb = { s.pwb with loans := s.pwb.loans.map fun x => if x ∈ taken then s.recalled x else x }
  frames : s.lif.state = .onLine → s.lif.tx.length + taken.length ≤ 12 →
    (∀ f ∈ s.lif.tx, f ∈ t.lif.tx) ∧ ∀ l ∈ taken, ∃ f ∈ t.lif.tx,
      f.frame = loanRecallFrame s.me l.partner l.pledge l.amount

theorem length_txInsert (f : TxFrame) (l : List TxFrame) : (txInsert f l).length = l.length + 1 := by
  induction l with
  | nil => rfl
  | cons g l ih =>
    unfold txInsert
    split
    · rfl
    · rw [List.length_cons, ih, List.length_cons]

theorem foldl_recallOne (taken : List Loan) : ∀ s : State, PartnersApart s.pwb.loans → taken.Nodup →
    (∀ l ∈ taken, l ∈ s.pwb.loans ∧ l.recallable = true) →
    Recalled taken s ((taken.map Loan.partner).foldl State.recallOne s) := by
  induction taken with
  | nil => exact fun s _ _ _ => ⟨by simp, fun _ _ => ⟨fun _ h => h, by simp⟩⟩
  | cons l taken ih =>
    intro s apart once all
    obtain ⟨fresh, once⟩ := List.nodup_cons.mp once
    obtain ⟨there, may⟩ := all l (List.mem_cons_self ..)
    have first := recallOne_eq apart there may
    have within := within_recallOne s l.partner
    have elapsed : (s.recallOne l.partner).elapsed = s.elapsed := within.frame .elapsed (by decide)
    have settings : (s.recallOne l.partner).settings = s.settings := within.frame .settings (by decide)
    have straps : (s.recallOne l.partner).straps = s.straps := within.frame .straps (by decide)
    have recalled (x : Loan) : (s.recallOne l.partner).recalled x = s.recalled x := by
      unfold State.recalled
      rw [elapsed, settings]
    have loans : (s.recallOne l.partner).pwb = { s.pwb with
        loans := s.pwb.loans.map fun x => if x = l then s.recalled x else x } := by
      rw [first, (within_queueFrame _ _).pwb]
      rfl
    have apart' : PartnersApart (s.recallOne l.partner).pwb.loans := by
      rw [loans]
      refine List.Pairwise.map _ (fun a b h => ?_) apart
      have keeps (x : Loan) : (if x = l then s.recalled x else x).lent = x.lent ∧
          (if x = l then s.recalled x else x).partner = x.partner := by split <;> exact ⟨rfl, rfl⟩
      rw [(keeps a).1, (keeps a).2, (keeps b).1, (keeps b).2]
      exact h
    have next := ih (s.recallOne l.partner) apart' once fun x hx => by
      have other : x ≠ l := fun e => fresh (e ▸ hx)
      obtain ⟨hx, may⟩ := all x (List.mem_cons_of_mem _ hx)
      refine ⟨?_, may⟩
      rw [loans]
      exact List.mem_map.mpr ⟨x, hx, if_neg other⟩
    refine ⟨?_, fun on room => ?_⟩
    · rw [List.map_cons, List.foldl_cons, next.pwb, loans]
      simp only [List.map_map, recalled]
      congr 1
      refine List.map_congr_left fun x _ => ?_
      simp only [Function.comp_apply, List.mem_cons]
      by_cases e : x = l
      · have done : s.recalled x ∉ taken := fun h => by
          have := (all _ (List.mem_cons_of_mem _ h)).2
          simp [Loan.recallable, State.recalled] at this
        rw [if_pos e, if_neg done, if_pos (.inl e)]
      · simp [e]
    · rw [List.length_cons] at room
      have sends : (s.recallOne l.partner).lif = { s.lif with
          serial := s.lif.serial + 1
          tx := txInsert ⟨s.lif.serial, loanRecallFrame s.me l.partner l.pledge l.amount⟩ s.lif.tx } := by
        rw [first]
        exact congrArg State.lif (queueFrame_mk (s := s.withRecalled l) on (by
          show s.lif.tx.length < 12
          omega) s.me)
      obtain ⟨keeps, frames⟩ := next.frames (by rw [sends]; exact on) (by
        rw [sends]
        dsimp only
        rw [length_txInsert]
        omega)
      rw [List.map_cons, List.foldl_cons]
      rw [sends] at keeps
      refine ⟨fun f hf => keeps f (mem_txInsert.mpr (.inr hf)), fun x hx => ?_⟩
      rcases List.mem_cons.mp hx with rfl | hx
      · exact ⟨_, keeps _ (mem_txInsert.mpr (.inl rfl)), rfl⟩
      · have := frames x hx
        unfold State.me at this ⊢
        rwa [straps] at this

/-! ### The step of a head that does not fit (R58, R59) -/

theorem recallsOut_iff (s : State) (d : Demand) : s.recallsOut d = true ↔
    ∃ l ∈ s.pwb.loans, l.lent = true ∧ l.state = .recalled ∧ l.partner ∈ d.recalls := by
  simp [State.recallsOut, and_assoc]

/-- The loans the head may have recalled, newest first (R58). -/
def State.outs (s : State) : List Loan := s.pwb.loans.reverse.filter Loan.recallable

theorem outs_eq (s : State) : s.outs = s.pwb.loans.reverse.filter mayRecall := by
  unfold State.outs
  congr 1
  funext l
  exact (mayRecall_eq l).symm

theorem outs_nil_iff (s : State) : s.outs = [] ↔ ∀ l ∈ s.pwb.loans, mayRecall l = false := by
  rw [outs_eq]
  simp

/-- The head waits for its recalls or for the open collection (R58, R61). -/
def State.headWaits (s : State) (d : Demand) : Prop :=
  s.pwb.collection.isSome = true ∨
    ∃ l ∈ s.pwb.loans, l.lent = true ∧ l.state = .recalled ∧ l.partner ∈ d.recalls

theorem headStep_waits (h : s.headWaits d) : s.headStep d = .wait := by
  unfold State.headStep
  rcases h with asks | recalls
  · rw [if_pos asks]
  · rw [if_pos ((recallsOut_iff s d).mpr recalls)]
    exact ite_self _

theorem headStep_recalls (h : ¬ s.headWaits d) (outs : s.outs ≠ []) :
    s.headStep d = .recall (recallChoice (s.shortfall d) s.outs) := by
  obtain ⟨asks, recalls⟩ := not_or.mp h
  have some : (!(s.pwb.loans.reverse.filter Loan.recallable).isEmpty) = true := by simpa [State.outs] using outs
  unfold State.headStep
  rw [if_neg asks, if_neg (mt (recallsOut_iff s d).mp recalls)]
  dsimp only
  rw [if_pos some]
  rfl

theorem headStep_asks (h : ¬ s.headWaits d) (outs : s.outs = []) : s.headStep d =
    if d.kind = .pump ∧ s.pumpSpare < (d.need : Int) then .fail .budget false
    else if s.lif.state ≠ .onLine then .fail .noLine true
    else if 1023 < s.settings.baseShare + s.pwb.lentIn + s.askAmount d ∨ 16 ≤ s.pwb.loans.length ∨ d.asked = true then
      .fail .budget true
    else .ask (s.askAmount d) := by
  obtain ⟨asks, recalls⟩ := not_or.mp h
  have none : ¬ (!(s.pwb.loans.reverse.filter Loan.recallable).isEmpty) = true := by simpa [State.outs] using outs
  unfold State.headStep
  rw [if_neg asks, if_neg (mt (recallsOut_iff s d).mp recalls)]
  dsimp only
  rw [if_neg none]
  simp only [Bool.and_eq_true, decide_eq_true_eq, State.onLine, Config.ceilingMax, Config.maxLoans, Bool.not_eq_true',
    beq_eq_false_iff_ne, ne_eq]
  split
  · rfl
  · split
    · rfl
    · by_cases much : 1023 < s.settings.baseShare + s.pwb.lentIn + s.askAmount d
      · simp [much]
      · by_cases many : 16 ≤ s.pwb.loans.length
        · simp [many]
        · by_cases again : d.asked = true <;> simp [much, many, again]

/-! ### The examination of the head (R57 to R60) -/

theorem fits_iff (s : State) (d : Demand) : s.fits d = true ↔ (d.need : Int) ≤ s.ceiling - s.load ∧
    (d.kind = .pump → (d.need : Int) ≤ s.ownCeiling - s.pumpLoads) := by
  unfold State.fits State.spare State.pumpSpare
  rw [Bool.and_eq_true, Bool.or_eq_true, decide_eq_true_iff, decide_eq_true_iff, bne_iff_ne]
  refine and_congr_right fun _ => ?_
  tauto

theorem settle_cons {u : State} (queue : s.pwb.demands = d :: rest) (later : u.pwb.demands = rest)
    (runs : ∀ k, s.examineLoop (k + 1) = u.examineLoop k) : s.settle = u.settle := by
  unfold State.settle
  rw [queue, List.length_cons, runs, later]

theorem settle_served (queue : s.pwb.demands = d :: rest) (fits : s.fits d = true) :
    s.settle = (s.serveHead d).settle := by
  refine settle_cons queue ?_ fun k => ?_
  · rw [(serveHead_lists s d).1, queue]
    rfl
  · rw [State.examineLoop]
    simp only [queue, fits, if_true]

theorem settle_failed {c : FailCause} {short : Bool} (queue : s.pwb.demands = d :: rest) (full : s.fits d = false)
    (step : s.headStep d = .fail c short) : s.settle = (s.failHead d c short).settle := by
  refine settle_cons queue ?_ fun k => ?_
  · rw [(failHead_lists s d c short).1, queue]
    rfl
  · rw [State.examineLoop]
    simp only [queue, full, step, Bool.false_eq_true, if_false]

/-- An examination that leaves the head in the queue is all that PWB does. -/
theorem settle_stops {u : State} (busy : u.pwb.demands ≠ [])
    (runs : ∀ k, s.examineLoop (k + 1) = u) : s.settle = u := by
  unfold State.settle
  rw [runs]
  dsimp only
  rw [if_neg (by simpa using busy)]

theorem settle_waits (queue : s.pwb.demands = d :: rest) (full : s.fits d = false) (waits : s.headWaits d) :
    s.settle = s := by
  refine settle_stops (by rw [queue]; simp) fun k => ?_
  rw [State.examineLoop]
  simp only [queue, full, headStep_waits waits, Bool.false_eq_true, if_false]

theorem modHead_cons (queue : s.pwb.demands = d :: rest) (f : Demand → Demand) :
    (s.modHead f).pwb = { s.pwb with demands := f d :: rest } := by
  unfold State.modHead
  rw [queue]

theorem settle_recalls (queue : s.pwb.demands = d :: rest) (full : s.fits d = false) (free : ¬ s.headWaits d)
    (some : s.outs ≠ []) (apart : PartnersApart s.pwb.loans) : HeadRecalls d rest (s.shortfall d) s s.settle := by
  obtain ⟨taken, left, split, choice, while_, ends⟩ := recallChoice_split s.outs (s.shortfall d)
  have once : s.outs.Nodup := by
    have loans : s.pwb.loans.Nodup := apart.imp fun {a b} h e => by
      subst e
      exact h rfl rfl
    exact (List.nodup_reverse.mpr loans).sublist List.filter_sublist
  have all (l : Loan) (hl : l ∈ taken) : l ∈ s.pwb.loans ∧ l.recallable = true := by
    have there : l ∈ s.outs := split ▸ List.mem_append_left _ hl
    have := List.mem_filter.mp there
    exact ⟨List.mem_reverse.mp this.1, this.2⟩
  have done := foldl_recallOne taken s apart (split ▸ once).of_append_left all
  have queue' : ((taken.map Loan.partner).foldl State.recallOne s).pwb.demands = d :: rest := by rw [done.pwb, queue]
  have pwb : (s.recallFor (taken.map Loan.partner)).pwb = { s.pwb with
      loans := s.pwb.loans.map fun x => if x ∈ taken then s.recalled x else x
      demands := { d with recalls := d.recalls ++ taken.map Loan.partner } :: rest } := by
    unfold State.recallFor
    rw [modHead_cons queue', done.pwb]
  have runs : s.settle = s.recallFor (taken.map Loan.partner) := by
    refine settle_stops (by rw [pwb]; simp) fun k => ?_
    rw [State.examineLoop]
    simp only [queue, full, headStep_recalls free some, choice, Bool.false_eq_true, if_false]
  rw [runs]
  refine ⟨taken, left, by rw [← outs_eq, split], while_, ends, pwb, fun on room => (done.frames on room).2, ?_⟩
  exact ((within_recallFor s _).widen (qs := [.lif, .pwb])).frame

theorem settle_asks {amount : Nat} (queue : s.pwb.demands = d :: rest) (full : s.fits d = false)
    (step : s.headStep d = .ask amount) : HeadAsks d rest amount s s.settle := by
  let u : State := { s with pwb := { s.pwb with
    askSeq := (s.pwb.askSeq + 1) % 256
    collection := some ⟨(s.pwb.askSeq + 1) % 256, amount, s.lif.serial, d.id, none, []⟩ } }
  have asks : s.askFor d amount = (u.modHead fun d => { d with asked := true }).queueFrame
      (loanAskFrame s.me ((s.pwb.askSeq + 1) % 256) amount) := rfl
  have queue' : u.pwb.demands = d :: rest := queue
  have pwb : (s.askFor d amount).pwb = { u.pwb with demands := { d with asked := true } :: rest } := by
    rw [asks, (within_queueFrame _ _).pwb, modHead_cons queue']
  have runs : s.settle = s.askFor d amount := by
    refine settle_stops (by rw [pwb]; simp) fun k => ?_
    rw [State.examineLoop]
    simp only [queue, full, step, Bool.false_eq_true, if_false]
  rw [runs]
  refine ⟨pwb, fun on room => ?_, ((within_askFor s d amount).widen (qs := [.lif, .pwb])).frame⟩
  rw [asks]
  exact queueFrame_mem (s := u.modHead fun d => { d with asked := true }) on room s.me

end

end Sys2Proof.Machine
end

section
/-! PROOFS. O41: the passes and the head demand. -/

namespace Sys2Proof.Machine

set_option Elab.async false

section
variable {s : State} {d : Demand} {rest : List Demand}

theorem shortfall_eq (s : State) (d : Demand) : s.shortfall d = max (d.need - (s.ceiling - s.load)).toNat
    (if d.kind = .pump then (d.need - (s.ownCeiling - s.pumpLoads)).toNat else 0) := rfl

theorem askAmount_eq (s : State) (d : Demand) :
    s.askAmount d = max 4 (((d.need - (s.ceiling - s.load)).toNat + 3) / 4 * 4) := rfl

/-- The head served, failed, waiting, recalling or asking, as it is examined (R57 to R60). -/
theorem settle_head (queue : s.pwb.demands = d :: rest) :
    let fits : Prop := (d.need : Int) ≤ s.ceiling - s.load ∧
      (d.kind = .pump → (d.need : Int) ≤ s.ownCeiling - s.pumpLoads)
    (fits → ∃ t, HeadServed d rest s t ∧ s.settle = t.settle) ∧
    (¬ fits →
      let noneOut : Prop := ∀ l ∈ s.pwb.loans, mayRecall l = false
      let beyondOwn : Prop := d.kind = .pump ∧ s.ownCeiling - s.pumpLoads < (d.need : Int)
      let barred : Prop := 1023 < s.settings.baseShare + s.pwb.lentIn + s.askAmount d ∨
        16 ≤ s.pwb.loans.length ∨ d.asked = true
      let fails (c : FailCause) (asking : Bool) : Prop :=
        ∃ t, HeadFailed d c asking rest s t ∧ s.settle = t.settle
      (s.headWaits d → s.settle = s) ∧
      (¬ s.headWaits d → ¬ noneOut → PartnersApart s.pwb.loans → HeadRecalls d rest (s.shortfall d) s s.settle) ∧
      (¬ s.headWaits d → noneOut → beyondOwn → fails .budget false) ∧
      (¬ s.headWaits d → noneOut → ¬ beyondOwn → s.lif.state ≠ .onLine → fails .noLine true) ∧
      (¬ s.headWaits d → noneOut → ¬ beyondOwn → s.lif.state = .onLine → barred → fails .budget true) ∧
      (¬ s.headWaits d → noneOut → ¬ beyondOwn → s.lif.state = .onLine → ¬ barred →
        HeadAsks d rest (s.askAmount d) s s.settle)) := by
  intro fits
  have test : s.fits d = true ↔ fits := fits_iff s d
  refine ⟨fun yes => ⟨_, serveHead_served queue, settle_served queue (test.mpr yes)⟩, fun no => ?_⟩
  intro noneOut beyondOwn barred fails
  have full : s.fits d = false := Bool.eq_false_iff.mpr (mt test.mp no)
  have empty : s.outs = [] ↔ noneOut := outs_nil_iff s
  have failing (c : FailCause) (short : Bool) (step : s.headStep d = .fail c short) : fails c short :=
    ⟨_, failHead_failed c short queue, settle_failed queue full step⟩
  refine ⟨settle_waits queue full, fun free some apart => settle_recalls queue full free (mt empty.mp some) apart,
    fun free none own => failing _ _ ?_, fun free none own off => failing _ _ ?_,
    fun free none own on bar => failing _ _ ?_, fun free none own on open_ => settle_asks queue full ?_⟩
  all_goals rw [headStep_asks free (empty.mpr none)]
  · exact if_pos own
  · exact (if_neg own).trans (if_pos off)
  · exact (if_neg own).trans ((if_neg (not_not_intro on)).trans (if_pos bar))
  · exact (if_neg own).trans ((if_neg (not_not_intro on)).trans (if_neg open_))

end

/-- Settles O41: the shed pass (`shedPass_takes`), the restore pass (`restorePass_restored`), and the head as it is
examined (`settle_head`). -/
theorem passesAndTheHeadDemand : Obligations.PassesAndTheHeadDemand := by
  refine ⟨fun s => ?_, insertMoment_split, fun s apart fresh => ?_, fun s => restorePass_fits, fun s once => ?_,
    fun s => ⟨settle_nil, fun empty e rest => settle_full empty⟩,
    fun s before => ⟨settleSince_settle, settleSince_same, settleSince_idle before⟩, fun d rest s queue => ?_⟩
  · obtain ⟨ceiling, loads⟩ := foldl_shedTurn_ceiling s.shedOrder s
    exact ⟨ceiling, loads, shedPass_fits s⟩
  · intro cls order
    obtain ⟨taken, left, split, while_, ends, still, shed⟩ := shedPass_takes apart fresh
    refine ⟨taken, left, ?_, while_, ends, still, shed.flag, shed.pwb, shed.at_, shed.rest,
      ((within_shedPass s).widen (qs := [.pwb, .spc])).frame⟩
    rw [← split]
    show [0, 1, 2].flatMap _ = s.shedOrder
    simp only [List.flatMap_cons, List.flatMap_nil, List.append_nil, ← List.append_assoc]
    rfl
  · obtain ⟨taken, left, split, h⟩ := restorePass_restored s
    have once' : (taken.map OutletLoad.point).Nodup := by
      rw [split, List.map_append] at once
      exact once.of_append_left
    have quiet : s.restorePass.pnp = s.pnp :=
      restorePass_keeps (P := fun t => t.pnp = s.pnp) (fun u e r _ h => h) s rfl
    exact ⟨taken, left, split, h.while_, h.ends, h.pwb, h.at_ once', h.rest,
      ((within_restorePass s).widen (qs := [.moments, .pwb, .spc])).quiet quiet⟩
  · exact settle_head queue

end Sys2Proof.Machine
end

section
/-! PROOFS. O43: voids, recalls and returns of loans (R67 to R69). -/

namespace Sys2Proof.Machine

set_option Elab.async false

section
variable {s u : State} {src : RxSource} {f : Frame} {note : Option Nat} {l : Loan}

/-- The loans that meet a test gone, the test written in any way. -/
theorem dropLoans_eq {p : Loan → Bool} (q : Loan → Bool) (same : ∀ l, p l = q l) (s : State) :
    s.dropLoans p = { s with pwb := { s.pwb with loans := s.pwb.loans.filter fun l => !q l } } := by
  obtain rfl : p = q := funext same
  rfl

/-- The station's loans without those of one direction, partner and pledge id. -/
def State.loanGone (s : State) (lent : Bool) (partner pledge : Nat) : State := { s with
  pwb := { s.pwb with loans := s.pwb.loans.filter fun l =>
    !(l.lent == lent && l.partner == partner && l.pledge == pledge) } }

theorem dropLoans_in (s : State) (partner pledge : Nat) :
    (s.dropLoans fun l => !l.lent && l.partner == partner && l.pledge == pledge) = s.loanGone false partner pledge :=
  dropLoans_eq _ (fun l => by cases l.lent <;> rfl) s

theorem dropLoans_out (s : State) (partner pledge : Nat) :
    (s.dropLoans fun l => l.lent && l.partner == partner && l.pledge == pledge) = s.loanGone true partner pledge :=
  dropLoans_eq _ (fun l => by cases l.lent <;> rfl) s

theorem loanGone_load (s : State) (lent : Bool) (partner pledge : Nat) :
    (s.loanGone lent partner pledge).load = s.load := rfl

/-- After a fall of C the shed pass runs where C is below G, and PWB goes on (R54). -/
theorem ceilingFell_gone (s : State) (lent : Bool) (partner pledge : Nat) :
    (s.loanGone lent partner pledge).ceilingFell =
      if (s.loanGone lent partner pledge).ceiling < s.load then
        (s.loanGone lent partner pledge).shedPass.settleSince (s.loanGone lent partner pledge)
      else s.loanGone lent partner pledge := rfl

theorem shedIfShort_gone (s : State) (lent : Bool) (partner pledge : Nat) :
    (s.loanGone lent partner pledge).shedIfShort =
      if (s.loanGone lent partner pledge).ceiling < s.load then (s.loanGone lent partner pledge).shedPass
      else s.loanGone lent partner pledge := rfl

theorem exec_loanVoidFrame (on : s.powered = true) (got : s.takeRx 8 src = some (f, note, u)) :
    (u.loan? false f.sender (f.keyField 5 8) = none → exec (.loanVoidFrame src) s = .next u) ∧
    ∀ l, u.loan? false f.sender (f.keyField 5 8) = some l → exec (.loanVoidFrame src) s =
      .next (((u.loanGone false f.sender (f.keyField 5 8)).ceilingFell).setFlag .loanVoid) := by
  have decided : exec (.loanVoidFrame src) s = .next _ := congrArg Host.Outcome.next (State.frameEvent_taken on got)
  refine ⟨fun none => decided.trans ?_, fun l found => decided.trans ?_⟩
  · simp only [none, Option.isSome_none, Bool.false_eq_true, if_false]
  · simp only [found, Option.isSome_some, if_true, dropLoans_in]

theorem exec_loanRecallFrame (on : s.powered = true) (got : s.takeRx 2 src = some (f, note, u)) :
    (u.loan? false f.sender (f.keyField 5 8) = none → exec (.loanRecallFrame src) s =
      .next (u.queueFrame (loanReturnFrame u.me f.sender (f.keyField 5 8) 0))) ∧
    ∀ l, u.loan? false f.sender (f.keyField 5 8) = some l → exec (.loanRecallFrame src) s =
      .next (((u.loanGone false f.sender (f.keyField 5 8)).shedIfShort.queueFrame
        (loanReturnFrame u.me f.sender (f.keyField 5 8) l.amount)).settleSince u) := by
  have decided : exec (.loanRecallFrame src) s = .next _ := congrArg Host.Outcome.next (State.frameEvent_taken on got)
  refine ⟨fun none => decided.trans ?_, fun l found => decided.trans ?_⟩
  · simp only [none]
  · simp only [found, dropLoans_in]

theorem exec_loanReturnFrame (on : s.powered = true) (got : s.takeRx 3 src = some (f, note, u)) :
    (u.loan? true f.sender (f.keyField 5 8) = none → exec (.loanReturnFrame src) s = .next u) ∧
    ∀ l, u.loan? true f.sender (f.keyField 5 8) = some l → exec (.loanReturnFrame src) s =
      .next (if l.state = .pledged then u else (u.loanGone true f.sender (f.keyField 5 8)).settle) := by
  have decided : exec (.loanReturnFrame src) s = .next _ := congrArg Host.Outcome.next (State.frameEvent_taken on got)
  refine ⟨fun none => decided.trans ?_, fun l found => decided.trans ?_⟩
  · simp only [none]
  · have pledge : l.pledge = f.keyField 5 8 := by
      have := List.find?_some found
      simp only [Bool.and_eq_true, beq_iff_eq] at this
      exact this.2
    simp only [found, dropLoans_out, pledge]

theorem exec_recallDeadline {partner d : Nat} (on : s.powered = true)
    (found : s.pwb.loans.find? (fun l => l.lent && l.partner == partner && l.state == .recalled) = some l)
    (deadline : l.deadline = some d) : exec (.recallDeadline partner) s =
      .next (((((s.advanceTo d).dropLoans fun x => x.lent && x.partner == partner).queueFrame
        (loanVoidFrame (s.advanceTo d).me partner l.pledge)).setFlag .recallLapsed).settle) := by
  show Host.Outcome.next (s.event _) = _
  rw [State.event_on on]
  simp only [found, deadline, Option.getD_some]
  rfl

end

/-- Settles O43: each frame by its own lemma, the loans gone as `loanGone` has it. -/
theorem voidsRecallsAndReturns : Obligations.VoidsRecallsAndReturns := by
  refine ⟨fun src f note s u on => ?_, fun partner d l s on found deadline => ?_⟩
  · intro pledge without
    refine ⟨fun got => ?_, fun got => ?_, fun got => ?_⟩
    · obtain ⟨rx, loop, rfl⟩ := takeRx_eq got
      exact exec_loanVoidFrame on got
    · obtain ⟨rx, loop, rfl⟩ := takeRx_eq got
      exact exec_loanRecallFrame on got
    · obtain ⟨rx, loop, rfl⟩ := takeRx_eq got
      obtain ⟨none, some⟩ := exec_loanReturnFrame on got
      refine ⟨none, fun l found => ⟨fun pledged => (some l found).trans ?_, fun other => (some l found).trans ?_⟩⟩
      · rw [if_pos pledged]
      · rw [if_neg other]
        rfl
  · have within := within_advanceTo s d
    have pwb : (s.advanceTo d).pwb = s.pwb := within.pwb
    have me : (s.advanceTo d).me = s.me := congrArg Straps.station (within.frame .straps (by decide))
    rw [exec_recallDeadline on found deadline, me]
    unfold State.dropLoans
    rw [pwb]

end Sys2Proof.Machine
end

section
/-! PROOFS. O42: lending, from the offer to the end of its pledge (R64 to R66). -/

namespace Sys2Proof.Machine

set_option Elab.async false

section
variable {s u : State} {src : RxSource} {f : Frame} {note : Option Nat} {l : Loan}

/-- The loan records of a partner and direction changed, the test written as a proposition. -/
theorem modLoan_eq (s : State) (lent : Bool) (partner : Nat) (g : Loan → Loan) : s.modLoan lent partner g = { s with
    pwb := { s.pwb with loans := s.pwb.loans.map fun x => if x.lent = lent ∧ x.partner = partner then g x else x } } := by
  unfold State.modLoan
  simp only [Bool.and_eq_true, beq_iff_eq]

theorem endPledge_eq (l : Loan) (s : State) : s.endPledge l =
    if l.state = .pledged then State.settle { s with
      pwb := { s.pwb with loans := s.pwb.loans.filter fun x => !(x.lent && x.partner == l.partner) } }
    else if l.addition.isSome = true then State.settle { s with
      pwb := { s.pwb with loans := s.pwb.loans.map fun x =>
        if x.lent = true ∧ x.partner = l.partner then { x with
          addition := none
          deadline := none
          offerFrame := none } else x } }
    else s := by
  unfold State.endPledge
  rw [modLoan_eq]
  rfl

/-- The first loan that meets a test. -/
theorem find?_first {α : Type} {p : α → Bool} {list before after : List α} {x : α}
    (split : list = before ++ x :: after) (others : ∀ y ∈ before, ¬ p y = true) (here : p x = true) :
    list.find? p = some x :=
  List.find?_eq_some_iff_append.mpr ⟨here, before, after, split, fun y hy => by simpa using others y hy⟩

/-! ### The offer (R64) -/

theorem exec_loanAskFrame (on : s.powered = true) (got : s.takeRx 4 src = some (f, note, u)) :
    exec (.loanAskFrame src) s = .next (if f.sender = u.me ∨ f.sender = 0 ∨ u.noOffer f.sender = true ∨
      u.offerAmount (f.num 0 2) < 4 then u else u.makeOffer f.sender (f.keyField 0 8) (u.offerAmount (f.num 0 2))) := by
  have decided : exec (.loanAskFrame src) s = .next _ := congrArg Host.Outcome.next (State.frameEvent_taken on got)
  refine decided.trans (congrArg Host.Outcome.next ?_)
  simp only [Bool.or_eq_true, decide_eq_true_eq, or_assoc]
  by_cases none : f.sender = u.me ∨ f.sender = 0 ∨ u.noOffer f.sender = true
  · rw [if_pos none, if_pos (by tauto)]
  · rw [if_neg none]
    by_cases few : u.offerAmount (f.num 0 2) < 4
    · rw [if_neg (by omega), if_pos (by tauto)]
    · rw [if_pos (by omega), if_neg (by tauto)]

theorem noOffer_of_none {n : Nat} (bare : s.pwb.loans.find? (fun l => l.lent && l.partner == n) = none) :
    s.noOffer n = true ↔ s.pwb.collection.isSome = true ∨ (∃ l ∈ s.pwb.loans, l.lent = false ∧ l.partner = n) ∨
      16 ≤ s.pwb.loans.length := by
  unfold State.noOffer
  rw [bare]
  simp only [Bool.or_eq_true, or_assoc, List.any_eq_true, Bool.and_eq_true, Bool.not_eq_true', beq_iff_eq]
  exact or_congr_right (or_congr_right decide_eq_true_iff)

theorem noOffer_of_some {n : Nat} (found : s.pwb.loans.find? (fun l => l.lent && l.partner == n) = some l) :
    s.noOffer n = true ↔ s.pwb.collection.isSome = true ∨ (∃ l ∈ s.pwb.loans, l.lent = false ∧ l.partner = n) ∨
      l.recallable = false := by
  unfold State.noOffer
  rw [found]
  simp [or_assoc]

theorem makeOffer_new {asker seq amount : Nat}
    (bare : s.pwb.loans.find? (fun l => l.lent && l.partner == asker) = none) :
    s.makeOffer asker seq amount = State.queueFrame (loanOfferFrame s.me asker seq amount s.nextPledge) { s with
      pwb := { s.pwb with
        loans := s.pwb.loans ++ [⟨asker, true, amount, .pledged, s.nextPledge, none,
          some (s.elapsed + s.settings.pledgeTimeout * 1000000), some s.lif.serial⟩]
        pledgeId := s.nextPledge } } := by
  unfold State.makeOffer
  rw [bare]
  rfl

theorem makeOffer_more {asker seq amount : Nat}
    (found : s.pwb.loans.find? (fun l => l.lent && l.partner == asker) = some l) :
    s.makeOffer asker seq amount = State.queueFrame (loanOfferFrame s.me asker seq amount l.pledge)
      (s.modLoan true asker fun l => { l with
        addition := some amount
        deadline := some (s.elapsed + s.settings.pledgeTimeout * 1000000)
        offerFrame := some s.lif.serial }) := by
  unfold State.makeOffer
  rw [found]
  rfl

/-- A LOAN OFFER queued ON LINE with room has its place in the transmit queue. -/
theorem loanOffer_queued {t : State} {me asker seq amount id : Nat} (same : t.lif.state = s.lif.state ∧
    t.lif.tx = s.lif.tx ∧ t.lif.serial = s.lif.serial) (on : s.lif.state = .onLine) (room : s.lif.tx.length < 12) :
    ∃ x ∈ (t.queueFrame (loanOfferFrame me asker seq amount id)).lif.tx, x.serial = s.lif.serial ∧
      x.frame = loanOfferFrame me asker seq amount id := by
  obtain ⟨state, tx, serial⟩ := same
  have queued := queueFrame_mem (s := t) (kind := 5) (fields := [(5, asker), (8, seq)])
    (data := beBytes 2 amount ++ beBytes 1 id) (state.trans on) (by rw [tx]; exact room) me
  rwa [serial] at queued

theorem nextPledge_free (few : s.pwb.loans.length < 16) : 1 ≤ s.nextPledge ∧ s.nextPledge ≤ 255 ∧
    ∀ l ∈ s.pwb.loans, l.lent = true → l.pledge ≠ s.nextPledge := by
  have short : ((s.pwb.loans.filter Loan.lent).map Loan.pledge).length < 255 - 1 + 1 := by
    rw [List.length_map]
    have := List.length_filter_le Loan.lent s.pwb.loans
    omega
  obtain ⟨id, found⟩ := Option.isSome_iff_exists.mp (nextFree_isSome (last := s.pwb.pledgeId) short (by decide))
  obtain ⟨low, high, fresh⟩ := nextFreeIn_some (by decide) found
  have next : s.nextPledge = id := by
    unfold State.nextPledge
    rw [found]
    rfl
  rw [next]
  exact ⟨low, high, fun l hl lent same => fresh (List.mem_map.mpr ⟨l, List.mem_filter.mpr ⟨hl, lent⟩, same⟩)⟩

/-- A pledge takes its amount from C and H (R51, R64). -/
theorem ceiling_pledged {t : State} {x : Loan} (settings : t.settings = s.settings)
    (loans : t.pwb.loans = s.pwb.loans ++ [x]) (lent : x.lent = true) :
    t.ceiling = s.ceiling - x.total ∧ t.ownCeiling = s.ownCeiling - x.total := by
  have out : t.pwb.lentOut = s.pwb.lentOut + x.total := by
    unfold Pwb.lentOut
    rw [loans]
    simp [lent]
  have in_ : t.pwb.lentIn = s.pwb.lentIn := by
    unfold Pwb.lentIn
    rw [loans]
    simp [lent]
  unfold State.ceiling State.ownCeiling
  rw [settings, out, in_]
  omega

/-! ### The take (R65) -/

theorem exec_loanTakeFrame (on : s.powered = true) (got : s.takeRx 6 src = some (f, note, u)) :
    exec (.loanTakeFrame src) s = .next (u.takeLoan f.sender (f.keyField 5 8) (f.num 0 2)) :=
  congrArg Host.Outcome.next (State.frameEvent_taken on got)

theorem takeLoan_none {partner pledge taken : Nat} (none : s.loan? true partner pledge = none) :
    s.takeLoan partner pledge taken = s.voidTake partner pledge := by
  unfold State.takeLoan
  rw [none]

theorem takeLoan_some {partner pledge taken : Nat} (found : s.loan? true partner pledge = some l) :
    (l.state = .pledged → 4 ≤ taken → taken ≤ l.amount → s.takeLoan partner pledge taken =
      (s.modLoan true partner fun x => { x with
        state := .active
        amount := taken
        deadline := none
        offerFrame := none }).settleSince s) ∧
    (l.state = .active → 4 ≤ taken → (∃ a, l.addition = some a ∧ taken ≤ a) → s.takeLoan partner pledge taken =
      (s.modLoan true partner fun x => { x with
        amount := x.amount + taken
        addition := none
        deadline := none
        offerFrame := none }).settleSince s) ∧
    (taken < 4 ∨ (l.state = .pledged ∧ l.amount < taken) ∨ l.state = .recalled ∨
      (l.state = .active ∧ ∀ a, l.addition = some a → a < taken) →
      s.takeLoan partner pledge taken = s.voidTake partner pledge) := by
  have runs : s.takeLoan partner pledge taken =
      if (l.state = .pledged ∧ 4 ≤ taken) ∧ taken ≤ l.amount then
        (s.modLoan true partner fun x => { x with
          state := .active, amount := taken, deadline := none, offerFrame := none }).settleSince s
      else if ((l.state = .active ∧ l.addition.isSome = true) ∧ 4 ≤ taken) ∧ taken ≤ l.addition.getD 0 then
        (s.modLoan true partner fun x => { x with
          amount := x.amount + taken, addition := none, deadline := none, offerFrame := none }).settleSince s
      else s.voidTake partner pledge := by
    unfold State.takeLoan
    simp only [found, Bool.and_eq_true, decide_eq_true_eq]
  rw [runs]
  refine ⟨fun state least most => if_pos ⟨⟨state, least⟩, most⟩, fun state least ⟨a, add, most⟩ => ?_, fun why => ?_⟩
  · rw [if_neg (by simp [state]), if_pos ⟨⟨⟨state, by rw [add]; rfl⟩, least⟩, by rw [add]; exact most⟩]
  · rw [if_neg, if_neg]
    · rintro ⟨⟨⟨state, add⟩, least⟩, most⟩
      obtain ⟨a, some⟩ := Option.isSome_iff_exists.mp add
      rw [some, Option.getD_some] at most
      rcases why with few | ⟨pledged, -⟩ | recalled | ⟨-, less⟩
      · omega
      · rw [state] at pledged
        cases pledged
      · rw [state] at recalled
        cases recalled
      · have := less a some
        omega
    · rintro ⟨⟨state, least⟩, most⟩
      rcases why with few | ⟨-, more⟩ | recalled | ⟨active, -⟩
      · omega
      · omega
      · rw [state] at recalled
        cases recalled
      · rw [state] at active
        cases active

end

/-- Settles O42: the offer made or withheld (`exec_loanAskFrame`), the take (`takeLoan_some`), and the end of a
pledge (`endPledge_eq`). -/
theorem lendingPledgesAndTakes : Obligations.LendingPledgesAndTakes := by
  refine ⟨fun src f note s u on got => ?_, fun src f note s u on got => ?_, ?_⟩
  · intro ask amount deadline out silent
    have runs := exec_loanAskFrame on got
    obtain ⟨rx, loop, rfl⟩ := takeRx_eq got
    generalize eu : ({ s with lif := { s.lif with rx := rx, loop := loop } } : State) = u at got runs ⊢
    have pwb : u.pwb = s.pwb := by rw [← eu]
    have lif : u.lif.state = s.lif.state ∧ u.lif.tx = s.lif.tx ∧ u.lif.serial = s.lif.serial := by
      rw [← eu]
      exact ⟨rfl, rfl, rfl⟩
    have me : u.me = s.me := by rw [← eu]; rfl
    have offer : u.offerAmount (f.num 0 2) = amount := by rw [← eu]; rfl
    have ends : u.elapsed + u.settings.pledgeTimeout * 1000000 = deadline := by rw [← eu]
    have within : Within [.lif] s u := by rw [← eu]; exact within_lif s _
    have settings : u.settings = s.settings := by rw [← eu]
    have ceilings : u.ceiling = s.ceiling ∧ u.ownCeiling = s.ownCeiling := by rw [← eu]; exact ⟨rfl, rfl⟩
    clear eu
    rw [me, offer] at runs
    have outIff (l : Loan) : (l.lent && l.partner == f.sender) = true ↔ out l := by
      rw [Bool.and_eq_true, beq_iff_eq]
    have bare (none : ∀ l ∈ s.pwb.loans, ¬ out l) :
        u.pwb.loans.find? (fun l => l.lent && l.partner == f.sender) = Option.none := by
      rw [pwb]
      exact List.find?_eq_none.mpr fun l hl => mt (outIff l).mp (none l hl)
    refine ⟨fun quiet => runs.trans (congrArg Host.Outcome.next (if_pos ?_)),
      fun loud none full => runs.trans (congrArg Host.Outcome.next (if_pos ?_)), fun loud none few => ?_,
      fun before l after split others here loud => ⟨fun why => runs.trans (congrArg Host.Outcome.next (if_pos ?_)),
        fun state add => ?_⟩⟩
    · have closed : s.pwb.collection.isSome = true ∨ (∃ l ∈ s.pwb.loans, l.lent = false ∧ l.partner = f.sender) →
          u.noOffer f.sender = true := by
        intro h
        unfold State.noOffer
        rw [pwb, Bool.or_eq_true, Bool.or_eq_true]
        refine .inl (h.imp id fun ⟨l, hl, lent, partner⟩ => ?_)
        exact List.any_eq_true.mpr ⟨l, hl, by simp [lent, partner]⟩
      rcases quiet with h | h | h | h | h
      · exact .inl h
      · exact .inr (.inl h)
      · exact .inr (.inr (.inl (closed (.inl h))))
      · exact .inr (.inr (.inl (closed (.inr h))))
      · exact .inr (.inr (.inr h))
    · refine .inr (.inr (.inl ((noOffer_of_none (bare none)).mpr (.inr (.inr ?_)))))
      rw [pwb]
      exact full
    · have go : ¬ (f.sender = s.me ∨ f.sender = 0 ∨ u.noOffer f.sender = true ∨ amount < 4) := by
        rw [noOffer_of_none (bare none), pwb]
        have : ¬ 16 ≤ s.pwb.loans.length := by omega
        rintro (h | h | h | h)
        · exact loud (.inl h)
        · exact loud (.inr (.inl h))
        · rcases h with h | h | h
          · exact loud (.inr (.inr (.inl h)))
          · exact loud (.inr (.inr (.inr (.inl h))))
          · omega
        · exact loud (.inr (.inr (.inr (.inr h))))
      rw [if_neg go, makeOffer_new (bare none), me, ends, lif.2.2] at runs
      obtain ⟨low, high, fresh⟩ := nextPledge_free (s := u) (by rw [pwb]; exact few)
      generalize u.nextPledge = id at runs low high fresh
      rw [pwb] at runs fresh
      have loans := (within_queueFrame ({ u with pwb := { s.pwb with
        loans := s.pwb.loans ++ [⟨f.sender, true, amount, .pledged, id, Option.none, some deadline, some s.lif.serial⟩]
        pledgeId := id } } : State) (loanOfferFrame s.me f.sender (f.keyField 0 8) amount id))
      have all : Within [.lif, .pwb] s _ := (within.andThen (within_pwb u _) : Within [.lif, .pwb] s _).andThen loans
      obtain ⟨c, h⟩ := ceiling_pledged (all.frame .settings (by decide)) (congrArg Pwb.loans loans.pwb) rfl
      refine ⟨_, id, runs, loans.pwb, low, high, fresh, c, h, fun on room => ?_, all.frame⟩
      exact loanOffer_queued lif on room
    · have found : u.pwb.loans.find? (fun l => l.lent && l.partner == f.sender) = some l := by
        rw [pwb]
        exact find?_first split (fun x hx => mt (outIff x).mp (others x hx)) ((outIff l).mpr here)
      refine .inr (.inr (.inl ((noOffer_of_some found).mpr (.inr (.inr ?_)))))
      unfold Loan.recallable
      rcases why with state | add
      · cases h : l.state <;> simp_all
      · obtain ⟨a, some⟩ := Option.isSome_iff_exists.mp add
        simp [some]
    · have found : u.pwb.loans.find? (fun l => l.lent && l.partner == f.sender) = some l := by
        rw [pwb]
        exact find?_first split (fun x hx => mt (outIff x).mp (others x hx)) ((outIff l).mpr here)
      have may : l.recallable = true := by
        unfold Loan.recallable
        simp [here.1, state, add]
      have go : ¬ (f.sender = s.me ∨ f.sender = 0 ∨ u.noOffer f.sender = true ∨ amount < 4) := by
        rw [noOffer_of_some found, pwb, may]
        rintro (h | h | h | h)
        · exact loud (.inl h)
        · exact loud (.inr (.inl h))
        · rcases h with h | h | h
          · exact loud (.inr (.inr (.inl h)))
          · exact loud (.inr (.inr (.inr (.inl h))))
          · cases h
        · exact loud (.inr (.inr (.inr (.inr h))))
      rw [if_neg go, makeOffer_more found, me, ends, lif.2.2, modLoan_eq, pwb] at runs
      have loans := (within_queueFrame ({ u with pwb := { s.pwb with
        loans := s.pwb.loans.map fun x => if x.lent = true ∧ x.partner = f.sender then { x with
          addition := some amount
          deadline := some deadline
          offerFrame := some s.lif.serial } else x } } : State)
        (loanOfferFrame s.me f.sender (f.keyField 0 8) amount l.pledge))
      have all : Within [.lif, .pwb] s _ := (within.andThen (within_pwb u _) : Within [.lif, .pwb] s _).andThen loans
      refine ⟨_, runs, loans.pwb, fun on room => ?_, all.frame⟩
      exact loanOffer_queued lif on room
  · intro pledge taken out voided
    have runs := exec_loanTakeFrame on got
    obtain ⟨rx, loop, rfl⟩ := takeRx_eq got
    have void : State.takeLoan f.sender pledge taken _ = State.voidTake f.sender pledge _ → voided :=
      fun h => runs.trans (congrArg Host.Outcome.next h)
    have test (x : Loan) : (x.lent == true && x.partner == f.sender && x.pledge == pledge) = true ↔
        out x ∧ x.pledge = pledge := by simp [out]
    refine ⟨fun none => void (takeLoan_none ?_), fun before l after split others here same => ?_⟩
    · exact List.find?_eq_none.mpr fun x hx h => none x hx ((test x).mp h).1 ((test x).mp h).2
    · have found := find?_first split (fun x hx => mt (test x).mp (others x hx)) ((test l).mpr ⟨here, same⟩)
      obtain ⟨pledged, active, bad⟩ := takeLoan_some (s := { s with lif := { s.lif with rx := rx, loop := loop } })
        (partner := f.sender) (pledge := pledge) (taken := taken) found
      refine ⟨fun h1 h2 h3 => runs.trans (congrArg Host.Outcome.next ((pledged h1 h2 h3).trans ?_)),
        fun h1 h2 h3 => runs.trans (congrArg Host.Outcome.next ((active h1 h2 h3).trans ?_)), fun why => void (bad why)⟩
      · rw [modLoan_eq]
      · rw [modLoan_eq]
  · intro ended
    have ends (s : State) (l : Loan) : s.endPledge l = ended s l := endPledge_eq l s
    refine ⟨fun src f note s u on got => ?_, fun rep rest s on got => ?_, fun partner d l s on found deadline => ?_⟩
    · have decided : exec (.loanDeclineFrame src) s = .next _ :=
        congrArg Host.Outcome.next (State.frameEvent_taken on got)
      obtain ⟨rx, loop, rfl⟩ := takeRx_eq got
      refine ⟨fun none => decided.trans ?_, fun l found => decided.trans ?_⟩
      · have none' : State.loan? ({ s with lif := { s.lif with rx := rx, loop := loop } } : State) true f.sender
          (f.keyField 5 8) = Option.none := none
        simp only [none']
      · have found' : State.loan? ({ s with lif := { s.lif with rx := rx, loop := loop } } : State) true f.sender
          (f.keyField 5 8) = some l := found
        simp only [found']
        rw [ends]
    · intro v
      have decided : exec .loanOfferReport s = .next _ := congrArg Host.Outcome.next (State.reportEvent_taken on got)
      refine ⟨fun sent => decided.trans ?_, fun failed l found => decided.trans ?_⟩
      · rw [if_pos sent]
      · have found' : ({ s with lif := { s.lif with reports := rest } } : State).pwb.loans.find?
          (fun l => l.lent && l.offerFrame == some rep.serial) = some l := found
        rw [if_neg (by simp [failed])]
        simp only [found']
        rw [ends]
    · show Host.Outcome.next (s.event _) = _
      rw [State.event_on on]
      simp only [found, deadline]
      rw [ends]

end Sys2Proof.Machine
end

section
/-! PROOFS. The offers of a collection (R62): which are usable, what is taken of each, and the loans they make. -/

namespace Sys2Proof.Machine

set_option Elab.async false

/-! ### The offers taken -/

theorem takenOffers_cons (ask : Nat) (o : Offer) (offers : List Offer) : takenOffers ask (o :: offers) =
    if ask = 0 then [] else (o, min ask o.amount) :: takenOffers (ask - o.amount) offers := rfl

theorem takenOffers_zero (offers : List Offer) : takenOffers 0 offers = [] := by
  cases offers <;> rfl

theorem takenOffers_sum (offers : List Offer) : ∀ ask, ask ≤ (offers.map Offer.amount).sum →
    ((takenOffers ask offers).map Prod.snd).sum = ask := by
  induction offers with
  | nil => exact fun ask enough => (Nat.le_zero.mp enough).symm
  | cons o offers ih =>
    intro ask enough
    rw [takenOffers_cons]
    rw [List.map_cons, List.sum_cons] at enough
    by_cases none : ask = 0
    · rw [if_pos none, none]
      rfl
    · rw [if_neg none, List.map_cons, List.sum_cons, ih _ (by omega)]
      dsimp only
      omega

theorem takenOffers_prefix (offers : List Offer) : ∀ ask, (takenOffers ask offers).map Prod.fst <+: offers := by
  induction offers with
  | nil => exact fun _ => List.prefix_rfl
  | cons o offers ih =>
    intro ask
    rw [takenOffers_cons]
    split
    · exact List.nil_prefix
    · exact List.prefix_cons_inj _ |>.mpr (ih _)

theorem takenOffers_within (offers : List Offer) : ∀ ask, ∀ x ∈ takenOffers ask offers, x.2 ≤ x.1.amount := by
  induction offers with
  | nil => exact fun _ x h => absurd h List.not_mem_nil
  | cons o offers ih =>
    intro ask x h
    rw [takenOffers_cons] at h
    split at h
    · exact absurd h List.not_mem_nil
    · rcases List.mem_cons.mp h with rfl | h
      · exact Nat.min_le_right ..
      · exact ih _ x h

/-- Each offer but the last is taken whole. -/
theorem takenOffers_whole (offers : List Offer) : ∀ ask before y after, takenOffers ask offers = before ++ y :: after →
    0 < y.1.amount → 0 < y.2 ∧ y.2 ≤ y.1.amount ∧ (after ≠ [] → y.2 = y.1.amount) := by
  induction offers with
  | nil => exact fun _ before y after h => absurd h.symm (by simp [takenOffers])
  | cons o offers ih =>
    intro ask before y after h some
    rw [takenOffers_cons] at h
    split at h
    next => exact absurd h.symm (by simp)
    next asks =>
      cases before with
      | cons x before => exact ih _ before y after (List.cons.inj h).2 some
      | nil =>
        obtain ⟨rfl, rfl⟩ := List.cons.inj h
        dsimp only at some ⊢
        refine ⟨by omega, Nat.min_le_right .., fun more => ?_⟩
        have : ask - o.amount ≠ 0 := fun done => more (by rw [done, takenOffers_zero])
        omega

/-! ### The usable offers -/

/-- An offer whose IN record stands. -/
def Offer.known (loans : List Loan) (o : Offer) : Bool :=
  loans.any fun l => !l.lent && l.partner == o.lender && l.pledge == o.pledge

theorem usableOffers_cons (loans : List Loan) (free : Nat) (o : Offer) (offers : List Offer) :
    usableOffers loans free (o :: offers) = if o.known loans = true then o :: usableOffers loans free offers
      else if free = 0 then usableOffers loans free offers else o :: usableOffers loans (free - 1) offers := rfl

theorem usableOffers_eq (loans : List Loan) (offers : List Offer) (once : (offers.map Offer.lender).Nodup) :
    ∀ free, usableOffers loans free offers = offers.filter fun o =>
      o.known loans || ((offers.filter fun o => !o.known loans).take free).contains o := by
  induction offers with
  | nil => exact fun _ => rfl
  | cons o offers ih =>
    intro free
    obtain ⟨fresh, once⟩ := List.nodup_cons.mp once
    rw [usableOffers_cons]
    by_cases known : o.known loans = true
    · rw [if_pos known, ih once, List.filter_cons_of_pos (by simp [known])]
      rw [List.filter_cons_of_neg (p := fun o : Offer => !o.known loans) (by simp [known])]
    · rw [if_neg known, List.filter_cons_of_pos (p := fun o : Offer => !o.known loans) (by simp [known])]
      cases free with
      | zero =>
        rw [if_pos rfl, ih once, List.filter_cons_of_neg (by simp [known])]
        rfl
      | succ free =>
        rw [if_neg (Nat.succ_ne_zero _), ih once, List.filter_cons_of_pos (by simp), Nat.add_sub_cancel]
        congr 1
        refine List.filter_congr fun x hx => ?_
        have differ : x ≠ o := fun e => fresh (e ▸ List.mem_map_of_mem hx)
        simp [differ]

/-! ### The loans the taken offers make -/

/-- The loan record an offer taken makes. -/
def newLoan (y : Offer × Nat) : Loan := ⟨y.1.lender, false, y.2, .active, y.1.pledge, none, none, none⟩

/-- The loans once an offer is taken (R62). -/
def takeInto (loans : List Loan) (y : Offer × Nat) : List Loan :=
  if y.1.known loans = true then
    loans.map fun l => if l.lent = false ∧ l.partner = y.1.lender then { l with amount := l.amount + y.2 } else l
  else loans ++ [newLoan y]

/-- No IN record has an offer's lender under another pledge id. -/
def NoneStale (loans : List Loan) (taken : List (Offer × Nat)) : Prop :=
  ∀ l ∈ loans, ∀ y ∈ taken, l.lent = false → l.partner = y.1.lender → l.pledge = y.1.pledge

/-- The amount an offer taken adds to its IN record. -/
def Loan.with (taken : List (Offer × Nat)) (l : Loan) : Loan :=
  match taken.find? fun y => !l.lent && l.partner == y.1.lender && l.pledge == y.1.pledge with
  | some y => { l with amount := l.amount + y.2 }
  | none => l

theorem Loan.with_cons_same {taken : List (Offer × Nat)} {y : Offer × Nat} {l : Loan} (lent : l.lent = false)
    (partner : l.partner = y.1.lender) (pledge : l.pledge = y.1.pledge) :
    Loan.with (y :: taken) l = { l with amount := l.amount + y.2 } := by
  unfold Loan.with
  rw [List.find?_cons_of_pos (by simp [lent, partner, pledge])]

theorem Loan.with_cons_other {taken : List (Offer × Nat)} {y : Offer × Nat} {l : Loan}
    (other : ¬ (l.lent = false ∧ l.partner = y.1.lender)) : Loan.with (y :: taken) l = Loan.with taken l := by
  unfold Loan.with
  rw [List.find?_cons_of_neg]
  intro test
  simp only [Bool.and_eq_true, Bool.not_eq_true', beq_iff_eq] at test
  exact other test.1

theorem Loan.with_none {taken : List (Offer × Nat)} {l : Loan}
    (others : ∀ y ∈ taken, l.partner ≠ y.1.lender) : Loan.with taken l = l := by
  unfold Loan.with
  rw [List.find?_eq_none.mpr fun y hy => by simp [others y hy]]

theorem known_iff {loans : List Loan} {o : Offer} : o.known loans = true ↔
    ∃ l ∈ loans, l.lent = false ∧ l.partner = o.lender ∧ l.pledge = o.pledge := by
  simp [Offer.known, and_assoc]

section
variable {loans : List Loan} {y z : Offer × Nat} {taken : List (Offer × Nat)}

/-- An offer with no IN record has none of its lender at all, where none is stale. -/
theorem NoneStale.bare (sound : NoneStale loans (y :: taken)) (new : ¬ y.1.known loans = true) (l : Loan)
    (hl : l ∈ loans) : ¬ (l.lent = false ∧ l.partner = y.1.lender) := fun ⟨lent, partner⟩ =>
  new (known_iff.mpr ⟨l, hl, lent, partner, sound l hl y (List.mem_cons_self ..) lent partner⟩)

theorem takeInto_known_other (other : z.1.lender ≠ y.1.lender) :
    z.1.known (takeInto loans y) = z.1.known loans := by
  rw [Bool.eq_iff_iff, known_iff, known_iff]
  unfold takeInto
  split
  · constructor
    · rintro ⟨l, hl, lent, partner, pledge⟩
      obtain ⟨x, hx, rfl⟩ := List.mem_map.mp hl
      refine ⟨x, hx, ?_⟩
      split at lent <;> simp_all
    · rintro ⟨l, hl, lent, partner, pledge⟩
      refine ⟨l, List.mem_map.mpr ⟨l, hl, if_neg fun h => other ?_⟩, lent, partner, pledge⟩
      exact partner.symm.trans h.2
  · constructor
    · rintro ⟨l, hl, lent, partner, pledge⟩
      rcases List.mem_append.mp hl with hl | hl
      · exact ⟨l, hl, lent, partner, pledge⟩
      · rw [List.mem_singleton.mp hl] at partner
        exact absurd partner.symm other
    · rintro ⟨l, hl, rest⟩
      exact ⟨l, List.mem_append_left _ hl, rest⟩

theorem mem_takeInto {l : Loan} (h : l ∈ takeInto loans y) : (∃ x ∈ loans, l.lent = x.lent ∧
    l.partner = x.partner ∧ l.pledge = x.pledge) ∨ l = newLoan y := by
  unfold takeInto at h
  split at h
  · obtain ⟨x, hx, rfl⟩ := List.mem_map.mp h
    exact .inl ⟨x, hx, by split <;> exact ⟨rfl, rfl, rfl⟩⟩
  · rcases List.mem_append.mp h with h | h
    · exact .inl ⟨l, h, rfl, rfl, rfl⟩
    · exact .inr (List.mem_singleton.mp h)

theorem NoneStale.next (sound : NoneStale loans (y :: taken)) (fresh : ∀ z ∈ taken, z.1.lender ≠ y.1.lender) :
    NoneStale (takeInto loans y) taken := by
  intro l hl z hz lent partner
  rcases mem_takeInto hl with ⟨x, hx, lent', partner', pledge⟩ | rfl
  · rw [pledge]
    exact sound x hx z (List.mem_cons_of_mem _ hz) (lent'.symm.trans lent) (partner'.symm.trans partner)
  · exact absurd partner.symm (fresh z hz)

/-- Taking offers of several lenders adds to the IN records they have, and makes the others. -/
theorem foldl_takeInto (taken : List (Offer × Nat)) : ∀ loans, ((taken.map Prod.fst).map Offer.lender).Nodup →
    NoneStale loans taken → taken.foldl takeInto loans =
      loans.map (Loan.with taken) ++ (taken.filter fun y => !y.1.known loans).map newLoan := by
  induction taken with
  | nil =>
    intro loans _ _
    have : Loan.with [] = id := rfl
    simp [this]
  | cons y taken ih =>
    intro loans once sound
    obtain ⟨fresh, once⟩ := List.nodup_cons.mp once
    have differ (z : Offer × Nat) (hz : z ∈ taken) : z.1.lender ≠ y.1.lender := fun e =>
      fresh (List.mem_map.mpr ⟨z.1, List.mem_map_of_mem hz, e⟩)
    have others : (taken.filter fun z => !z.1.known (takeInto loans y)) = taken.filter fun z => !z.1.known loans :=
      List.filter_congr fun z hz => by rw [takeInto_known_other (differ z hz)]
    rw [List.foldl_cons, ih _ once (sound.next differ), others]
    by_cases known : y.1.known loans = true
    · rw [List.filter_cons_of_neg (by simp [known])]
      unfold takeInto
      rw [if_pos known, List.map_map]
      congr 1
      refine List.map_congr_left fun l hl => ?_
      rw [Function.comp_apply]
      by_cases same : l.lent = false ∧ l.partner = y.1.lender
      · have pledge := sound l hl y (List.mem_cons_self ..) same.1 same.2
        rw [if_pos same, Loan.with_cons_same same.1 same.2 pledge, Loan.with_none]
        exact fun z hz e => differ z hz (e.symm.trans same.2)
      · rw [if_neg same, Loan.with_cons_other same]
    · rw [List.filter_cons_of_pos (by simp [known]), List.map_cons]
      unfold takeInto
      rw [if_neg known, List.map_append, List.append_assoc]
      congr 1
      · exact List.map_congr_left fun l hl => (Loan.with_cons_other (sound.bare known l hl)).symm
      · rw [List.map_singleton, Loan.with_none fun z hz => (differ z hz).symm]
        rfl

theorem takeInto_apart (apart : PartnersApart loans) (sound : NoneStale loans (y :: taken)) :
    PartnersApart (takeInto loans y) := by
  unfold takeInto
  split
  · refine List.Pairwise.map _ (fun a b h => ?_) apart
    have keeps (x : Loan) : (if x.lent = false ∧ x.partner = y.1.lender then { x with amount := x.amount + y.2 } else
        x).lent = x.lent ∧ (if x.lent = false ∧ x.partner = y.1.lender then { x with amount := x.amount + y.2 } else
        x).partner = x.partner := by split <;> exact ⟨rfl, rfl⟩
    rw [(keeps a).1, (keeps a).2, (keeps b).1, (keeps b).2]
    exact h
  next new =>
    refine List.pairwise_append.mpr ⟨apart, List.pairwise_singleton _ _, fun a ha b hb lent partner => ?_⟩
    rw [List.mem_singleton.mp hb] at lent partner
    exact sound.bare new a ha ⟨lent, partner⟩

/-- What the station has borrowed. -/
def borrowed (loans : List Loan) : Nat := ((loans.filter fun l => !l.lent).map Loan.amount).sum

/-- What the station has lent. -/
def lent (loans : List Loan) : Nat := ((loans.filter Loan.lent).map Loan.total).sum

theorem borrowed_add {n partner : Nat} (apart : PartnersApart loans) (there : ∃ l ∈ loans, l.lent = false ∧
    l.partner = partner) : borrowed (loans.map fun l => if l.lent = false ∧ l.partner = partner then
      { l with amount := l.amount + n } else l) = borrowed loans + n := by
  obtain ⟨l, hl, in_, same⟩ := there
  obtain ⟨before, after, rfl⟩ := List.append_of_mem hl
  obtain ⟨-, later, first⟩ := List.pairwise_append.mp apart
  have rest (m : List Loan) (h : ∀ x ∈ m, ¬ (x.lent = false ∧ x.partner = partner)) : (m.map fun l =>
      if l.lent = false ∧ l.partner = partner then { l with amount := l.amount + n } else l) = m :=
    (List.map_congr_left fun x hx => if_neg (h x hx)).trans (List.map_id m)
  rw [List.map_append, List.map_cons, rest before, rest after, if_pos ⟨in_, same⟩]
  · unfold borrowed
    simp only [List.filter_append, List.filter_cons, in_, Bool.not_false, if_true, List.map_append, List.map_cons,
      List.sum_append, List.sum_cons]
    omega
  · exact fun x hx h => (List.pairwise_cons.mp later).1 x hx (in_.trans h.1.symm) (same.trans h.2.symm)
  · exact fun x hx h => first x hx l (List.mem_cons_self ..) (h.1.trans in_.symm) (h.2.trans same.symm)

theorem takeInto_sums (apart : PartnersApart loans) : borrowed (takeInto loans y) = borrowed loans + y.2 ∧
    lent (takeInto loans y) = lent loans := by
  unfold takeInto
  split
  next known =>
    obtain ⟨l, hl, in_, partner, -⟩ := known_iff.mp known
    refine ⟨borrowed_add apart ⟨l, hl, in_, partner⟩, ?_⟩
    unfold lent
    have keeps : (Loan.lent ∘ fun x : Loan => if x.lent = false ∧ x.partner = y.1.lender then
        { x with amount := x.amount + y.2 } else x) = Loan.lent := by
      funext x
      rw [Function.comp_apply]
      split <;> rfl
    rw [List.filter_map, List.map_map, keeps]
    congr 1
    refine List.map_congr_left fun x hx => ?_
    have out := (List.mem_filter.mp hx).2
    rw [Function.comp_apply, if_neg (by simp [out])]
  · simp [borrowed, lent, newLoan]

end

end Sys2Proof.Machine
end

section
/-! PROOFS. O44: the ask, its collection and the takes at its close (R61 to R63). -/

namespace Sys2Proof.Machine

set_option Elab.async false

section
variable {s t u : State} {frames more : List Frame} {c : Collection} {d : Demand} {rest : List Demand}

/-! ### Frames queued one after the other -/

/-- What queueing some frames ON LINE with room leaves in the transmit queue. -/
def Sends (frames : List Frame) (s t : State) : Prop :=
  s.lif.state = .onLine → s.lif.tx.length + frames.length ≤ 12 →
    t.lif.state = .onLine ∧ t.lif.tx.length = s.lif.tx.length + frames.length ∧
    (∀ f ∈ s.lif.tx, f ∈ t.lif.tx) ∧ ∀ g ∈ frames, ∃ f ∈ t.lif.tx, f.frame = g

theorem Sends.nothing (lif : t.lif = s.lif) : Sends [] s t := by
  intro on _
  rw [lif]
  exact ⟨on, rfl, fun _ h => h, fun _ h => absurd h List.not_mem_nil⟩

theorem Sends.trans (first : Sends frames s t) (second : Sends more t u) : Sends (frames ++ more) s u := by
  intro on room
  rw [List.length_append] at room ⊢
  obtain ⟨on', long, keeps, sent⟩ := first on (by omega)
  obtain ⟨on'', long', keeps', sent'⟩ := second on' (by omega)
  refine ⟨on'', by omega, fun f h => keeps' f (keeps f h), fun g h => ?_⟩
  rcases List.mem_append.mp h with h | h
  · obtain ⟨f, hf, same⟩ := sent g h
    exact ⟨f, keeps' f hf, same⟩
  · exact sent' g h

theorem sends_queueFrame {kind : Nat} {fields : List (Nat × Nat)} {data : List Byte} (lif : u.lif = s.lif) (me : Nat)
    (accepted : 1 ≤ kind ∧ kind ≤ 16 := by decide) (fits : keyWidth fields ≤ 19 := by simp [keyWidth]) :
    Sends [mkFrame kind fields me data] s (u.queueFrame (mkFrame kind fields me data)) := by
  intro on room
  rw [← lif] at on room ⊢
  rw [queueFrame_mk on (Nat.lt_of_succ_le room) me accepted fits]
  refine ⟨on, length_txInsert .., fun f h => mem_txInsert.mpr (.inr h), fun g h => ?_⟩
  rw [List.mem_singleton.mp h]
  exact ⟨_, mem_txInsert.mpr (.inl rfl), rfl⟩

/-- A frame queued for each item of a list. -/
theorem Sends.foldl {α : Type} {step : State → α → State} {frame : Nat → α → Frame}
    (one : ∀ s a, Sends [frame s.me a] s (step s a)) (me : ∀ s a, (step s a).me = s.me) (items : List α) :
    ∀ s : State, Sends (items.map (frame s.me)) s (items.foldl step s) := by
  induction items with
  | nil => exact fun s => .nothing rfl
  | cons a items ih =>
    intro s
    have later := ih (step s a)
    rw [me] at later
    exact (one s a).trans later

theorem Sends.on_pwb {pwb : Pwb} (h : Sends frames { s with pwb := pwb } t) : Sends frames s t := h

theorem me_of_straps (straps : t.straps = s.straps) : t.me = s.me := by
  unfold State.me
  rw [straps]

theorem declineOffers_sends (offers : List Offer) (s : State) :
    Sends (offers.map fun o => loanDeclineFrame s.me o.lender o.pledge) s (s.declineOffers offers) :=
  Sends.foldl (frame := fun me (o : Offer) => loanDeclineFrame me o.lender o.pledge)
    (fun s o => sends_queueFrame (kind := 7) (fields := [(5, o.lender), (8, o.pledge)]) rfl s.me)
    (fun s o => me_of_straps ((within_queueFrame s _).frame .straps (by decide))) offers s

theorem declineOffers_declined (offers : List Offer) (s : State) : Declined offers s (s.declineOffers offers) := by
  refine ⟨fun on room o ho => ?_, ((within_declineOffers s offers).widen (qs := [.lif])).frame⟩
  obtain ⟨-, -, -, sent⟩ := declineOffers_sends offers s on (by rw [List.length_map]; exact room)
  exact sent _ (List.mem_map.mpr ⟨o, ho, rfl⟩)

/-! ### The takes -/

/-- The station with other loans. -/
def State.withLoans (s : State) (loans : List Loan) : State := { s with pwb := { s.pwb with loans := loans } }

theorem loan?_known (s : State) (o : Offer) : (s.loan? false o.lender o.pledge).isSome = o.known s.pwb.loans := by
  unfold State.loan? Offer.known
  rw [Bool.eq_iff_iff, List.find?_isSome]
  simp

theorem takeOffer_eq (s : State) (y : Offer × Nat) : s.takeOffer y =
    (s.withLoans (takeInto s.pwb.loans y)).queueFrame (loanTakeFrame s.me y.1.lender y.1.pledge y.2) := by
  have inside : (if (s.loan? false y.1.lender y.1.pledge).isSome = true then
      s.modLoan false y.1.lender fun l => { l with amount := l.amount + y.2 }
      else s.withLoans (s.pwb.loans ++ [newLoan y])) = s.withLoans (takeInto s.pwb.loans y) := by
    rw [loan?_known]
    unfold takeInto
    split
    · rw [modLoan_eq]
      rfl
    · rfl
  rw [← inside]
  unfold State.takeOffer
  dsimp only
  split <;> rfl

theorem takeOffer_sends (s : State) (y : Offer × Nat) :
    Sends [loanTakeFrame s.me y.1.lender y.1.pledge y.2] s (s.takeOffer y) := by
  rw [takeOffer_eq]
  exact sends_queueFrame (u := s.withLoans (takeInto s.pwb.loans y)) (kind := 6)
    (fields := [(5, y.1.lender), (8, y.1.pledge)]) (data := beBytes 2 y.2) rfl s.me

theorem takeOffer_pwb (s : State) (y : Offer × Nat) :
    (s.takeOffer y).pwb = { s.pwb with loans := takeInto s.pwb.loans y } := by
  rw [takeOffer_eq, (within_queueFrame _ _).pwb]
  rfl

theorem foldl_takeOffer_pwb (taken : List (Offer × Nat)) : ∀ s : State,
    (taken.foldl State.takeOffer s).pwb = { s.pwb with loans := taken.foldl takeInto s.pwb.loans } := by
  induction taken with
  | nil => exact fun s => rfl
  | cons y taken ih =>
    intro s
    rw [List.foldl_cons, ih, takeOffer_pwb]
    rfl

theorem foldl_takeOffer_sends (taken : List (Offer × Nat)) (s : State) :
    Sends (taken.map fun y => loanTakeFrame s.me y.1.lender y.1.pledge y.2) s (taken.foldl State.takeOffer s) :=
  Sends.foldl (frame := fun me (y : Offer × Nat) => loanTakeFrame me y.1.lender y.1.pledge y.2) takeOffer_sends
    (fun s y => me_of_straps ((within_takeOffer s y).frame .straps (by decide))) taken s

theorem foldl_takeInto_sums (taken : List (Offer × Nat)) : ∀ loans, ((taken.map Prod.fst).map Offer.lender).Nodup →
    NoneStale loans taken → PartnersApart loans →
    borrowed (taken.foldl takeInto loans) = borrowed loans + (taken.map Prod.snd).sum ∧
    lent (taken.foldl takeInto loans) = lent loans := by
  induction taken with
  | nil => exact fun loans _ _ _ => ⟨rfl, rfl⟩
  | cons y taken ih =>
    intro loans once sound apart
    obtain ⟨fresh, once⟩ := List.nodup_cons.mp once
    have differ (z : Offer × Nat) (hz : z ∈ taken) : z.1.lender ≠ y.1.lender := fun e =>
      fresh (List.mem_map.mpr ⟨z.1, List.mem_map_of_mem hz, e⟩)
    obtain ⟨more, out⟩ := ih _ once (sound.next differ) (takeInto_apart apart sound)
    obtain ⟨first, same⟩ := takeInto_sums (y := y) apart
    rw [List.foldl_cons, more, out, first, same, List.map_cons, List.sum_cons]
    exact ⟨by omega, rfl⟩

theorem ceiling_loans (s : State) : s.ceiling = s.settings.baseShare + borrowed s.pwb.loans - lent s.pwb.loans := rfl

/-! ### The close -/

/-- The offers taken at a close, and those declined (R62). -/
def State.taking (s : State) (taken : List (Offer × Nat)) (offers : List Offer) : State :=
  (taken.foldl State.takeOffer s).declineOffers (offers.filter fun o => !(taken.map Prod.fst).contains o)

theorem taking_pwb (s : State) (taken : List (Offer × Nat)) (offers : List Offer) :
    (s.taking taken offers).pwb = { s.pwb with loans := taken.foldl takeInto s.pwb.loans } :=
  (within_declineOffers _ _).pwb.trans (foldl_takeOffer_pwb taken s)

theorem within_taking (s : State) (taken : List (Offer × Nat)) (offers : List Offer) :
    Within [.lif, .pwb] s (s.taking taken offers) :=
  ((Within.foldl _ within_takeOffer _ s).andThen (within_declineOffers _ _) :
    Within [.pwb, .lif] s _).mono (by decide)

theorem taking_frames (s : State) {taken : List (Offer × Nat)} {offers : List Offer}
    (among : (taken.map Prod.fst).Sublist offers) (on : s.lif.state = .onLine)
    (room : s.lif.tx.length + offers.length ≤ 12) : ∀ o ∈ offers,
    (∀ y ∈ taken, y.1 = o → ∃ f ∈ (s.taking taken offers).lif.tx, f.frame = loanTakeFrame s.me o.lender o.pledge y.2) ∧
    ((∀ y ∈ taken, y.1 ≠ o) → ∃ f ∈ (s.taking taken offers).lif.tx,
      f.frame = loanDeclineFrame s.me o.lender o.pledge) := by
  have me : (taken.foldl State.takeOffer s).me = s.me :=
    me_of_straps ((Within.foldl _ within_takeOffer _ s).frame .straps (by decide))
  have declines := declineOffers_sends (offers.filter fun o => !(taken.map Prod.fst).contains o)
    (taken.foldl State.takeOffer s)
  rw [me] at declines
  have fewer : taken.length ≤ (offers.filter fun o => (taken.map Prod.fst).contains o).length := by
    have := (among.filter fun o => (taken.map Prod.fst).contains o).length_le
    rwa [List.filter_eq_self.mpr fun o h => List.contains_iff_mem.mpr h, List.length_map] at this
  have parts := List.length_eq_length_filter_add (l := offers) fun o => (taken.map Prod.fst).contains o
  obtain ⟨-, -, -, sent⟩ := (foldl_takeOffer_sends taken s).trans declines on (by
    rw [List.length_append, List.length_map, List.length_map]
    omega)
  refine fun o ho => ⟨fun y hy same => ?_, fun out => ?_⟩
  · subst same
    exact sent _ (List.mem_append_left _ (List.mem_map.mpr ⟨y, hy, rfl⟩))
  · refine sent _ (List.mem_append_right _ (List.mem_map.mpr ⟨o, List.mem_filter.mpr ⟨ho, ?_⟩, rfl⟩))
    rw [Bool.not_eq_true', ← Bool.not_eq_true, List.contains_iff_mem]
    intro h
    obtain ⟨y, hy, same⟩ := List.mem_map.mp h
    exact out y hy same

theorem shedPass_loans (s : State) : s.shedPass.pwb.loans = s.pwb.loans := by
  obtain ⟨taken, left, -, runs, -, -⟩ := foldl_shedTurn_prefix s.shedOrder s
  rw [shedPass_eq, runs]
  have keeps (taken : List OutletLoad) : ∀ s : State,
      (taken.foldl (fun s e => s.shedOutlet e) s).pwb.loans = s.pwb.loans := by
    induction taken with
    | nil => exact fun s => rfl
    | cons e taken ih =>
      intro s
      rw [List.foldl_cons, ih, shedOutlet_pwb]
  exact keeps taken s

theorem exec_collectionClose {k : Nat} (on : s.powered = true) (asks : s.pwb.collection = some c)
    (close : c.closeAt = some k) : exec .collectionClose s = .next ((s.advanceTo k).closeCollection c) := by
  show Host.Outcome.next (s.event _) = _
  rw [State.event_on on]
  simp only [asks, close]

theorem askerHead_some (queue : s.pwb.demands = d :: rest) (asks : d.id = c.demand) : s.askerHead c = some d := by
  unfold State.askerHead
  rw [queue]
  exact if_pos asks

theorem askerHead_none (other : ∀ d more, s.pwb.demands = d :: more → d.id ≠ c.demand) : s.askerHead c = none := by
  unfold State.askerHead
  split
  next d more queue => exact if_neg (other d more queue)
  next => rfl

/-- What the head that asked takes of the usable offers (R62). -/
theorem takeAsked_eq (s : State) (c : Collection) (d : Demand) : s.takeAsked c d =
    if c.amount ≤ ((usableOffers s.pwb.loans (16 - s.pwb.loans.length) c.offers).map Offer.amount).sum then
      let x := s.taking (takenOffers c.amount (usableOffers s.pwb.loans (16 - s.pwb.loans.length) c.offers)) c.offers
      if x.fits d = true then x.settle else (x.failHead d .budget false).settle
    else ((s.declineOffers c.offers).failHead d .budget true).settle := rfl

theorem closeOffers_asker {b : Bool} (queue : s.pwb.demands = d :: rest) (asks : d.id = c.demand) :
    s.closeOffers c b = s.takeAsked c d := by
  unfold State.closeOffers
  rw [askerHead_some queue asks]

theorem closeOffers_gone {b : Bool} (other : ∀ d more, s.pwb.demands = d :: more → d.id ≠ c.demand) :
    s.closeOffers c b = if b = true ∨ s.pwb.demands ≠ [] then (s.declineOffers c.offers).settle
      else s.declineOffers c.offers := by
  unfold State.closeOffers
  rw [askerHead_none other]
  dsimp only
  rw [(within_declineOffers s c.offers).pwb]
  refine if_congr ?_ rfl rfl
  simp

theorem closeCollection_eq (s : State) (c : Collection) : s.closeCollection c =
    (if decide ((s.endStale c).ceiling < (s.endStale c).load) = true then (s.endStale c).shedPass
      else s.endStale c).closeOffers c (decide ((s.endStale c).ceiling < (s.endStale c).load)) := by
  unfold State.closeCollection
  dsimp only
  by_cases short : (s.endStale c).ceiling < (s.endStale c).load
  · rw [if_pos short, if_pos (decide_eq_true short), decide_eq_true short]
  · rw [if_neg short, decide_eq_false short, if_neg Bool.false_ne_true]

end

end Sys2Proof.Machine
end

section
/-! PROOFS. O44, the obligation: asking, the collection and its takes (R61 to R63). -/

namespace Sys2Proof.Machine

set_option Elab.async false

section
variable {s u : State} {src : RxSource} {f : Frame} {note : Option Nat} {c : Collection} {rep : Report}
  {d : Demand} {list : List Report} {o : Offer} {queue : List Demand} {k : Nat}

theorem askFailed_asker (demands : s.pwb.demands = d :: queue) (asks : d.id = c.demand) : s.askFailed c =
    (({ s with pwb := { s.pwb with collection := none } } : State).failHead d .budget true).settle := by
  unfold State.askFailed
  dsimp only
  rw [askerHead_some (s := { s with pwb := { s.pwb with collection := none } }) demands asks]

theorem exec_loanAskReport (on : s.powered = true)
    (got : takeFirst (fun x => x.frame.kind == 4) s.lif.reports = some (rep, list))
    (asks : s.pwb.collection = some c) (own : c.frame = rep.serial) : exec .loanAskReport s =
      .next (if rep.sent = true then { s with
          lif := { s.lif with reports := list }
          pwb := { s.pwb with collection := some { c with closeAt := some (s.elapsed + 300000) } } }
        else ({ s with lif := { s.lif with reports := list } } : State).askFailed c) := by
  have decided : exec .loanAskReport s = .next _ := congrArg Host.Outcome.next (State.reportEvent_taken on got)
  refine decided.trans ?_
  simp only [asks, own, if_true]
  rfl

theorem exec_loanOfferFrame (on : s.powered = true) (got : s.takeRx 5 src = some (f, note, u)) :
    (∀ c, u.pwb.collection = some c → c.seq = f.keyField 5 8 → exec (.loanOfferFrame src) s =
      .next (if (c.offers.any fun x => x.lender == f.sender) = true then u else { u with
        pwb := { u.pwb with
          collection := some { c with offers := c.offers ++ [⟨f.sender, f.num 0 2, f.num 2 1⟩] } } })) ∧
    ((∀ c, u.pwb.collection = some c → c.seq ≠ f.keyField 5 8) → exec (.loanOfferFrame src) s =
      .next (u.queueFrame (loanDeclineFrame u.me f.sender (f.num 2 1)))) := by
  have decided : exec (.loanOfferFrame src) s = .next _ := congrArg Host.Outcome.next (State.frameEvent_taken on got)
  refine ⟨fun c asks own => decided.trans ?_, fun other => decided.trans ?_⟩
  · simp only [asks, own, if_true]
  · cases asks : u.pwb.collection with
    | none =>
      rfl
    | some c =>
      simp only [other c asks, if_false]
      rfl

/-- One offer of a lender with no IN record, room for one: it is usable (R62). -/
theorem usableOffers_one {loans : List Loan} (bare : ∀ l ∈ loans, l.lent = false → l.partner ≠ o.lender)
    (few : loans.length < 16) : usableOffers loans (16 - loans.length) [o] = [o] := by
  have new : ¬ o.known loans = true := fun known => by
    obtain ⟨l, hl, in_, partner, -⟩ := known_iff.mp known
    exact bare l hl in_ partner
  rw [usableOffers_cons, if_neg new, if_neg (by omega)]
  rfl

theorem exec_loanTakeReport (on : s.powered = true)
    (got : takeFirst (fun x => x.frame.kind == 6) s.lif.reports = some (rep, list)) : exec .loanTakeReport s =
      .next (if rep.sent = true then { s with lif := { s.lif with reports := list } }
        else ({ s with lif := { s.lif with reports := list } } : State).undoTake (rep.frame.keyField 0 5)
          (rep.frame.keyField 5 8) (rep.frame.num 0 2)) :=
  congrArg Host.Outcome.next (State.reportEvent_taken on got)

theorem undoTake_eq {lender pledge taken : Nat} {l : Loan} (found : s.loan? false lender pledge = some l) :
    (l.amount ≤ taken → s.undoTake lender pledge taken = (s.withLoans (s.pwb.loans.filter fun x =>
      !(!x.lent && x.partner == lender && x.pledge == pledge))).ceilingFell) ∧
    (taken < l.amount → s.undoTake lender pledge taken = (s.withLoans (s.pwb.loans.map fun x =>
      if x.lent = false ∧ x.partner = lender then { x with amount := x.amount - taken } else x)).ceilingFell) := by
  unfold State.undoTake
  rw [found]
  dsimp only
  refine ⟨fun all => ?_, fun part => ?_⟩
  · rw [if_pos all]
    rfl
  · rw [if_neg (by omega), modLoan_eq]
    rfl

/-- The stale records end, and the collection with them (R62). -/
theorem endStale_advanced (s : State) (k : Nat) (c : Collection) : (s.advanceTo k).endStale c =
    { s.advanceTo k with pwb := { s.pwb with
      collection := none
      loans := s.pwb.loans.filter fun l => !l.stale c.offers } } := by
  unfold State.endStale State.dropLoans
  rw [advanceTo_pwb]

/-- No IN record left is stale against an offer of the collection. -/
theorem noneStale_of_filter {loans : List Loan} {offers : List Offer} {taken : List (Offer × Nat)}
    (among : ∀ y ∈ taken, y.1 ∈ offers) : NoneStale (loans.filter fun l => !l.stale offers) taken := by
  intro l hl y hy in_ partner
  by_contra differ
  have fresh := (List.mem_filter.mp hl).2
  rw [Bool.not_eq_true', ← Bool.not_eq_true] at fresh
  refine fresh ?_
  unfold Loan.stale
  rw [Bool.and_eq_true, in_]
  refine ⟨rfl, List.any_eq_true.mpr ⟨y.1, among y hy, ?_⟩⟩
  rw [Bool.and_eq_true, beq_iff_eq, bne_iff_ne]
  exact ⟨partner.symm, fun same => differ same.symm⟩

end

/-- The close with one offer, of a lender with no IN record (R62). -/
theorem closeCollection_one {s : State} {c : Collection} {d : Demand} {more : List Demand} {o : Offer}
    (queue : s.pwb.demands = d :: more) (asks : d.id = c.demand) (offers : c.offers = [o])
    (enough : (s.load : Int) ≤ s.ceiling) (few : s.pwb.loans.length < 16)
    (bare : ∀ l ∈ s.pwb.loans, l.lent = false → l.partner ≠ o.lender) (some : 0 < c.amount)
    {v : State} (hv : v = { s with pwb := { s.pwb with collection := none } }) :
    (c.amount ≤ o.amount → s.closeCollection c =
      if State.fits ((v.withLoans (s.pwb.loans ++ [newLoan (o, c.amount)])).queueFrame
          (loanTakeFrame s.me o.lender o.pledge c.amount)) d = true then
        ((v.withLoans (s.pwb.loans ++ [newLoan (o, c.amount)])).queueFrame
          (loanTakeFrame s.me o.lender o.pledge c.amount)).settle
      else (((v.withLoans (s.pwb.loans ++ [newLoan (o, c.amount)])).queueFrame
          (loanTakeFrame s.me o.lender o.pledge c.amount)).failHead d .budget false).settle) ∧
    (o.amount < c.amount → s.closeCollection c =
      ((v.queueFrame (loanDeclineFrame s.me o.lender o.pledge)).failHead d .budget true).settle) := by
  have keeps : s.endStale c = v := by
    have all : s.pwb.loans.filter (fun l => !l.stale c.offers) = s.pwb.loans :=
      List.filter_eq_self.mpr fun l hl => by
        rw [offers]
        cases in_ : l.lent
        · simp [Loan.stale, in_, (bare l hl in_).symm]
        · simp [Loan.stale, in_]
    rw [hv]
    unfold State.endStale State.dropLoans
    dsimp only
    rw [all]
  have fits : ¬ v.ceiling < v.load := by
    rw [hv]
    exact not_lt.mpr enough
  have loans : v.pwb.loans = s.pwb.loans := by rw [hv]
  have usable := usableOffers_one bare few
  rw [closeCollection_eq, keeps, decide_eq_false fits, if_neg Bool.false_ne_true,
    closeOffers_asker (d := d) (rest := more) (by rw [hv]; exact queue) asks, takeAsked_eq, loans, offers, usable]
  have total : ([o].map Offer.amount).sum = o.amount := by simp
  rw [total]
  refine ⟨fun covers => ?_, fun short => ?_⟩
  · have taken : takenOffers c.amount [o] = [(o, c.amount)] := by
      rw [takenOffers_cons, if_neg (by omega), Nat.min_eq_left covers]
      rfl
    have new : ¬ o.known v.pwb.loans = true := fun known => by
      obtain ⟨l, hl, in_, partner, -⟩ := known_iff.mp known
      exact bare l (loans ▸ hl) in_ partner
    have takes : v.taking [(o, c.amount)] [o] = (v.withLoans (s.pwb.loans ++ [newLoan (o, c.amount)])).queueFrame
        (loanTakeFrame s.me o.lender o.pledge c.amount) := by
      unfold State.taking
      have none : [o].filter (fun x => !(List.map Prod.fst [(o, c.amount)]).contains x) = [] := by simp
      rw [none, List.foldl_cons, List.foldl_nil, takeOffer_eq]
      unfold takeInto
      rw [if_neg new, loans, hv]
      rfl
    rw [if_pos covers, taken]
    dsimp only
    rw [takes]
  · rw [if_neg (by omega), hv]
    rfl

/-- What the head that asked takes at the close, where the usable offers cover its ask (R62). -/
theorem takes_cover {w : State} {offers : List Offer} {taken : List (Offer × Nat)}
    (once : (offers.map Offer.lender).Nodup) (among : (taken.map Prod.fst).Sublist offers)
    (sound : NoneStale w.pwb.loans taken) (apart : PartnersApart w.pwb.loans) :
    (w.taking taken offers).pwb = { w.pwb with
      loans := w.pwb.loans.map (Loan.with taken) ++ (taken.filter fun y => !y.1.known w.pwb.loans).map newLoan } ∧
    (w.taking taken offers).ceiling = w.ceiling + (taken.map Prod.snd).sum := by
  have once' : ((taken.map Prod.fst).map Offer.lender).Nodup := once.sublist (among.map _)
  obtain ⟨in_, out⟩ := foldl_takeInto_sums taken w.pwb.loans once' sound apart
  have settings : (w.taking taken offers).settings = w.settings :=
    (within_taking w taken offers).frame .settings (by decide)
  refine ⟨?_, ?_⟩
  · rw [taking_pwb, foldl_takeInto taken w.pwb.loans once' sound]
  · rw [ceiling_loans, ceiling_loans, settings, taking_pwb]
    dsimp only
    rw [in_, out]
    omega

/-- Settles O44: the ask's report and the offers as they come, the takes at the close (`foldl_takeInto`,
`takes_cover`), and the failed TAKE (`undoTake_eq`). -/
theorem askingCollectsAndTakes : Obligations.AskingCollectsAndTakes := by
  refine ⟨fun rep rest c s on got asks own => ?_, fun src f note s u on got => ?_, fun ask offers enough => ?_,
    fun c d more o k s on asks close queue own offers enough few bare some => ?_,
    fun c k s on asks close once apart => ?_, fun rep rest l s on got => ?_⟩
  · intro v
    have runs := exec_loanAskReport on got asks own
    refine ⟨fun sent => ?_, fun failed d more queue head => ?_⟩
    · rw [runs, if_pos sent]
    · rw [runs, if_neg (by simp [failed]),
        askFailed_asker (s := { s with lif := { s.lif with reports := rest } }) queue head]
  · intro o
    obtain ⟨own, other⟩ := exec_loanOfferFrame on got
    obtain ⟨rx, loop, rfl⟩ := takeRx_eq got
    refine ⟨fun c asks seq => ⟨fun known => ?_, fun new => ?_⟩, fun none => other none⟩
    · refine (own c asks seq).trans (congrArg Host.Outcome.next (if_pos ?_))
      obtain ⟨x, hx, same⟩ := known
      exact List.any_eq_true.mpr ⟨x, hx, beq_iff_eq.mpr same⟩
    · refine (own c asks seq).trans (congrArg Host.Outcome.next (if_neg ?_))
      intro known
      obtain ⟨x, hx, same⟩ := List.any_eq_true.mp known
      exact new x hx (beq_iff_eq.mp same)
  · exact ⟨takenOffers_sum offers ask enough, takenOffers_prefix offers ask, takenOffers_within offers ask⟩
  · intro v
    have me : (s.advanceTo k).me = s.me := me_of_straps (advanceTo_straps s k)
    have same : v = { s.advanceTo k with pwb := { (s.advanceTo k).pwb with collection := none } } := by
      rw [advanceTo_pwb]
    obtain ⟨covers, short⟩ := closeCollection_one (s := s.advanceTo k) (by rw [advanceTo_pwb]; exact queue) own offers
      (by
        have load : (s.advanceTo k).load = s.load := load_congr (by rw [advanceTo_pwb]) (by
          unfold State.pumpLoads
          rw [advanceTo_fdc])
        have ceiling : (s.advanceTo k).ceiling = s.ceiling :=
          ceiling_congr (advanceTo_settings s k) (by rw [advanceTo_pwb])
        rw [load, ceiling]
        exact enough) (by rw [advanceTo_pwb]; exact few) (by rw [advanceTo_pwb]; exact bare) some same
    rw [me, advanceTo_pwb] at covers
    rw [me] at short
    have runs := exec_collectionClose on asks close
    exact ⟨fun h => runs.trans (congrArg Host.Outcome.next (covers h)),
      fun h => runs.trans (congrArg Host.Outcome.next (short h))⟩
  · intro stale v short w known placed usable asker
    have ends : (s.advanceTo k).endStale c = v := endStale_advanced s k c
    have runs : exec .collectionClose s = .next (w.closeOffers c short) :=
      (exec_collectionClose on asks close).trans (congrArg Host.Outcome.next
        ((closeCollection_eq (s.advanceTo k) c).trans (by rw [ends])))
    have loans : w.pwb.loans = v.pwb.loans := by
      show (if short = true then v.shedPass else v).pwb.loans = v.pwb.loans
      split
      · exact shedPass_loans v
      · rfl
    have apart' : PartnersApart w.pwb.loans := by
      rw [loans]
      exact List.Pairwise.filter _ apart
    have within : Within [.pwb, .spc] v w := .ite (within_shedPass v) (.refl _ v)
    have lif : w.lif = s.lif := (within.frame .lif (by decide)).trans (advanceTo_lif s k)
    have me : w.me = s.me := me_of_straps ((within.frame .straps (by decide)).trans (advanceTo_straps s k))
    have offers : usableOffers w.pwb.loans (16 - w.pwb.loans.length) c.offers = usable :=
      usableOffers_eq w.pwb.loans c.offers once _
    clear_value usable
    refine ⟨fun gone => ⟨w.declineOffers c.offers, declineOffers_declined c.offers w, runs.trans ?_⟩,
      fun d more queue head => ?_⟩
    · rw [closeOffers_gone gone]
    · rw [closeOffers_asker queue head, takeAsked_eq, offers] at runs
      refine ⟨fun few => ⟨w.declineOffers c.offers, declineOffers_declined c.offers w, runs.trans ?_⟩, fun covers => ?_⟩
      · rw [if_neg (by omega)]
      · have first := takenOffers_prefix usable c.amount
        have whole := takenOffers_whole usable c.amount
        have sum := takenOffers_sum usable c.amount covers
        have among : ((takenOffers c.amount usable).map Prod.fst).Sublist c.offers := by
          refine first.sublist.trans ?_
          rw [← offers, usableOffers_eq _ _ once]
          exact List.filter_sublist
        have sound : NoneStale w.pwb.loans (takenOffers c.amount usable) := by
          rw [loans]
          exact noneStale_of_filter fun y hy => among.subset (List.mem_map_of_mem hy)
        rw [if_pos covers] at runs
        generalize takenOffers c.amount usable = taken at first whole sum among sound runs
        obtain ⟨pwb, ceiling⟩ := takes_cover once among sound apart'
        have frames := taking_frames w among
        rw [lif, me] at frames
        rw [sum] at ceiling
        exact ⟨taken, w.taking taken c.offers, first, sum, whole, pwb, ceiling, frames,
          ((within_taking w taken c.offers).widen (qs := [.lif, .pwb])).frame, runs⟩
  · intro lender pledge taken v
    have runs := exec_loanTakeReport on got
    refine ⟨fun sent => runs.trans (congrArg Host.Outcome.next (if_pos sent)), fun failed found => ?_⟩
    obtain ⟨all, part⟩ := undoTake_eq (s := v) (taken := taken) found
    have fails : exec .loanTakeReport s = .next (v.undoTake lender pledge taken) :=
      runs.trans (congrArg Host.Outcome.next (if_neg (by simp [failed])))
    exact ⟨fun h => fails.trans (congrArg Host.Outcome.next (all h)),
      fun h => fails.trans (congrArg Host.Outcome.next (part h))⟩

end Sys2Proof.Machine
end

section
/-! PROOFS. What SPC's offer of an ENERGISE demand does (R56, R57, R78), and what follows for outlet and tap. -/

namespace Sys2Proof.Machine

set_option Elab.async false

section
variable {s u t : State} {q figure n : Nat} {x p : Point} {r : Occupancy} {y : Profile}

/-- No ENERGISE or RAISE demand of an outlet waits in the queue. -/
def State.bare (s : State) (q : Nat) : Prop := ∀ d ∈ s.pwb.demands, d.kind = .pump ∨ d.source ≠ q

theorem State.bare.hasDemand (free : s.bare q) {k : DemandKind} (other : k ≠ .pump) : s.hasDemand k q = false := by
  unfold State.hasDemand
  rw [List.any_eq_false]
  intro d hd test
  simp only [Bool.and_eq_true, beq_iff_eq] at test
  rcases free d hd with pump | away
  · exact other (test.1.symm.trans pump)
  · exact away test.2

/-- The outlet goes OFF and its ENERGISE demand is submitted. -/
def State.offer (q figure : Nat) (s : State) : State := (s.setOutlet q .off).submitEnergise q figure

theorem offer_eq (free : s.bare q) : s.offer q figure = if 8 ≤ s.pwb.demands.length then
      (s.setOutlet q .off).shedFailed q figure
    else if s.pwb.demands = [] then (s.withEnergise q figure).settle else s.withEnergise q figure := by
  have none (k : DemandKind) (other : k ≠ .pump) : (s.setOutlet q .off).hasDemand k q = false :=
    State.bare.hasDemand (s := s.setOutlet q .off) free other
  unfold State.offer State.submitEnergise
  rw [none _ (by decide), none _ (by decide), Bool.or_false, if_neg Bool.false_ne_true]
  by_cases full : 8 ≤ s.pwb.demands.length
  · rw [if_pos full, if_pos]
    exact decide_eq_true full
  · rw [if_neg full, if_neg]
    · dsimp only
      refine if_congr ?_ rfl rfl
      exact List.isEmpty_iff
    · exact fun h => full (of_decide_eq_true h)

theorem offer_empty (free : s.bare q) (idle : s.pwb.demands = []) : s.offer q figure = (s.withEnergise q figure).settle := by
  rw [offer_eq free, if_neg (by rw [idle]; decide), if_pos idle]

theorem offer_queued (free : s.bare q) (busy : s.pwb.demands ≠ []) (room : s.pwb.demands.length < 8) :
    s.offer q figure = s.withEnergise q figure := by
  rw [offer_eq free, if_neg (by omega), if_neg busy]

theorem offer_full (free : s.bare q) (full : 8 ≤ s.pwb.demands.length) :
    s.offer q figure = (s.setOutlet q .off).shedFailed q figure := by
  rw [offer_eq free, if_pos full]

theorem withEnergise_point? (at_ : s.point? q = some x) : (s.withEnergise q figure).point? q =
    some { x with outlet := .off } :=
  modPoint_point?_self s (f := fun x => { x with outlet := .off }) at_ fun _ => rfl

theorem withEnergise_within (s : State) (q figure : Nat) : Within [.moments, .pwb, .spc] s (s.withEnergise q figure) :=
  ((within_modPoint s q _).andThen (within_stamp _) : Within [.moments, .spc] s _).andThen (within_pwb _ _)

/-- Served at once: the demand fits, nothing is shed and no other demand waits (R57). -/
theorem offer_served (idle : s.pwb.demands = []) (shed : s.pwb.shed = [])
    (fits : (figure : Int) ≤ s.ceiling - s.load) (at_ : s.point? q = some x) :
    (s.offer q figure).point? q = some { x with outlet := .on, interval := max x.interval figure } ∧
    (s.offer q figure).pwb = { s.pwb with energised := s.pwb.energised ++ [⟨q, figure, s.moments + 2⟩] } ∧
    Within [.moments, .pwb, .spc] s (s.offer q figure) ∧ (s.offer q figure).pnp = s.pnp := by
  have free : s.bare q := fun d hd => by rw [idle] at hd; cases hd
  have pwb : (s.withEnergise q figure).pwb = { s.pwb with
      demands := [Demand.mk (s.moments + 1) .energise q figure false []] } := by
    have queue : s.pwb.demands ++ [Demand.mk (s.moments + 1) .energise q figure false []] =
        [Demand.mk (s.moments + 1) .energise q figure false []] := by
      rw [idle]
      rfl
    rw [← queue]
    rfl
  have queue := congrArg Pwb.demands pwb
  have room : (s.withEnergise q figure).fits (Demand.mk (s.moments + 1) .energise q figure false []) = true := by
    rw [fits_iff]
    exact ⟨fits, nofun⟩
  obtain ⟨energise, -, -⟩ := serveHead_served queue
  obtain ⟨lists, here, -, -⟩ := energise rfl
  have runs : s.offer q figure = (s.withEnergise q figure).serveHead (Demand.mk (s.moments + 1) .energise q figure
      false []) := by
    rw [offer_empty free idle, settle_served queue room, settle_nil (by rw [lists]), restorePass_nil]
    rw [lists, pwb]
    exact shed
  have energised := serveHead_energise (d := Demand.mk (s.moments + 1) .energise q figure false []) rfl
    (s.withEnergise q figure)
  refine ⟨?_, ?_, ?_, ?_⟩
  · have off : (s.withEnergise q figure).point? q = some { x with outlet := .off } := withEnergise_point? at_
    have on := here _ off
    rw [runs]
    exact on
  · rw [runs, lists, pwb, ← idle]
    rfl
  · rw [runs, energised]
    exact (withEnergise_within s q figure).trans ((within_popDemand _).andThen (within_energise _ _ _) :
      Within [.moments, .pwb, .spc] _ _)
  · rw [runs, energised]
    rfl

/-- Refused by a full queue: the outlet is SHED (R56). -/
theorem offer_shed (free : s.bare q) (full : 8 ≤ s.pwb.demands.length) (at_ : s.point? q = some x) :
    (s.offer q figure).point? q = some { x with outlet := .shed } ∧
    (s.offer q figure).pwb = { s.pwb with shed := insertMoment ⟨q, figure, s.moments + 1⟩ s.pwb.shed } ∧
    (s.offer q figure).pnp = s.pnp.flagged Flag.outletShed.bit ∧
    Within [.moments, .pwb, .spc] s (s.offer q figure) := by
  rw [offer_full free full]
  refine ⟨?_, rfl, rfl, ((within_setOutlet s q _).andThen (within_shedFailed _ _ _) : Within [.moments, .pwb, .spc] s _)⟩
  have off : (s.setOutlet q .off).point? q = some { x with outlet := .off } :=
    modPoint_point?_self s (f := fun x => { x with outlet := .off }) at_ fun _ => rfl
  have shed := modPoint_point?_self (s.setOutlet q .off) (f := fun x => { x with outlet := .shed }) off fun _ => rfl
  exact shed

/-! ### Settling with ENERGISE demands alone -/

/-- Only ENERGISE demands wait, and OCC's state is one given. -/
def OnlyEnergise (occ : Occ) (s : State) : Prop := (∀ d ∈ s.pwb.demands, d.kind = .energise) ∧ s.occ = occ

theorem settle_onlyEnergise {occ : Occ} (h : OnlyEnergise occ s) : OnlyEnergise occ s.settle := by
  refine (settle_keeps (P := OnlyEnergise occ) ?_ ?_ ?_ ?_ ?_ s s h).1
  · rintro s d rest queue ⟨kinds, same⟩
    have kind := kinds d (by simp [queue])
    refine ⟨fun x hx => ?_, ?_⟩
    · rw [(serveHead_lists s d).1] at hx
      exact kinds x (List.mem_of_mem_tail hx)
    · rw [serveHead_energise kind]
      exact same
  · rintro s d rest c b queue ⟨kinds, same⟩
    have kind := kinds d (by simp [queue])
    refine ⟨fun x hx => ?_, ?_⟩
    · rw [(failHead_lists s d c b).1] at hx
      exact kinds x (List.mem_of_mem_tail hx)
    · rw [failHead_energise kind, (within_shedFailed _ _ _).occ, (within_setFlagIf _ _ _).occ]
      exact same
  · rintro s l ⟨kinds, same⟩
    refine ⟨fun d hd => ?_, (within_recallFor s l).occ.trans same⟩
    obtain ⟨x, hx, kind, -⟩ := (recallFor_lists s l).1 d hd
    rw [kind]
    exact kinds x hx
  · rintro s d a ⟨kinds, same⟩
    refine ⟨fun d' hd => ?_, (within_askFor s d a).occ.trans same⟩
    obtain ⟨x, hx, kind, -⟩ := (askFor_lists s d a).1 d' hd
    rw [kind]
    exact kinds x hx
  · rintro s e r shed ⟨kinds, same⟩
    exact ⟨kinds, same⟩

theorem offer_occ (free : s.bare q) : (s.offer q figure).occ = s.occ := by
  rw [offer_eq free]
  split
  · rfl
  · split
    next idle =>
      refine (settle_onlyEnergise (s := s.withEnergise q figure) (occ := s.occ) ⟨fun d hd => ?_, rfl⟩).2
      have queue : (s.withEnergise q figure).pwb.demands = s.pwb.demands ++
        [Demand.mk (s.moments + 1) .energise q figure false []] := rfl
      rw [queue, idle] at hd
      rw [List.mem_singleton.mp hd]
    next => rfl

/-! ### The call for an occupancy, and its tap -/

theorem callEnergise_down (down : s.postDown q = true) (r : Occupancy) : s.callEnergise q r = s.setOutlet q .faultOff := by
  unfold State.callEnergise
  rw [if_pos down]

theorem callEnergise_up (up : s.postDown q = false) (profile : r.profile = some y) :
    s.callEnergise q r = s.offer q y.figure := by
  unfold State.callEnergise
  rw [if_neg (by simp [up]), profile]
  rfl

theorem callEnergise_bare (up : s.postDown q = false) (profile : r.profile = none) : s.callEnergise q r = s := by
  unfold State.callEnergise
  rw [if_neg (by simp [up]), profile]

theorem tapMayOpen_at (charging : p.charging = some n) (live : s.occ? n = some r) :
    s.tapMayOpen p = (p.tapFitted && (decide (r.state = .alongside ∧ r.account.state ≠ .barred) &&
      match r.profile with | some y => y.tapOpen | none => false)) := by
  unfold State.tapMayOpen
  rw [charging, Option.bind_some, live]
  have standing (a : AccountState) : (a != .barred) = decide (a ≠ .barred) := by cases a <;> rfl
  cases profile : r.profile <;> simp only [standing, profile, Bool.decide_and, beq_eq_decide]

/-- The tap follows the profile of an occupancy ALONGSIDE that is not barred (R76). -/
theorem followTap_at (at_ : s.point? q = some p) (charging : p.charging = some n) (live : s.occ? n = some r)
    (along : r.state = .alongside) (standing : r.account.state ≠ .barred) : (s.followTap q).point? q =
      some (p.setTap (p.tapFitted && match r.profile with | some y => y.tapOpen | none => false)) := by
  have opens : s.tapMayOpen p = (p.tapFitted && match r.profile with | some y => y.tapOpen | none => false) := by
    rw [tapMayOpen_at charging live, decide_eq_true ⟨along, standing⟩, Bool.true_and]
  rw [← opens]
  exact modPoint_point?_self s (f := fun p => p.setTap (s.tapMayOpen p)) at_ fun p => Point.setTap_number p _

theorem followTap_same (s : State) (q : Nat) : (s.followTap q).pwb = s.pwb ∧ (s.followTap q).pnp = s.pnp ∧
    (s.followTap q).occ = s.occ := ⟨rfl, rfl, rfl⟩

/-- The whole of an offer for an occupancy charged at a point (R56, R57, R78). -/
theorem callEnergise_offered (at_ : u.point? q = some x) (others : ∀ m, m ≠ q → u.point? m = s.point? m)
    (records : u.occ.records = s.occ.records) (frame : OnlyChanges [.occ, .spc] s u) (free : s.bare q)
    (charging : x.charging = some n) (live : s.occ? n = some r) (along : r.state = .alongside)
    (standing : r.account.state ≠ .barred) (profile : r.profile = some y) (up : u.postDown q = false) :
    Offered q x y s ((u.callEnergise q r).followTap q) := by
  have pwb : u.pwb = s.pwb := frame .pwb (by decide)
  have pnp : u.pnp = s.pnp := frame .pnp (by decide)
  have moments : u.moments = s.moments := frame .moments (by decide)
  have settings : u.settings = s.settings := frame .settings (by decide)
  have fdc : u.fdc = s.fdc := frame .fdc (by decide)
  have ceiling : u.ceiling = s.ceiling := ceiling_congr settings (by rw [pwb])
  have load : u.load = s.load := load_congr (by rw [pwb]) (by unfold State.pumpLoads; rw [fdc])
  have free' : u.bare q := by
    unfold State.bare
    rw [pwb]
    exact free
  have live' : (u.offer q y.figure).occ? n = some r := by
    unfold State.occ? at live ⊢
    rw [offer_occ free', records]
    exact live
  have tap {z : Point} (here : (u.offer q y.figure).point? q = some z) (same : z.charging = x.charging)
      (fitted : z.tapFitted = x.tapFitted) :
      ((u.offer q y.figure).followTap q).point? q = some (z.setTap (x.tapFitted && y.tapOpen)) := by
    have done := followTap_at here (same.trans charging) live' along standing
    rwa [profile, fitted] at done
  rw [callEnergise_up up profile]
  refine ⟨fun idle => ⟨u, at_, others, records, frame, ?_⟩, fun idle shed fits => ?_, fun busy room => ?_, fun full => ?_⟩
  · rw [offer_empty free' (by rw [pwb]; exact idle)]
  · obtain ⟨here, lists, -, flags⟩ := offer_served (figure := y.figure) (by rw [pwb]; exact idle) (by rw [pwb]; exact shed)
      (by rw [ceiling, load]; exact fits) at_
    rw [pwb, moments] at lists
    exact ⟨tap here rfl rfl, lists, flags.trans pnp⟩
  · have same := offer_queued (figure := y.figure) free' (by rw [pwb]; exact busy) (by rw [pwb]; exact room)
    have here : (u.offer q y.figure).point? q = some { x with outlet := .off } := by
      rw [same]
      exact withEnergise_point? at_
    refine ⟨tap here rfl rfl, ?_, ?_⟩
    · show (u.offer q y.figure).pwb = _
      rw [same]
      show { u.pwb with demands := u.pwb.demands ++ [Demand.mk (u.moments + 1) .energise q y.figure false []] } = _
      rw [pwb, moments]
    · show (u.offer q y.figure).pnp = _
      rw [same]
      exact pnp
  · obtain ⟨here, lists, flags, -⟩ := offer_shed (figure := y.figure) free' (by rw [pwb]; exact full) at_
    rw [pwb, moments] at lists
    rw [pnp] at flags
    exact ⟨tap here rfl rfl, lists, flags⟩

end

end Sys2Proof.Machine
end

section
/-! PROOFS. SPC's points and links as OCC's records come and go (R77, R78, R31), and an outlet that leaves PWB
(R75). -/

namespace Sys2Proof.Machine

set_option Elab.async false

section
variable {s u t : State} {q n m : Nat} {p x : Point} {r : Occupancy} {o : OutletState}

/-! ### Points -/

/-- Two changes of one point are one. -/
theorem modPoint_modPoint {f g : Point → Point} (hf : ∀ p, (f p).number = p.number) (s : State) (q : Nat) :
    (s.modPoint q f).modPoint q g = s.modPoint q fun p => g (f p) := by
  have points : modifyKey Point.number q g (modifyKey Point.number q f s.spc.points) =
      modifyKey Point.number q (fun p => g (f p)) s.spc.points := by
    unfold modifyKey
    rw [List.map_map]
    refine List.map_congr_left fun p _ => ?_
    rw [Function.comp_apply]
    by_cases here : p.number = q
    · rw [if_pos here, if_pos ((hf p).trans here), if_pos here]
    · rw [if_neg here, if_neg here, if_neg here]
  show ({ s with spc := { s.spc with points := _ } } : State) = { s with spc := { s.spc with points := _ } }
  rw [← points]
  rfl

/-- A point as the removal of an occupancy leaves it (R28, R77). -/
def Point.without (n : Nat) (p : Point) : Point := { p with
  charging := if p.charging = some n then none else p.charging
  finalMark := if p.charging = some n then none else p.finalMark
  arrivals := p.arrivals.filter (· != n)
  retained := p.retained.filter fun x => x.occ != n }

theorem Point.without_stranger (other : p.charging ≠ some n) (away : n ∉ p.arrivals)
    (fresh : ∀ x ∈ p.retained, x.occ ≠ n) : p.without n = p := by
  have arrivals : p.arrivals.filter (· != n) = p.arrivals :=
    List.filter_eq_self.mpr fun m hm => bne_iff_ne.mpr fun e => away (e ▸ hm)
  have retained : (p.retained.filter fun x => x.occ != n) = p.retained :=
    List.filter_eq_self.mpr fun x hx => bne_iff_ne.mpr (fresh x hx)
  unfold Point.without
  rw [if_neg other, if_neg other, arrivals, retained]

theorem lookupKey_map_same {α : Type} {key : α → Nat} {f : α → α} (keeps : ∀ x, key (f x) = key x) (n : Nat)
    (l : List α) : lookupKey key n (l.map f) = (lookupKey key n l).map f := by
  unfold lookupKey
  rw [List.find?_map]
  congr 2
  funext x
  exact congrArg (· == n) (keeps x)

theorem removeOcc_point? (s : State) (n q : Nat) : (s.removeOcc n).point? q = (s.point? q).map (Point.without n) :=
  lookupKey_map_same (f := Point.without n) (fun _ => rfl) q s.spc.points

theorem closeOcc_point? (live : s.occ? n = some r) (reason : CloseReason) (q : Nat) :
    (s.closeOcc n reason).point? q = (s.point? q).map (Point.without n) := by
  unfold State.closeOcc
  simp only [live]
  exact removeOcc_point? _ n q

/-- The removal test of a live record leaves SPC as it was, or without the occupancy (R31, R77). -/
theorem testRemoval_spc (live : s.occ? n = some r) :
    (r.closureWaits = false ∨ 8 ≤ s.occ.closures.length → (s.testRemoval n).spc = s.spc) ∧
    (r.closureWaits = true → s.occ.closures.length < 8 →
      (∀ q, (s.testRemoval n).point? q = (s.point? q).map (Point.without n)) ∧
      (∀ m, (s.testRemoval n).link? m = if m = n then none else s.link? m)) := by
  obtain ⟨-, stays, -⟩ := testRemoval_says live
  refine ⟨fun h => (stays h).2.2.1, fun waits room => ?_⟩
  rw [testRemoval_closes live waits ((closureRoom_iff s).mpr room)]
  refine ⟨closeOcc_point? live _, fun m => ?_⟩
  unfold State.closeOcc
  simp only [live]
  exact removeOcc_link? _ n m

/-- A point that does not name a live record stays as the record is tested. -/
theorem testRemoval_point? (live : s.occ? n = some r) (at_ : s.point? q = some p) (other : p.charging ≠ some n)
    (away : n ∉ p.arrivals) (fresh : ∀ x ∈ p.retained, x.occ ≠ n) : (s.testRemoval n).point? q = some p := by
  obtain ⟨stays, goes⟩ := testRemoval_spc live
  by_cases h : r.closureWaits = true ∧ s.occ.closures.length < 8
  · rw [(goes h.1 h.2).1, at_, Option.map_some, Point.without_stranger other away fresh]
  · rw [point?_congr (stays ?_)]
    · exact at_
    · by_cases waits : r.closureWaits = true
      · exact .inr (Nat.not_lt.mp fun room => h ⟨waits, room⟩)
      · exact .inl (Bool.eq_false_iff.mpr waits)

/-! ### Links -/

theorem modPoint_link? (s : State) (q m : Nat) (f : Point → Point) : (s.modPoint q f).link? m = s.link? m := rfl

/-- The occupancy's link, opened where it has none (R78). -/
theorem chargeLink_opened (s : State) (q n : Nat) :
    (s.chargeLink q n).link? n = some ((s.link? n).getD (Link.mk n q 0 0 0 0)) := by
  cases found : s.link? n with
  | none => exact chargeLink_link? found q
  | some l =>
    unfold State.chargeLink
    rw [found, Option.isSome_some, if_pos rfl]
    exact found

theorem OnlyPoints.link? (h : OnlyPoints s t) (m : Nat) : t.link? m = s.link? m := by
  unfold State.link?
  rw [h]

theorem chargeLink_spc (s : State) (q n : Nat) : Within [.spc] s (s.chargeLink q n) := within_chargeLink s q n

/-! ### The offer whatever waits (R56) -/

theorem bare_or_busy (s : State) (q : Nat) : s.bare q ∨
    (s.hasDemand .energise q || s.hasDemand .raise q) = true := by
  by_cases h : (s.hasDemand .energise q || s.hasDemand .raise q) = true
  · exact .inr h
  · refine .inl fun d hd => ?_
    rw [Bool.or_eq_true, not_or] at h
    by_contra away
    obtain ⟨kind, source⟩ := not_or.mp away
    have source := not_not.mp source
    have has (k : DemandKind) (same : d.kind = k) : s.hasDemand k q = true :=
      List.any_eq_true.mpr ⟨d, hd, by simp [same, source]⟩
    cases k : d.kind with
    | energise => exact h.1 (has _ k)
    | raise => exact h.2 (has _ k)
    | pump => exact kind k

theorem offer_busy {figure : Nat} (busy : (s.hasDemand .energise q || s.hasDemand .raise q) = true) :
    s.offer q figure = s.setOutlet q .off := by
  unfold State.offer State.submitEnergise
  rw [if_pos]
  exact busy

theorem offer_keeps (s : State) (q figure : Nat) : (s.offer q figure).occ = s.occ ∧ OnlyPoints s (s.offer q figure) := by
  rcases bare_or_busy s q with free | busy
  · refine ⟨offer_occ free, ?_⟩
    rw [offer_eq free]
    split
    · rfl
    · split
      · exact OnlyPoints.trans rfl (settle_points _ s).1
      · rfl
  · rw [offer_busy busy]
    exact ⟨rfl, rfl⟩

theorem callEnergise_keeps (s : State) (q : Nat) (r : Occupancy) :
    (s.callEnergise q r).occ = s.occ ∧ OnlyPoints s (s.callEnergise q r) := by
  cases down : s.postDown q with
  | true =>
    rw [callEnergise_down down]
    exact ⟨rfl, rfl⟩
  | false =>
    cases profile : r.profile with
    | none =>
      rw [callEnergise_bare down profile]
      exact ⟨rfl, rfl⟩
    | some y =>
      rw [callEnergise_up down profile]
      exact offer_keeps s q y.figure

/-! ### An outlet taken from PWB (R75) -/

/-- Once out, an outlet has no demand and is not shed. -/
theorem outletOut_apart (at_ : s.point? q = some p) : Apart q (some { p with
      outlet := o
      raisePending := none
      raiseLast := if p.raisePending.isSome = true then .budget else p.raiseLast }) (s.outletOut q o) := by
  obtain ⟨here, -, pwb, -⟩ := outletOut_out q o s
  refine ⟨here q (List.mem_singleton_self q) p at_, fun d hd => ?_, fun e he => ?_⟩
  · rw [pwb] at hd
    have := (List.mem_filter.mp hd).2
    by_cases kind : d.kind = .pump
    · exact .inl kind
    · refine .inr fun same => ?_
      simp [kind, same] at this
  · rw [pwb] at he
    have := (List.mem_filter.mp he).2
    intro same
    simp [same] at this

theorem outletOff_point? (at_ : s.point? q = some p) (before : State) : ((s.outletOut q o).settleSince before).point? q =
    some { p with
      outlet := o
      raisePending := none
      raiseLast := if p.raisePending.isSome = true then .budget else p.raiseLast } :=
  (settle_apart _ before (outletOut_apart at_)).2.1

theorem closeTap_eq (s : State) (q : Nat) : s.closeTap q = s.modPoint q fun x => { x with tapOpen := false } := by
  unfold State.closeTap
  congr 1

end

end Sys2Proof.Machine
end

section
/-! PROOFS. O45: OCC's notices taken by SPC (R78 to R80). -/

namespace Sys2Proof.Machine

set_option Elab.async false

section
variable {s : State} {q n : Nat} {p : Point} {r : Occupancy} {m : FinalMark} {rest : List Notice} {k : NoticeKind}

/-- The station with other notices. -/
def State.withNotices (s : State) (notices : List Notice) : State := { s with occ := { s.occ with notices := notices } }

theorem noticeEvent_taken {body : FinalMark → Nat → Occupancy → State → State} (on : s.powered = true)
    (line : s.lif.state ≠ .unconfigured)
    (first : takeFirst (fun x => x.occ == n) s.occ.notices = some (⟨k, n, m⟩, rest)) (live : s.occ? n = some r)
    (berth : s.berthPoint r.berth = some q) : s.noticeEvent k n body = body m q r (s.withNotices rest) := by
  have past : s.unconfigured = false := by simpa [State.unconfigured] using line
  have live' : ({ s with occ := { s.occ with notices := rest } } : State).occ? n = some r := live
  have berth' : ({ s with occ := { s.occ with notices := rest } } : State).berthPoint r.berth = some q := berth
  unfold State.noticeEvent
  rw [State.event_on on]
  simp only [first, past, Bool.not_false, Bool.and_true, decide_true, if_true, live', berth']
  rfl

/-! ### An arrival (R78) -/

theorem spcArrive_waits (at_ : s.point? q = some p) (charged : ∃ o, p.charging = some o ∧ o ≠ r.number) :
    s.spcArrive q r = if r.number ∈ p.arrivals then s
      else s.modPoint q fun p => { p with arrivals := p.arrivals ++ [r.number] } := by
  obtain ⟨o, charging, other⟩ := charged
  unfold State.spcArrive
  rw [at_]
  dsimp only
  rw [if_neg (by simp [charging, other])]
  exact if_congr List.contains_iff_mem rfl rfl

theorem spcArrive_charged (at_ : s.point? q = some p) (free : p.charging = none ∨ p.charging = some r.number) :
    s.spcArrive q r = (s.chargeLink q r.number).commandArrival q r := by
  unfold State.spcArrive
  rw [at_]
  dsimp only
  rw [if_pos]
  rcases free with none | own
  · simp [none]
  · simp [own]

theorem commandArrival_alongside (along : r.state = .alongside) : s.commandArrival q r =
    if r.account.state = .barred then s.setOutlet q .heldOff else (s.callEnergise q r).followTap q := by
  unfold State.commandArrival
  rw [if_pos along]

/-- What acting for an arrival keeps (R78). -/
theorem commandArrival_keeps (s : State) (q : Nat) (r : Occupancy) :
    (s.commandArrival q r).occ = s.occ ∧ OnlyPoints s (s.commandArrival q r) := by
  unfold State.commandArrival
  split
  · split
    · exact ⟨rfl, rfl⟩
    · obtain ⟨occ, points⟩ := callEnergise_keeps s q r
      exact ⟨occ, points.trans rfl⟩
  · exact ⟨rfl, rfl⟩

theorem setOutlet_point?_self (at_ : s.point? q = some p) (o : OutletState) :
    (s.setOutlet q o).point? q = some { p with outlet := o } :=
  modPoint_point?_self s (f := fun p => { p with outlet := o }) at_ fun _ => rfl

/-- A call at a post that is DOWN (R78, R80). -/
theorem callEnergise_faultOff (at_ : s.point? q = some p) (charging : p.charging = some n) (live : s.occ? n = some r)
    (along : r.state = .alongside) (standing : r.account.state ≠ .barred) (down : s.postDown q = true) :
    ((s.callEnergise q r).followTap q).point? q = some (Point.setTap { p with outlet := .faultOff }
      (p.tapFitted && match r.profile with | some y => y.tapOpen | none => false)) := by
  rw [callEnergise_down down]
  exact followTap_at (s := s.setOutlet q .faultOff) (setOutlet_point?_self at_ _) charging live along standing

/-! ### A departure (R79) -/

theorem spcDepart_charged (at_ : s.point? q = some p) (own : p.charging = some n) :
    s.spcDepart q n m = ((s.outletOut q .off).settleSince s).modPoint q fun x => { x with
      tapOpen := false
      finalMark := some (x.finalMark.getD m) } := by
  unfold State.spcDepart
  rw [at_]
  dsimp only
  rw [if_pos own, closeTap_eq]
  exact modPoint_modPoint (f := fun x => { x with tapOpen := false }) (fun _ => rfl) _ q

theorem spcDepart_waiting (at_ : s.point? q = some p) (other : p.charging ≠ some n) : s.spcDepart q n m =
    if n ∈ p.arrivals then (s.modPoint q fun p => { p with
      arrivals := p.arrivals.filter (· != n)
      retained := p.retained.filter fun x => x.occ != n }).clearAwaiting n
    else s := by
  unfold State.spcDepart
  rw [at_]
  dsimp only
  rw [if_neg other]
  exact if_congr List.contains_iff_mem rfl rfl

/-- The end of the wait of a departed occupancy: its record is tested (R31, R79). -/
theorem clearAwaiting_says (live : s.occ? n = some r) (due : r.closureDue = none) :
    (r.holds ≠ [] → (s.clearAwaiting n).occ? n = some { r with awaiting := false }) ∧
    (r.state = .departing → r.holds = [] → s.occ.closures.length < 8 → (s.clearAwaiting n).occ? n = none ∧
      (s.clearAwaiting n).occ.closures = s.occ.closures ++ [closureOf s r .departed] ∧
      (s.clearAwaiting n).hasFlag .closureAdded = true) := by
  have now : (s.modOcc n fun r => { r with awaiting := false }).occ? n = some { r with awaiting := false } :=
    modOcc_self (f := fun r => { r with awaiting := false }) live fun _ => rfl
  obtain ⟨-, stays, closes⟩ := testRemoval_says now
  refine ⟨fun held => (stays (.inl ?_)).1, fun state bare room => ?_⟩
  · rw [← Bool.not_eq_true, closureWaits_iff]
    rintro (h | ⟨-, -, none⟩)
    · simp [due] at h
    · exact held none
  · have closed := closes ((closureWaits_iff _).mpr (.inr ⟨state, rfl, bare⟩)) room
    rw [due] at closed
    exact ⟨closed.gone, closed.closures, closed.flag⟩

/-! ### Barring and unbarring (R80) -/

theorem spcBar_leaves (at_ : s.point? q = some p) (draws : p.charging = some r.number ∧ r.state = .alongside)
    (listed : p.outlet = .on ∨ p.outlet = .shed ∨ (p.outlet = .off ∧ s.demandQueued q = true)) : s.spcBar q r =
    ((s.outletOut q .heldOff).settleSince s).modPoint q fun x => { x with tapOpen := false } := by
  unfold State.spcBar
  rw [at_]
  dsimp only
  rw [if_pos (by simp [draws.1, draws.2]), if_pos, closeTap_eq]
  · rfl
  · rcases listed with h | h | h
    · simp [h]
    · simp [h]
    · simp [h.1, h.2]

theorem spcBar_idle (at_ : s.point? q = some p) (draws : p.charging = some r.number ∧ r.state = .alongside)
    (h1 : p.outlet ≠ .on) (h2 : p.outlet ≠ .shed) (h3 : ¬ (p.outlet = .off ∧ s.demandQueued q = true)) :
    s.spcBar q r = (if p.outlet = .off then s.setOutlet q .heldOff else s).modPoint q fun x =>
      { x with tapOpen := false } := by
  unfold State.spcBar
  rw [at_]
  dsimp only
  rw [if_pos (by simp [draws.1, draws.2]), if_neg, closeTap_eq]
  simp only [Bool.or_eq_true, Bool.and_eq_true, decide_eq_true_eq]
  tauto

theorem spcBar_other (at_ : s.point? q = some p) (idle : ¬ (p.charging = some r.number ∧ r.state = .alongside)) :
    s.spcBar q r = s := by
  unfold State.spcBar
  rw [at_]
  exact if_neg (by simpa using idle)

theorem spcUnbar_eq (at_ : s.point? q = some p) : s.spcUnbar q r =
    if p.charging = some r.number ∧ r.state = .alongside ∧ r.account.state ≠ .barred then
      (if p.outlet = .heldOff then s.callEnergise q r else s).followTap q
    else s := by
  have standing (a : AccountState) : (a != .barred) = decide (a ≠ .barred) := by cases a <;> rfl
  unfold State.spcUnbar
  rw [at_]
  dsimp only
  exact if_congr (by simp only [standing, Bool.and_eq_true, decide_eq_true_eq, and_assoc]) rfl rfl

end

/-- Settles O45: each kind of notice, through what SPC does on it (`spcArrive_charged`, `spcDepart_charged`,
`spcBar_leaves`, `spcUnbar_eq`) and what the offer of a demand does (`callEnergise_offered`). -/
theorem noticesActOnOutletAndTap : Obligations.NoticesActOnOutletAndTap := by
  intro k n q m rest r p s on line first live berth at_ u tapped offered leaves
  obtain rfl : r.number = n := occ?_number live
  have at_u : u.point? q = some p := at_
  have live_u : u.occ? r.number = some r := live
  have frame : OnlyChanges [.occ, .spc] s u := ((within_occ s _).andThen (.refl [.spc] u) : Within [.occ, .spc] s u).quiet rfl
  have taken {body : FinalMark → Nat → Occupancy → State → State} :
      s.noticeEvent k r.number body = body m q r u := noticeEvent_taken on line first live berth
  have out (o : OutletState) (shut : Point → Point) (keeps : ∀ x, (shut x).number = x.number) :
      leaves o shut (((u.outletOut q o).settleSince u).modPoint q shut) :=
    ⟨⟨_, outletOut_out q o u, rfl⟩, modPoint_point?_self _ (f := shut) (outletOff_point? at_u u) keeps⟩
  refine ⟨?_, ?_, ?_, ?_⟩
  · rintro rfl
    have runs : exec (.alongsideNotice r.number) s = .next (u.spcArrive q r) := congrArg Host.Outcome.next taken
    refine ⟨fun o charging other => ⟨_, runs, ?_⟩, fun free along => ⟨_, runs, ?_⟩⟩
    · rw [spcArrive_waits at_u ⟨o, charging, other⟩]
      by_cases waits : r.number ∈ p.arrivals
      · rw [if_pos waits, if_pos waits]
        exact ⟨at_u, rfl, rfl, frame⟩
      · rw [if_neg waits, if_neg waits]
        exact ⟨modPoint_point?_self u (f := fun p => { p with arrivals := p.arrivals ++ [r.number] }) at_u fun _ => rfl,
          rfl, rfl, (((within_occ s _).andThen (within_modPoint u q _) : Within [.occ, .spc] s _)).quiet rfl⟩
    · have charged : (u.chargeLink q r.number).point? q = some { p with charging := some r.number } :=
        chargeLink_point? at_u r.number
      have charge := within_chargeLink u q r.number
      have pnp : (u.chargeLink q r.number).pnp = s.pnp := by
        unfold State.chargeLink
        split <;> rfl
      have live_c : (u.chargeLink q r.number).occ? r.number = some r := by
        unfold State.occ? at live_u ⊢
        rw [charge.occ]
        exact live_u
      have down : (u.chargeLink q r.number).postDown q = s.postDown q := by
        unfold State.chargeLink
        split <;> rfl
      have both : Within [.occ, .spc] s (u.chargeLink q r.number) := (within_occ s _).andThen charge
      rw [spcArrive_charged at_u free]
      obtain ⟨occ, points⟩ := commandArrival_keeps (u.chargeLink q r.number) q r
      refine ⟨occ.trans charge.occ, (points.link? r.number).trans (chargeLink_opened u q r.number), fun barred => ?_,
        fun standing up => ?_, fun standing up => ?_⟩
      · rw [commandArrival_alongside along, if_pos barred]
        exact ⟨setOutlet_point?_self charged .heldOff,
          (both.andThen (within_setOutlet _ q _) : Within [.occ, .spc] s _).quiet pnp⟩
      · rw [commandArrival_alongside along, if_neg standing]
        refine ⟨callEnergise_faultOff charged rfl live_c along standing (down.trans up), ?_⟩
        rw [callEnergise_down (down.trans up)]
        exact ((both.andThen (within_setOutlet _ q _) : Within [.occ, .spc] s _).andThen (within_followTap _ q) :
          Within [.occ, .spc] s _).quiet pnp
      · rw [commandArrival_alongside along, if_neg standing]
        intro y profile free'
        refine callEnergise_offered charged (fun m other => ?_) (congrArg Occ.records charge.occ :) (both.quiet pnp) free'
          rfl live along standing profile (down.trans up)
        exact (linksOnly_chargeLink u q r.number).points m other
  · rintro rfl
    have runs : exec (.departingNotice r.number) s = .next (u.spcDepart q r.number m) := congrArg Host.Outcome.next taken
    refine ⟨fun own => ⟨_, runs, ?_⟩, fun other waits due => ⟨_, runs, ?_⟩, fun other away => runs.trans ?_⟩
    · rw [spcDepart_charged at_u own]
      exact out .off (fun x => { x with
        tapOpen := false
        finalMark := some (x.finalMark.getD m) }) fun _ => rfl
    · rw [spcDepart_waiting at_u other, if_pos waits]
      obtain ⟨keeps, closes⟩ := clearAwaiting_says (s := u.modPoint q fun p => { p with
        arrivals := p.arrivals.filter (· != r.number)
        retained := p.retained.filter fun x => x.occ != r.number }) live_u due
      refine ⟨?_, keeps, fun state bare room => ?_, ?_⟩
      · have gone : (u.modPoint q fun p => { p with
            arrivals := p.arrivals.filter (· != r.number)
            retained := p.retained.filter fun x => x.occ != r.number }).point? q = some { p with
            arrivals := p.arrivals.filter (· != r.number)
            retained := p.retained.filter fun x => x.occ != r.number } :=
          modPoint_point?_self u (f := fun p => { p with
            arrivals := p.arrivals.filter (· != r.number)
            retained := p.retained.filter fun x => x.occ != r.number }) at_u fun _ => rfl
        refine testRemoval_point? (modOcc_self (f := fun r => { r with awaiting := false }) live_u fun _ => rfl) gone other
          (fun h => ?_) fun x hx e => ?_
        · simp at h
        · simp [e] at hx
      · obtain ⟨gone, closures, flag⟩ := closes state bare room
        refine ⟨gone, ?_, flag⟩
        rw [closures]
        exact List.length_append
      · exact (((within_occ s _).andThen (within_modPoint u q _) : Within [.occ, .spc] s _).andThen
          (within_clearAwaiting _ _) : Within [.occ, .spc] s _).frame
    · rw [spcDepart_waiting at_u other, if_neg away]
  · rintro rfl
    have runs : exec (.barredNotice r.number) s = .next (u.spcBar q r) := congrArg Host.Outcome.next taken
    intro draws queued
    refine ⟨fun drawn listed => ⟨_, runs, ?_⟩, fun drawn h1 h2 h3 => ⟨_, runs, ?_⟩, fun idle => runs.trans ?_⟩
    · rw [spcBar_leaves at_u drawn listed]
      exact out .heldOff (fun x => { x with tapOpen := false }) fun _ => rfl
    · rw [spcBar_idle at_u drawn h1 h2 h3]
      by_cases off : p.outlet = .off
      · rw [if_pos off, if_pos off]
        refine ⟨rfl, ?_, (((within_occ s _).andThen (within_setOutlet u q _) : Within [.occ, .spc] s _).andThen
          (within_modPoint _ q _) : Within [.occ, .spc] s _).quiet rfl⟩
        exact modPoint_point?_self _ (f := fun x => { x with tapOpen := false }) (setOutlet_point?_self at_u .heldOff)
          fun _ => rfl
      · rw [if_neg off, if_neg off]
        exact ⟨rfl, modPoint_point?_self u (f := fun x => { x with tapOpen := false }) at_u fun _ => rfl,
          ((within_occ s _).andThen (within_modPoint u q _) : Within [.occ, .spc] s _).quiet rfl⟩
    · rw [spcBar_other at_u idle]
  · rintro rfl
    have runs : exec (.unbarredNotice r.number) s = .next (u.spcUnbar q r) := congrArg Host.Outcome.next taken
    intro draws
    refine ⟨fun drawn => ⟨_, runs, ?_⟩, fun idle => runs.trans ?_⟩
    · obtain ⟨charging, along, standing⟩ := drawn
      rw [spcUnbar_eq at_u, if_pos ⟨charging, along, standing⟩]
      by_cases off : p.outlet = .heldOff
      · rw [if_pos off]
        refine ⟨(callEnergise_keeps u q r).1, fun no => absurd off no, fun _ down => ⟨?_, ?_⟩, fun _ up y profile free => ?_⟩
        · exact callEnergise_faultOff at_u charging live_u along standing down
        · rw [callEnergise_down (s := u) down]
          exact (((within_occ s _).andThen (within_setOutlet u q _) : Within [.occ, .spc] s _).andThen
            (within_followTap _ q) : Within [.occ, .spc] s _).quiet rfl
        · exact callEnergise_offered at_u (fun _ _ => rfl) rfl frame free charging live along standing profile up
      · rw [if_neg off]
        exact ⟨rfl, fun _ => ⟨followTap_at at_u charging live_u along standing,
          ((within_occ s _).andThen (within_followTap u q) : Within [.occ, .spc] s _).quiet rfl⟩,
          fun h => absurd h off, fun h => absurd h off⟩
    · rw [spcUnbar_eq at_u, if_neg idle]

end Sys2Proof.Machine
end

section
/-! PROOFS. The polls (R82 to R84, R212): cycles, commands, reports in time and out of it. -/

namespace Sys2Proof.Machine

set_option Elab.async false

section
variable {s t u : State} {n m : Nat} {p : Point} {q : Post} {r : Occupancy} {y : Profile} {o : OpenPoll}

/-! ### What a poll reads (R82, R212) -/

theorem sideCommand_congr (points : t.spc.points = s.spc.points) (occ : t.occ = s.occ) (n : Nat) :
    t.sideCommand n = s.sideCommand n := by
  unfold State.sideCommand State.charged State.point? State.occ?
  rw [points, occ]

theorem sideTripped_congr (points : t.spc.points = s.spc.points) (n : Nat) : t.sideTripped n = s.sideTripped n := by
  unfold State.sideTripped State.point?
  rw [points]

theorem nextPoll_end (done : s.spc.toPoll = []) : s.nextPoll = { s with spc := { s.spc with poll := none } } := by
  unfold State.nextPoll
  rw [done]

/-- The poll sent to a post, with the commands as they stand (R82). -/
def State.pollOf (s : State) (n : Nat) : OpenPoll :=
  OpenPoll.mk n s.elapsed (s.moments + 1)
    (if decide (s.lif.state = .unconfigured) = true then 0 else s.sideCommand (2 * n - 1))
    (if decide (s.lif.state = .unconfigured) = true then 0 else s.sideCommand (2 * n))
    (s.sideTripped (2 * n - 1)) (s.sideTripped (2 * n)) (decide (s.lif.state = .unconfigured))

theorem nextPoll_goes {rest : List Nat} (more : s.spc.toPoll = n :: rest) : s.nextPoll = { s with
    moments := s.moments + 1
    spc := { s.spc with
      toPoll := rest
      poll := some (s.pollOf n) } } := by
  have off : s.unconfigured = decide (s.lif.state = .unconfigured) := beq_eq_decide ..
  unfold State.nextPoll
  rw [more, off]
  rfl

/-- The start of a poll cycle, with nothing left of the one before (R82). -/
theorem exec_pollCycleStart (on : s.powered = true) (idle : s.spc.poll = none) (done : s.spc.toPoll = []) :
    exec .pollCycleStart s = .next (s.advanceTo s.spc.nextCycle).startCycle := by
  show Host.Outcome.next (s.event _) = _
  rw [State.event_on on, if_neg (by simp [idle, done])]

/-- A cycle over some posts, at the time a state was brought to (R82). -/
def State.cycle (s : State) (k : Nat) (posts : List Nat) : State := { s.advanceTo k with
  spc := { s.spc with
    toPoll := posts
    nextCycle := s.spc.nextCycle + 2000000 } }

theorem startCycle_eq (s : State) (k : Nat) : (s.advanceTo k).startCycle = (s.cycle k (if s.lif.state = .unconfigured then
      [1, 2, 3, 4, 5, 6, 7, 8, 9, 10, 11, 12, 13, 14, 15, 16] else s.configuredPosts)).nextPoll := by
  have posts : (s.advanceTo k).configuredPosts = s.configuredPosts := by
    unfold State.configuredPosts
    rw [advanceTo_spc]
  have off : (s.advanceTo k).unconfigured = decide (s.lif.state = .unconfigured) := by
    unfold State.unconfigured
    rw [advanceTo_lif]
    exact beq_eq_decide ..
  unfold State.startCycle State.cycle
  dsimp only
  rw [posts, off, advanceTo_spc]
  by_cases none : s.lif.state = .unconfigured
  · rw [decide_eq_true none, if_pos rfl, if_pos none]
    rfl
  · rw [decide_eq_false none, if_neg Bool.false_ne_true, if_neg none]
    rfl

theorem pollOf_cycle (s : State) (k : Nat) (posts : List Nat) (n : Nat) : (s.cycle k posts).pollOf n =
    { s.pollOf n with sentAt := (s.advanceTo k).elapsed } := by
  have commands (m : Nat) : (s.cycle k posts).sideCommand m = s.sideCommand m :=
    sideCommand_congr (s := s) (t := s.cycle k posts) rfl (advanceTo_occ s k) m
  have trips (m : Nat) : (s.cycle k posts).sideTripped m = s.sideTripped m :=
    sideTripped_congr (s := s) (t := s.cycle k posts) rfl m
  have lif : (s.cycle k posts).lif = s.lif := advanceTo_lif s k
  have moments : (s.cycle k posts).moments = s.moments := advanceTo_moments s k
  unfold State.pollOf
  rw [commands, commands, trips, trips, lif, moments]
  rfl

theorem cycle_nextPoll (s : State) (k : Nat) (rest : List Nat) : (s.cycle k (n :: rest)).nextPoll = { s.advanceTo k with
    moments := s.moments + 1
    spc := { s.spc with
      nextCycle := s.spc.nextCycle + 2000000
      toPoll := rest
      poll := some { s.pollOf n with sentAt := (s.advanceTo k).elapsed } } } := by
  have moments : (s.cycle k (n :: rest)).moments = s.moments := advanceTo_moments s k
  rw [nextPoll_goes (s := s.cycle k (n :: rest)) rfl, pollOf_cycle, moments]
  rfl

/-! ### The report on the line (R212) -/

/-- The number of the first bytes. -/
theorem paramNum_first {here : List Byte} {w : Nat} (wide : here.length = w) (after : List Byte) :
    paramNum (here ++ after) 0 w = beNat here := by
  subst wide
  unfold paramNum
  rw [List.drop_zero, List.take_left]

/-- A number past the first bytes. -/
theorem paramNum_later {here : List Byte} {i : Nat} (past : here.length ≤ i) (after : List Byte) (w : Nat) :
    paramNum (here ++ after) i w = paramNum after (i - here.length) w := by
  unfold paramNum
  rw [List.drop_append, List.drop_of_length_le past, List.nil_append]

theorem ofNat_beNat_beBytes {w : Nat} (x : BitVec (8 * w)) : BitVec.ofNat (8 * w) (beNat (beBytes w x.toNat)) = x := by
  have small : x.toNat < 256 ^ w := by
    have := x.isLt
    rwa [pow_mul] at this
  rw [beNat_beBytes, Nat.mod_eq_of_lt small]
  refine BitVec.eq_of_toNat_eq ?_
  rw [BitVec.toNat_ofNat]
  exact Nat.mod_eq_of_lt x.isLt

theorem ofNat_beNat_one (x : Byte) : BitVec.ofNat 8 (beNat [x]) = x := by
  rw [beNat_cons]
  simp [beNat]

/-- A report is read back from its bytes (R212). -/
theorem reportOf_bytes (r : PostReport) : reportOf ((reportBytes r).drop 1) = r := by
  have fields : (reportBytes r).drop 1 = [r.post] ++ (beBytes 4 r.energyA.toNat ++ (beBytes 4 r.energyB.toNat ++
      (beBytes 4 r.waterA.toNat ++ (beBytes 4 r.waterB.toNat ++ ([r.trips] ++ ([r.check] ++ [])))))) := by
    simp [reportBytes]
  have four (n : Nat) : (beBytes 4 n).length = 4 := beBytes_length 4 n
  rw [fields]
  unfold reportOf
  simp (disch := simp [four]) only [paramNum_later, paramNum_first, four, List.length_singleton, Nat.reduceSub]
  rw [ofNat_beNat_one, ofNat_beNat_one, ofNat_beNat_one, ofNat_beNat_beBytes (w := 4) r.energyA,
    ofNat_beNat_beBytes (w := 4) r.energyB, ofNat_beNat_beBytes (w := 4) r.waterA, ofNat_beNat_beBytes (w := 4) r.waterB]

theorem reportIn_noise {noise : List Byte} (clean : 0x5A#8 ∉ noise) (bytes : List Byte) :
    reportIn (noise ++ bytes) = reportIn bytes := by
  induction noise with
  | nil => rfl
  | cons b noise ih =>
    rw [List.mem_cons, not_or] at clean
    rw [List.cons_append, reportIn, if_neg (Ne.symm clean.1), ih clean.2]

/-- The bytes of a report, whatever comes before its mark and after it (R212). -/
theorem decodePoll_report {noise : List Byte} (clean : 0x5A#8 ∉ noise) (more : List Byte) (r : PostReport) :
    decodePoll (noise ++ reportBytes r ++ more) = .postReport r := by
  have long : (reportBytes r).length = 20 := by simp [reportBytes, beBytes_length]
  have mark : reportBytes r = 0x5A#8 :: (reportBytes r).drop 1 := by simp [reportBytes]
  have read : reportIn (noise ++ reportBytes r ++ more) = some r := by
    rw [List.append_assoc, reportIn_noise clean, mark, List.cons_append, reportIn, if_pos rfl, if_pos (by simp [long]),
      List.take_append_of_le_length (by simp [long]), List.take_of_length_le (by simp [long]), reportOf_bytes]
  unfold decodePoll
  rw [read]

/-- Bytes that complete no report leave the poll to time out (R212). -/
theorem decodePoll_timeout (bytes : List Byte)
    (short : ∀ before after, bytes = before ++ 0x5A#8 :: after → 0x5A#8 ∉ before → after.length < 19) :
    decodePoll bytes = .pollTimeout := by
  have none : reportIn bytes = none := by
    by_cases there : 0x5A#8 ∈ bytes
    · obtain ⟨before, after, split, clean⟩ := List.eq_append_cons_of_mem there
      have := short before after split clean
      rw [split, reportIn_noise clean, reportIn, if_pos rfl, if_neg (by omega)]
    · have := reportIn_noise there []
      rw [List.append_nil] at this
      rw [this]
      rfl
  unfold decodePoll
  rw [none]

/-! ### The configured posts (R74, R82) -/

theorem configuredPosts_sorted (s : State) : s.configuredPosts.Pairwise (· < ·) :=
  (List.pairwise_map.mpr (List.pairwise_lt_range.imp fun h => Nat.succ_lt_succ h)).sublist List.filter_sublist

theorem mem_configuredPosts (s : State) (n : Nat) : n ∈ s.configuredPosts ↔
    1 ≤ n ∧ n ≤ 16 ∧ ∃ p ∈ s.spc.points, (p.number + 1) / 2 = n := by
  unfold State.configuredPosts
  rw [List.mem_filter, List.mem_map, List.any_eq_true]
  constructor
  · rintro ⟨⟨k, hk, rfl⟩, p, hp, post⟩
    rw [List.mem_range] at hk
    exact ⟨by omega, by omega, p, hp, beq_iff_eq.mp post⟩
  · rintro ⟨low, high, p, hp, post⟩
    exact ⟨⟨n - 1, List.mem_range.mpr (by omega), by omega⟩, p, hp, beq_iff_eq.mpr post⟩

/-! ### A side's command byte (R212) -/

theorem sideCommand_none (bare : s.point? n = none) : s.sideCommand n = 0 := by
  unfold State.sideCommand
  rw [bare]

theorem sideCommand_some (at_ : s.point? n = some p) (charged : s.charged n = some r) (profile : r.profile = some y)
    (rating : y.rating ≤ 3) : (s.sideCommand n).toNat = (if p.outlet = .on then 1 else 0) + y.rating * 2 +
      (if y.three = true then 8 else 0) + (if p.tapOpen = true then 16 else 0) := by
  have bit (b : Bool) (k : Nat) : b.toNat * k = if b = true then k else 0 := by cases b <;> simp
  have on_ : (p.outlet == .on).toNat = if p.outlet = .on then 1 else 0 := by
    rw [beq_eq_decide]
    by_cases h : p.outlet = .on <;> simp [h]
  unfold State.sideCommand commandByte
  rw [at_, charged]
  simp only [Option.bind_some, profile, BitVec.toNat_ofNat, bit, on_]
  split <;> split <;> split <;> omega

end

end Sys2Proof.Machine
end

section
/-! PROOFS. O46: polls that fail, and posts that go DOWN (R84, R85). -/

namespace Sys2Proof.Machine

set_option Elab.async false

section
variable {s t u w : State} {n m a b : Nat} {p : Point} {q : Post} {o : OutletState} {poll : OpenPoll}

/-! ### Bad polls (R84) -/

theorem badPoll_eq (at_ : s.post? n = some q) : s.badPoll n = if q.state = .good ∧ 4 ≤ q.bad then
      State.alarm .postFault n 0 (State.setFlag .postFault (s.modPost n fun x => { x with
        state := .fault
        bad := 5
        faultStart := some s.elapsed }))
    else s.modPost n fun x => { x with bad := min 5 (q.bad + 1) } := by
  unfold State.badPoll
  rw [at_]
  dsimp only
  by_cases fifth : 4 ≤ q.bad
  · have five : min 5 (q.bad + 1) = 5 := Nat.min_eq_left (by omega)
    rw [five]
    by_cases good : q.state = .good
    · rw [if_pos (by simp [good]), if_pos ⟨good, fifth⟩]
    · rw [if_neg (by simp [good]), if_neg fun h => good h.1]
  · have fewer : min 5 (q.bad + 1) ≠ 5 := by omega
    rw [if_neg (by simp [fewer]), if_neg fun h => fifth h.2]

theorem exec_postReport (on : s.powered = true) (rep : PostReport) : exec (.postReport rep) s = .next (match s.spc.poll with
    | some p => if s.elapsed ≤ p.sentAt + 50000 then (s.takeReport p rep).nextPoll else s
    | none => s) :=
  congrArg Host.Outcome.next (State.event_on on)

theorem exec_pollTimeout (on : s.powered = true) : exec .pollTimeout s = .next (match s.spc.poll with
    | some p => (if p.allOff = true then s.advanceTo (p.sentAt + 50000)
        else (s.advanceTo (p.sentAt + 50000)).badPoll p.post).nextPoll
    | none => s) :=
  congrArg Host.Outcome.next (State.event_on on)

theorem takeReport_off (off : poll.allOff = true) (rep : PostReport) : s.takeReport poll rep = s := if_pos off

theorem takeReport_bad {rep : PostReport} (asked : poll.allOff = false)
    (bad : rep.post.toNat ≠ poll.post ∨ reportCheckOk rep = false) : s.takeReport poll rep = s.badPoll poll.post := by
  unfold State.takeReport
  rw [if_neg (by simp [asked]), if_neg]
  simp only [Bool.and_eq_true, decide_eq_true_eq, not_and, Bool.not_eq_true]
  exact fun post => bad.resolve_left (not_not_intro post)

theorem takeReport_good {rep : PostReport} (asked : poll.allOff = false) (post : rep.post.toNat = poll.post)
    (sound : reportCheckOk rep = true) : s.takeReport poll rep = s.acceptReport poll rep := by
  unfold State.takeReport
  rw [if_neg (by simp [asked]), if_pos (by simp [post, sound])]

/-! ### Outlets taken from PWB together (R85, R75) -/

/-- Which outlets are out matters, not in which order they are named. -/
theorem OutletsOut.congr {g h : List Nat} (same : ∀ q, q ∈ g ↔ q ∈ h) (out : OutletsOut g o s w) : OutletsOut h o s w := by
  have contains (q : Nat) : g.contains q = h.contains q := by
    rw [Bool.eq_iff_iff, List.contains_iff_mem, List.contains_iff_mem, same]
  have any (f : Nat → Bool) : g.any f = h.any f := by
    rw [Bool.eq_iff_iff, List.any_eq_true, List.any_eq_true]
    simp only [same]
  obtain ⟨here, others, pwb, ceiling, load, pnp, spc, frame⟩ := out
  simp only [contains, any] at pwb load pnp
  exact ⟨fun q hq => here q ((same q).mpr hq), fun q hq => others q (mt (same q).mp hq), pwb, ceiling, load, pnp, spc, frame⟩

theorem OutletsOut.none (o : OutletState) (s : State) : OutletsOut [] o s s := by
  refine ⟨fun q h => absurd h List.not_mem_nil, fun _ _ => rfl, ?_, rfl, ?_, rfl, rfl, .refl _ s⟩
  · simp
  · simp

/-- The figures of some outlets and of one more. -/
theorem figures_snoc (g : List Nat) (b : Nat) (l : List OutletLoad) :
    ((l.filter fun e => (g ++ [b]).contains e.point).map OutletLoad.figure).sum =
      (((l.filter fun e => !g.contains e.point).filter fun e => [b].contains e.point).map OutletLoad.figure).sum +
      ((l.filter fun e => g.contains e.point).map OutletLoad.figure).sum := by
  induction l with
  | nil => rfl
  | cons e l ih =>
    have both : (g ++ [b]).contains e.point = (g.contains e.point || [b].contains e.point) := List.contains_append
    rw [List.filter_cons, List.filter_cons, List.filter_cons, both]
    cases old : g.contains e.point with
    | true =>
      simp only [Bool.true_or, if_true, Bool.not_true, Bool.false_eq_true, if_false, List.map_cons, List.sum_cons, ih]
      omega
    | false =>
      simp only [Bool.false_or, Bool.false_eq_true, if_false, Bool.not_false, if_true, List.filter_cons]
      cases [b].contains e.point with
      | true =>
        simp only [if_true, List.map_cons, List.sum_cons, ih]
        omega
      | false => simp only [Bool.false_eq_true, if_false, ih]

/-- Taking an outlet after others. -/
theorem OutletsOut.snoc {g : List Nat} (first : OutletsOut g o s u) (fresh : b ∉ g) : OutletsOut (g ++ [b]) o s (u.outletOut b o) := by
  obtain ⟨here, others, pwb, ceiling, load, pnp, spc, frame⟩ := first
  obtain ⟨here', others', pwb', ceiling', load', pnp', spc', frame'⟩ := outletOut_out b o u
  have at_b : u.point? b = s.point? b := others b fresh
  have flags : (u.outletOut b o).pnp = if (g ++ [b]).any fun q => ((s.point? q).bind Point.raisePending).isSome then
      s.pnp.flagged Flag.profileDone.bit else s.pnp := by
    rw [pnp', pnp, List.any_append]
    simp only [List.any_cons, List.any_nil, Bool.or_false, at_b]
    cases g.any fun q => ((s.point? q).bind Point.raisePending).isSome <;>
      cases ((s.point? b).bind Point.raisePending).isSome <;>
      simp [Pnp.flagged_flagged]
  refine ⟨fun q hq p at_ => ?_, fun q hq => ?_, ?_, ceiling'.trans ceiling, ?_, flags, ?_, ?_⟩
  · rcases List.mem_append.mp hq with old | new
    · rw [others' q fun h => fresh (List.mem_singleton.mp h ▸ old)]
      exact here q old p at_
    · obtain rfl := List.mem_singleton.mp new
      exact here' q new p (at_b.trans at_)
  · rw [List.mem_append, not_or] at hq
    exact (others' q hq.2).trans (others q hq.1)
  · rw [pwb', pwb]
    simp only [List.filter_filter, List.contains_append, Bool.not_or, Bool.or_and_distrib_left, Bool.and_comm]
  · rw [pwb] at load'
    dsimp only at load'
    rw [figures_snoc g b]
    omega
  · rw [spc', spc]
  · exact frame.trans frame'

theorem OutletsOut.apart {g : List Nat} (out : OutletsOut g o s w) (there : a ∈ g) : Apart a (w.point? a) w := by
  obtain ⟨-, -, pwb, -⟩ := out
  refine ⟨rfl, fun d hd => ?_, fun e he => ?_⟩
  · rw [pwb] at hd
    have := (List.mem_filter.mp hd).2
    by_cases kind : d.kind = .pump
    · exact .inl kind
    · refine .inr fun same => ?_
      simp [kind, same, there] at this
  · rw [pwb] at he
    have := (List.mem_filter.mp he).2
    intro same
    simp [same, there] at this

/-- The outlet of a side that goes out with its post (R85). -/
def State.faults (s : State) (n : Nat) : Bool :=
  match s.point? n with
  | some p => p.outlet == .on || p.outlet == .shed || (p.outlet == .off && s.demandQueued n)
  | none => false

theorem faultOutlet_eq (s : State) (n : Nat) :
    s.faultOutlet n = if s.faults n = true then s.outletOut n .faultOff else s := by
  unfold State.faultOutlet State.faults
  cases s.point? n with
  | none => rfl
  | some p => exact if_congr (by simp only [beq_eq_decide]) rfl rfl

theorem faults_congr (point : t.point? n = s.point? n) (queued : t.demandQueued n = s.demandQueued n) :
    t.faults n = s.faults n := by
  unfold State.faults
  rw [point, queued]

/-- Of an outlet taken from PWB nothing faults again, and the others as before. -/
theorem faults_outletOut (s : State) (a b : Nat) : (s.outletOut a .faultOff).faults b = (s.faults b && (b != a)) := by
  obtain ⟨here, others, pwb, -⟩ := outletOut_out a .faultOff s
  by_cases same : b = a
  · subst same
    rw [bne_self_eq_false, Bool.and_false]
    unfold State.faults
    cases at_ : s.point? b with
    | none =>
      have none : (s.outletOut b .faultOff).point? b = none := by
        unfold State.outletOut
        have gone : ((((s.dropOutlet b).dropDemands b).setOutlet b .faultOff).point? b) = Option.none := by
          have := modPoint_point? ((s.dropOutlet b).dropDemands b) (f := fun p => { p with outlet := .faultOff })
            (fun _ => rfl) b b
          rw [if_pos rfl] at this
          refine Eq.trans this ?_
          show (s.point? b).map _ = _
          rw [at_]
          rfl
        rw [raiseOutcome_none (by rw [gone]; rfl)]
        exact gone
      rw [none]
    | some p =>
      rw [here b (List.mem_singleton_self b) p at_]
      rfl
  · rw [bne_iff_ne.mpr same, Bool.and_true]
    refine faults_congr (others b (by simpa using same)) ?_
    unfold State.demandQueued State.hasDemand
    rw [pwb, List.any_filter]
    refine List.any_congr rfl fun d => ?_
    by_cases here : d.source = b
    · simp [here, same]
    · simp [here]

/-- Both outlets of a post, as far as they fault (R85). -/
theorem faultOutlets_out (s : State) (a b : Nat) :
    OutletsOut ([a, b].filter fun m => s.faults m) .faultOff s ((s.faultOutlet a).faultOutlet b) := by
  rw [faultOutlet_eq s a]
  by_cases first : s.faults a = true
  · rw [if_pos first, faultOutlet_eq, faults_outletOut]
    by_cases second : s.faults b = true ∧ b ≠ a
    · rw [if_pos (by simp [second.1, second.2])]
      have both : ([a, b].filter fun m => s.faults m) = [a] ++ [b] := by simp [first, second.1]
      rw [both]
      exact (outletOut_out a .faultOff s).snoc (by simpa using second.2)
    · rw [if_neg (by simpa using second)]
      refine (outletOut_out a .faultOff s).congr fun q => ?_
      rw [List.mem_singleton, List.mem_filter, List.mem_cons, List.mem_singleton]
      constructor
      · rintro rfl
        exact ⟨.inl rfl, first⟩
      · rintro ⟨rfl | rfl, faults⟩
        · rfl
        · by_contra other
          exact second ⟨faults, other⟩
  · rw [if_neg first, faultOutlet_eq]
    by_cases second : s.faults b = true
    · rw [if_pos second]
      refine (outletOut_out b .faultOff s).congr fun q => ?_
      rw [List.mem_singleton, List.mem_filter, List.mem_cons, List.mem_singleton]
      constructor
      · rintro rfl
        exact ⟨.inr rfl, second⟩
      · rintro ⟨rfl | rfl, faults⟩
        · exact absurd faults first
        · rfl
    · rw [if_neg second]
      have none : ([a, b].filter fun m => s.faults m) = [] := by simp [first, second]
      rw [none]
      exact .none .faultOff s

theorem modPost_post? (at_ : s.post? n = some q) {f : Post → Post} (keeps : ∀ q, (f q).number = q.number) :
    (s.modPost n f).post? n = some (f q) := by
  unfold State.post? State.modPost at *
  dsimp only
  rw [lookupKey_modifyKey keeps, if_pos rfl, at_]
  rfl

/-- A post in FAULT becomes DOWN (R85). -/
theorem postFails_says (at_ : s.post? n = some q) (gone : List Nat)
    (which : gone = [2 * n - 1, 2 * n].filter fun m => s.faults m) :
    ∃ w t, OutletsOut gone .faultOff (s.modPost n fun x => { x with state := .down }) w ∧ s.postFails n = t ∧
      t = (w.settleSince s).setFlag .outletFaultOff ∧ (∀ m ∈ gone, t.point? m = w.point? m) ∧
      t.post? n = some { q with state := .down } := by
  let u : State := s.modPost n fun x => { x with state := .down }
  have at_u : u.post? n = some { q with state := .down } := modPost_post? at_ fun _ => rfl
  have out : OutletsOut gone .faultOff u ((u.faultOutlet (2 * n - 1)).faultOutlet (2 * n)) := by
    rw [which]
    exact faultOutlets_out u (2 * n - 1) (2 * n)
  refine ⟨_, _, out, rfl, rfl, fun m there => ?_, ?_⟩
  · exact (settle_apart _ s (out.apart there)).2.1
  · have first := out.2.2.2.2.2.2.1
    have posts : OnlyPoints u (((u.faultOutlet (2 * n - 1)).faultOutlet (2 * n)).settleSince s) :=
      OnlyPoints.trans first (settle_points _ s).2
    have same : (((u.faultOutlet (2 * n - 1)).faultOutlet (2 * n)).settleSince s).post? n = u.post? n := by
      unfold State.post?
      rw [posts]
    exact same.trans at_u

theorem postFails_advanced (at_ : s.post? n = some q) (d : Nat) :
    ∃ w t, OutletsOut ([2 * n - 1, 2 * n].filter fun m => s.faults m) .faultOff
        ((s.advanceTo d).modPost n fun x => { x with state := .down }) w ∧ (s.advanceTo d).postFails n = t ∧
      t = (w.settleSince (s.advanceTo d)).setFlag .outletFaultOff ∧
      (∀ m ∈ [2 * n - 1, 2 * n].filter fun m => s.faults m, t.point? m = w.point? m) ∧
      t.post? n = some { q with state := .down } := by
  refine postFails_says ?_ _ (List.filter_congr fun m _ => (faults_congr ?_ ?_).symm)
  · unfold State.post?
    rw [advanceTo_spc]
    exact at_
  · unfold State.point?
    rw [advanceTo_spc]
  · unfold State.demandQueued State.hasDemand
    rw [advanceTo_pwb]

theorem exec_faultGraceEnd_other (on : s.powered = true) (at_ : s.post? n = some q) (other : q.state ≠ .fault) :
    exec (.faultGraceEnd n) s = .next s := by
  show Host.Outcome.next (s.event _) = _
  rw [State.event_on on]
  simp only [at_]
  cases state : q.state with
  | fault => exact absurd state other
  | good => rfl
  | down => rfl

theorem exec_faultGraceEnd_fault {k : Nat} (on : s.powered = true) (at_ : s.post? n = some q)
    (fault : q.state = .fault) (start : q.faultStart = some k) :
    exec (.faultGraceEnd n) s = .next ((s.advanceTo (k + s.settings.faultGrace * 1000000)).postFails n) := by
  show Host.Outcome.next (s.event _) = _
  rw [State.event_on on]
  simp only [at_, fault, start]

end

/-- Settles O46: the cycle's start and the next poll (`cycle_nextPoll`), the line (`decodePoll_report`), the configured
posts, the commands, the bad polls (`badPoll_eq`) and the end of the fault grace (`faultOutlets_out`). -/
theorem pollsAndPostFaults : Obligations.PollsAndPostFaults := by
  refine ⟨fun s on idle done => ?_, fun s => ⟨nextPoll_end, fun n r more => nextPoll_goes more⟩,
    ⟨fun noise more rep clean => decodePoll_report clean more rep, decodePoll_timeout⟩,
    fun s => ⟨configuredPosts_sorted s, mem_configuredPosts s⟩,
    fun n s => ⟨sideCommand_none, fun p r y at_ charged profile rating => sideCommand_some at_ charged profile rating⟩,
    ?_, fun rep s on idle => ?_, fun n k q s on at_ => ?_⟩
  · intro v polled
    have runs := exec_pollCycleStart on idle done
    rw [startCycle_eq] at runs
    refine ⟨fun line bare => ?_, fun line n r posts => ?_, fun none => ?_⟩
    · rw [runs, if_neg line, bare, nextPoll_end (s := s.cycle s.spc.nextCycle []) rfl]
      show Host.Outcome.next _ = Host.Outcome.next _
      rw [← idle, ← done]
      rfl
    · show exec .pollCycleStart s = _
      rw [runs, if_neg line, posts, cycle_nextPoll]
      unfold State.pollOf
      rw [decide_eq_false line]
      rfl
    · show exec .pollCycleStart s = _
      rw [runs, if_pos none, cycle_nextPoll]
      unfold State.pollOf
      rw [decide_eq_true none]
      rfl
  · intro bad rep o q s on poll at_
    have taken := exec_postReport on rep
    have timeout := exec_pollTimeout on
    rw [poll] at taken timeout
    dsimp only at taken timeout
    refine ⟨fun early off => ?_, fun early asked wrong => ?_, fun late => ?_, ?_⟩
    · rw [taken, if_pos early, takeReport_off off]
    · rw [taken, if_pos early, takeReport_bad asked wrong, badPoll_eq at_]
    · rw [taken, if_neg (by omega)]
    · intro v
      have at_v : v.post? o.post = some q := by
        unfold State.post?
        rw [advanceTo_spc]
        exact at_
      rw [timeout, badPoll_eq at_v]
      split <;> rfl
  · have taken := exec_postReport on rep
    have timeout := exec_pollTimeout on
    rw [idle] at taken timeout
    exact ⟨taken, timeout⟩
  · refine ⟨fun other => exec_faultGraceEnd_other on at_ other, fun fault start => ?_⟩
    · have runs := exec_faultGraceEnd_fault on at_ fault start
      intro v u gone
      obtain ⟨w, t, out, same, rest⟩ := postFails_advanced at_ (k + s.settings.faultGrace * 1000000)
      exact ⟨w, t, out, runs.trans (congrArg Host.Outcome.next same), rest⟩

end Sys2Proof.Machine
end

section
/-! PROOFS. What PWB's work can do to records: a raise served writes the profile of the occupancy at its point, and
nothing else of any record changes (R98). -/

namespace Sys2Proof.Machine

set_option Elab.async false

section
variable {s t u : State} {n m q : Nat} {r : Occupancy} {d : Demand}

/-! ### Points that only calm down -/

/-- From `s` to `t` no point gets a raise or another occupancy. -/
def Calmer (s t : State) : Prop := ∀ q x, t.point? q = some x → ∃ p, s.point? q = some p ∧ x.charging = p.charging ∧
  (x.raisePending = none ∨ x.raisePending = p.raisePending)

theorem Calmer.refl (s : State) : Calmer s s := fun _ x h => ⟨x, h, rfl, .inr rfl⟩

theorem Calmer.trans (h : Calmer s t) (g : Calmer t u) : Calmer s u := by
  intro q z hz
  obtain ⟨x, hx, charging, raise⟩ := g q z hz
  obtain ⟨p, hp, charging', raise'⟩ := h q x hx
  refine ⟨p, hp, charging.trans charging', ?_⟩
  rcases raise with none | same
  · exact .inl none
  · rw [same]
    exact raise'

theorem Calmer.of_spc (h : t.spc = s.spc) : Calmer s t := fun q x hx =>
  ⟨x, (point?_congr h q).symm.trans hx, rfl, .inr rfl⟩

theorem calmer_modPoint {f : Point → Point} (number : ∀ p, (f p).number = p.number)
    (charging : ∀ p, (f p).charging = p.charging)
    (raise : ∀ p, (f p).raisePending = none ∨ (f p).raisePending = p.raisePending) (s : State) (n : Nat) :
    Calmer s (s.modPoint n f) := by
  intro q x hx
  rw [modPoint_point? s number] at hx
  split at hx
  · cases at_ : s.point? q with
    | none =>
      rw [at_] at hx
      cases hx
    | some p =>
      rw [at_] at hx
      obtain rfl := Option.some.inj hx
      exact ⟨p, rfl, charging p, raise p⟩
  · exact ⟨x, hx, rfl, .inr rfl⟩

theorem setTap_charging (p : Point) (b : Bool) : (p.setTap b).charging = p.charging := by
  unfold Point.setTap
  split <;> rfl

theorem calmer_followTap (s : State) (n : Nat) : Calmer s (s.followTap n) :=
  calmer_modPoint (f := fun p => p.setTap (s.tapMayOpen p)) (fun p => Point.setTap_number p _)
    (fun p => setTap_charging p _) (fun p => .inr (setTap_raisePending p _)) s n

theorem calmer_raiseOutcome (s : State) (n : Nat) (o : RaiseOutcome) : Calmer s (s.raiseOutcome n o) := by
  unfold State.raiseOutcome
  split
  · exact calmer_modPoint (f := fun p => { p with raisePending := none, raiseLast := o }) (fun _ => rfl)
      (fun _ => rfl) (fun _ => .inl rfl) s n
  · exact .refl s

theorem calmer_energise (s : State) (n figure : Nat) : Calmer s (s.energise n figure) :=
  calmer_modPoint (f := fun p => { p with outlet := .on, interval := max p.interval figure }) (fun _ => rfl)
    (fun _ => rfl) (fun _ => .inr rfl) s n

theorem calmer_shedFailed (s : State) (n figure : Nat) : Calmer s (s.shedFailed n figure) :=
  calmer_modPoint (f := fun p => { p with outlet := .shed }) (fun _ => rfl) (fun _ => rfl) (fun _ => .inr rfl) s n

theorem calmer_raiseServed (s : State) (n : Nat) : Calmer s (s.raiseServed n) := by
  unfold State.raiseServed
  split
  · exact .refl s
  · split
    next y k _ _ =>
      have raised : Calmer s ((s.modOcc k fun r => { r with profile := some y }).modPoint n fun p =>
          { p with interval := max p.interval y.figure }) :=
        calmer_modPoint (f := fun p => { p with interval := max p.interval y.figure }) (fun _ => rfl)
          (fun _ => rfl) (fun _ => .inr rfl) (s.modOcc k fun r => { r with profile := some y }) n
      exact (raised.trans (calmer_followTap _ n)).trans (calmer_raiseOutcome _ n .applied)
    · exact .refl s

theorem calmer_serveHead (s : State) (d : Demand) : Calmer s (s.serveHead d) := by
  cases kind : d.kind with
  | energise =>
    rw [serveHead_energise kind]
    exact calmer_energise s.popDemand d.source d.need
  | raise =>
    rw [serveHead_raise kind]
    exact calmer_raiseServed (s.popDemand.raised d) d.source
  | pump =>
    rw [serveHead_pump kind]
    exact .of_spc ((within_tryAuthorise _ _).spc.trans (within_modSale _ _ _).spc)

theorem calmer_failHead (s : State) (d : Demand) (c : FailCause) (b : Bool) : Calmer s (s.failHead d c b) := by
  have first : Calmer s (s.popDemand.setFlagIf b .askShort) := .of_spc (within_setFlagIf _ _ _).spc
  cases kind : d.kind with
  | energise =>
    rw [failHead_energise kind]
    exact first.trans (calmer_shedFailed _ _ _)
  | raise =>
    rw [failHead_raise kind]
    exact first.trans (calmer_raiseOutcome _ _ _)
  | pump =>
    rw [failHead_pump kind]
    exact first.trans (.of_spc (within_pumpFailed _ _ _).spc)

/-! ### The records (R98) -/

/-- No RAISE in the queue is for the occupancy. -/
def State.unraised (s : State) (m : Nat) : Prop :=
  ∀ d ∈ s.pwb.demands, d.kind = .raise → ∀ x, s.point? d.source = some x → x.charging = some m → x.raisePending = none

theorem State.unraised.calmer (h : s.unraised m) (calm : Calmer s t)
    (queue : ∀ d ∈ t.pwb.demands, ∃ x ∈ s.pwb.demands, d.kind = x.kind ∧ d.source = x.source) : t.unraised m := by
  intro d hd kind x hx charging
  obtain ⟨d', hd', kind', source⟩ := queue d hd
  obtain ⟨p, hp, same, raise⟩ := calm d.source x hx
  have none := h d' hd' (kind'.symm.trans kind) p (source ▸ hp) (same.symm.trans charging)
  exact raise.elim id fun e => e.trans none

theorem raiseServed_occ (s : State) (n : Nat) : (s.raiseServed n).occ = s.occ ∨ ∃ p y k, s.point? n = some p ∧
    p.raisePending = some y ∧ p.charging = some k ∧
    (s.raiseServed n).occ = (s.modOcc k fun r => { r with profile := some y }).occ := by
  unfold State.raiseServed
  split
  · exact .inl rfl
  next p at_ =>
    split
    next y k raise charging => exact .inr ⟨p, y, k, at_, raise, charging, (within_raiseOutcome _ _ _).occ⟩
    · exact .inl rfl

theorem occ?_congr (h : t.occ = s.occ) (m : Nat) : t.occ? m = s.occ? m := by
  unfold State.occ?
  rw [h]

theorem serveHead_occ (s : State) (d : Demand) : (s.serveHead d).occ = s.occ ∨ d.kind = .raise ∧
    ∃ p y k, s.point? d.source = some p ∧ p.raisePending = some y ∧ p.charging = some k ∧
    (s.serveHead d).occ = (s.modOcc k fun r => { r with profile := some y }).occ := by
  cases kind : d.kind with
  | energise =>
    rw [serveHead_energise kind]
    exact .inl rfl
  | raise =>
    rw [serveHead_raise kind]
    exact (raiseServed_occ (s.popDemand.raised d) d.source).imp id fun h => ⟨rfl, h⟩
  | pump =>
    rw [serveHead_pump kind]
    exact .inl ((within_tryAuthorise _ _).occ.trans (within_modSale _ _ _).occ)

theorem failHead_occ (s : State) (d : Demand) (c : FailCause) (b : Bool) : (s.failHead d c b).occ = s.occ := by
  have first : (s.popDemand.setFlagIf b .askShort).occ = s.occ := (within_setFlagIf _ _ _).occ
  cases kind : d.kind with
  | energise =>
    rw [failHead_energise kind]
    exact (within_shedFailed _ _ _).occ.trans first
  | raise =>
    rw [failHead_raise kind]
    exact (within_raiseOutcome _ _ _).occ.trans first
  | pump =>
    rw [failHead_pump kind]
    exact (within_pumpFailed _ _ _).occ.trans first

/-- Whatever PWB goes on to do, a record whose RAISE does not wait stays (R98). -/
theorem settle_record (before : State) (x : Option Occupancy) (here : s.occ? m = x) (quiet : s.unraised m) :
    s.settle.occ? m = x ∧ (s.settleSince before).occ? m = x := by
  have both := settle_keeps (P := fun u => u.occ? m = x ∧ u.unraised m) ?_ ?_ ?_ ?_ ?_ s before ⟨here, quiet⟩
  · exact ⟨both.1.1, both.2.1⟩
  · rintro s d rest queue ⟨here, quiet⟩
    refine ⟨?_, quiet.calmer (calmer_serveHead s d) fun d' hd => ?_⟩
    · rcases serveHead_occ s d with same | ⟨kind, p, y, k, at_, raise, charging, occ⟩
      · exact (occ?_congr same m).trans here
      · have other : m ≠ k := by
          rintro rfl
          have := quiet d (by simp [queue]) kind p at_ charging
          rw [this] at raise
          cases raise
        exact ((occ?_congr occ m).trans (modOcc_other (f := fun r => { r with profile := some y }) other
          fun _ => rfl)).trans here
    · rw [(serveHead_lists s d).1] at hd
      exact ⟨d', List.mem_of_mem_tail hd, rfl, rfl⟩
  · rintro s d rest c b queue ⟨here, quiet⟩
    refine ⟨(occ?_congr (failHead_occ s d c b) m).trans here, quiet.calmer (calmer_failHead s d c b) fun d' hd => ?_⟩
    rw [(failHead_lists s d c b).1] at hd
    exact ⟨d', List.mem_of_mem_tail hd, rfl, rfl⟩
  · rintro s l ⟨here, quiet⟩
    exact ⟨(occ?_congr (within_recallFor s l).occ m).trans here,
      quiet.calmer (.of_spc (within_recallFor s l).spc) (recallFor_lists s l).1⟩
  · rintro s d a ⟨here, quiet⟩
    exact ⟨(occ?_congr (within_askFor s d a).occ m).trans here,
      quiet.calmer (.of_spc (within_askFor s d a).spc) (askFor_lists s d a).1⟩
  · rintro s e r shed ⟨here, quiet⟩
    exact ⟨here, quiet.calmer (calmer_energise _ e.point e.figure) fun d hd => ⟨d, hd, rfl, rfl⟩⟩

/-- A record as it was, its profile apart. -/
def OnlyProfile (m : Nat) (r : Occupancy) (s : State) : Prop := ∃ y, s.occ? m = some { r with profile := y }

theorem OnlyProfile.congr (h : OnlyProfile m r s) (same : t.occ = s.occ) : OnlyProfile m r t := by
  obtain ⟨y, live⟩ := h
  exact ⟨y, (occ?_congr same m).trans live⟩

/-- Whatever PWB goes on to do, of a record only the profile changes (R98). -/
theorem settle_profile (before : State) (h : OnlyProfile m r s) :
    OnlyProfile m r s.settle ∧ OnlyProfile m r (s.settleSince before) := by
  refine settle_keeps (P := OnlyProfile m r) ?_ ?_ ?_ ?_ ?_ s before h
  · intro s d rest queue h
    rcases serveHead_occ s d with same | ⟨-, p, y, k, -, -, -, occ⟩
    · exact h.congr same
    · obtain ⟨z, live⟩ := h
      by_cases own : m = k
      · subst own
        have now := modOcc_self (f := fun r => { r with profile := some y }) live fun _ => rfl
        exact ⟨some y, (occ?_congr occ m).trans now⟩
      · exact ⟨z, ((occ?_congr occ m).trans (modOcc_other (f := fun r => { r with profile := some y }) own
          fun _ => rfl)).trans live⟩
  · exact fun s d rest c b queue h => h.congr (failHead_occ s d c b)
  · exact fun s l h => h.congr (within_recallFor s l).occ
  · exact fun s d a h => h.congr (within_askFor s d a).occ
  · exact fun s e r shed h => h

/-! ### Answers after work -/

/-- The answer to a request whose decision set flags at most (R180, R181). -/
theorem writeAnswer_held {ps : List Part} {code : Nat} (h : Within ps (s.takeFrame code) t) (r : Reply) :
    t.writeAnswer code r = { t with pnp := t.pnp.answered code r } := by
  have port : t.pnp.request = some code ∧ t.pnp.transaction = none := by
    rcases h.port with same | ⟨mask, same⟩ <;> rw [same] <;> exact ⟨rfl, rfl⟩
  unfold State.writeAnswer Pnp.answered
  rw [← port.1, ← port.2]

theorem writeAnswer_frame {ps qs : List Part} {code : Nat} (h : Within ps (s.takeFrame code) t) (r : Reply)
    (among : .pnp :: ps ⊆ qs := by decide) : OnlyChanges qs s (t.writeAnswer code r) := by
  have first : OnlyChanges (.pnp :: ps) s (s.takeFrame code) := fun p out => by
    cases p with
    | pnp => exact absurd (List.mem_cons_self ..) out
    | _ => rfl
  have last : OnlyChanges (.pnp :: ps) t (t.writeAnswer code r) := fun p out => by
    cases p with
    | pnp => exact absurd (List.mem_cons_self ..) out
    | _ => rfl
  exact ((first.trans h.frame).trans last).mono among

end

end Sys2Proof.Machine
end

section
/-! PROOFS. PROFILE SET step by step (R94, R96 to R98): its result values, its refusals, the raise, and the setting
that is written at once. -/

namespace Sys2Proof.Machine

set_option Elab.async false

section
variable {s t u : State} {n m q g1 g2 g3 : Nat} {p : Point} {r : Occupancy} {old new : Profile}

/-! ### The result values (R94) -/

theorem groupRating_eq {top present : Nat} (low : top ≤ 3) (g : Nat) :
    groupRating top present g = if g = 15 then present else if g ≤ top then g else 15 := by
  unfold groupRating
  by_cases keep : g = 15
  · rw [if_neg (by omega), if_pos keep, if_pos keep]
  · rw [if_neg keep, if_neg keep]

theorem groupPhases_eq (three present : Bool) (g : Nat) : groupPhases three present g =
    if g = 15 then (if present = true then 1 else 0) else if g = 0 ∨ (g = 1 ∧ three = true) then g else 15 := by
  unfold groupPhases
  by_cases zero : g = 0
  · subst zero
    simp
  · by_cases one : g = 1
    · subst one
      cases three <;> simp
    · by_cases keep : g = 15
      · subst keep
        cases present <;> simp
      · simp [zero, one, keep]

theorem groupTap_eq (fitted present : Bool) (g : Nat) : groupTap fitted present g =
    if g = 15 then (if present = true then 0 else 1) else if g = 1 ∨ (g = 0 ∧ fitted = true) then g else 15 := by
  unfold groupTap
  by_cases one : g = 1
  · subst one
    simp
  · by_cases zero : g = 0
    · subst zero
      cases fitted <;> simp
    · by_cases keep : g = 15
      · subst keep
        cases present <;> simp
      · simp [zero, one, keep]

theorem groupPhases_low {three present : Bool} {g : Nat} (good : groupPhases three present g ≠ 15) :
    groupPhases three present g ≤ 1 := by
  unfold groupPhases at good ⊢
  split
  · omega
  · split
    · omega
    · split
      · exact Bool.toNat_le present
      · simp_all

theorem groupTap_low {fitted present : Bool} {g : Nat} (good : groupTap fitted present g ≠ 15) :
    groupTap fitted present g ≤ 1 := by
  unfold groupTap at good ⊢
  split
  · omega
  · split
    · omega
    · split
      · exact Bool.toNat_le _
      · simp_all

theorem profileResult_eq (low : p.maxRating ≤ 3) (old : Profile) (g1 g2 g3 : Nat) : profileResult p old g1 g2 g3 =
    ⟨if g1 = 15 then old.rating else if g1 ≤ p.maxRating then g1 else 15,
      if g2 = 15 then (if old.three = true then 1 else 0) else if g2 = 0 ∨ (g2 = 1 ∧ p.three = true) then g2 else 15,
      if g3 = 15 then (if old.tapOpen = true then 0 else 1)
        else if g3 = 1 ∨ (g3 = 0 ∧ p.tapFitted = true) then g3 else 15⟩ := by
  unfold profileResult
  rw [groupRating_eq low, groupPhases_eq, groupTap_eq]

theorem valid_iff (x : ProfileResult) : x.valid = true ↔ x.rating ≠ 15 ∧ x.phases ≠ 15 ∧ x.tap ≠ 15 := by
  simp [ProfileResult.valid, and_assoc]

/-! ### The refusals (R96) -/

theorem demandQueued_iff (s : State) (q : Nat) :
    s.demandQueued q = true ↔ ∃ d ∈ s.pwb.demands, d.kind = .energise ∧ d.source = q := by
  simp [State.demandQueued, State.hasDemand]

/-- The boat is not alongside at its point. -/
def Point.away (p : Point) (r : Occupancy) : Prop := r.state ≠ .alongside ∨ r.number ∈ p.arrivals

/-- The account stands against the setting. -/
def Occupancy.noFunds (r : Occupancy) (old new : Profile) : Prop :=
  r.account.state = .barred ∨ (r.account.state = .overdue ∧ old.figure < new.figure)

/-- A demand or a raise of the outlet stands against the setting. -/
def State.busyPoint (s : State) (p : Point) (old new : Profile) : Prop := p.raisePending.isSome = true ∨
  ((∃ d ∈ s.pwb.demands, d.kind = .energise ∧ d.source = p.number) ∧ (new.rating ≠ old.rating ∨ new.three ≠ old.three))

theorem profileRefusal_state (away : p.away r) : s.profileRefusal r p old new = some .state := by
  unfold State.profileRefusal
  exact if_pos (by simpa [Point.away] using away)

theorem profileRefusal_present (here : ¬ p.away r) : s.profileRefusal r p old new =
    if r.account.state = .barred then some .funds
    else if r.account.state = .overdue && old.figure < new.figure then some .funds
    else if p.raisePending.isSome then some .busy
    else if s.demandQueued p.number && (new.rating != old.rating || new.three != old.three) then some .busy
    else none := by
  unfold State.profileRefusal
  exact if_neg (by simpa [Point.away] using here)

theorem profileRefusal_funds (here : ¬ p.away r) (noFunds : r.noFunds old new) :
    s.profileRefusal r p old new = some .funds := by
  rw [profileRefusal_present here]
  rcases noFunds with barred | ⟨overdue, raise⟩
  · rw [if_pos barred]
  · rw [if_neg (by simp [overdue]), if_pos (by simp [overdue, raise])]

theorem profileRefusal_paid (here : ¬ p.away r) (funds : ¬ r.noFunds old new) : s.profileRefusal r p old new =
    if p.raisePending.isSome then some .busy
    else if s.demandQueued p.number && (new.rating != old.rating || new.three != old.three) then some .busy
    else none := by
  rw [profileRefusal_present here]
  obtain ⟨standing, raise⟩ := not_or.mp funds
  rw [if_neg standing, if_neg (by simpa using raise)]

theorem profileRefusal_busy (here : ¬ p.away r) (funds : ¬ r.noFunds old new) (busy : s.busyPoint p old new) :
    s.profileRefusal r p old new = some .busy := by
  rw [profileRefusal_paid here funds]
  rcases busy with raise | ⟨queued, differs⟩
  · rw [if_pos raise]
  · split
    · rfl
    · refine if_pos ?_
      rw [Bool.and_eq_true, Bool.or_eq_true, bne_iff_ne, bne_iff_ne, demandQueued_iff]
      exact ⟨queued, differs⟩

theorem profileRefusal_none (here : ¬ p.away r) (funds : ¬ r.noFunds old new) (free : ¬ s.busyPoint p old new) :
    s.profileRefusal r p old new = none := by
  rw [profileRefusal_paid here funds]
  obtain ⟨raise, queued⟩ := not_or.mp free
  rw [if_neg raise, if_neg]
  rw [Bool.and_eq_true, Bool.or_eq_true, bne_iff_ne, bne_iff_ne, demandQueued_iff]
  exact queued

/-! ### The request (R96) -/

theorem exec_profileSet_nowhere (taken : Takes 43 s) (low : 1 ≤ n) (high : n ≤ 64) (live : s.occ? n = some r)
    (none : s.berthPoint r.berth = none) :
    exec (.profileSet n g1 g2 g3) s = .next { s with pnp := s.pnp.answered 43 (.refused .state) } := by
  have nowhere : (s.takeFrame 43).berthPoint r.berth = Option.none := none
  refine (congrArg Host.Outcome.next ((occRequest_taken taken n _).2.2 low high r live)).trans ?_
  simp only [nowhere, Option.bind_none]
  rfl

/-- PROFILE SET of a record with a profile at its point (R94, R96). -/
theorem exec_profileSet (taken : Takes 43 s) (low : 1 ≤ n) (high : n ≤ 64) (live : s.occ? n = some r)
    (berth : s.berthPoint r.berth = some q) (at_ : s.point? q = some p) (profile : r.profile = some old) :
    ((profileResult p old g1 g2 g3).valid = false → exec (.profileSet n g1 g2 g3) s = .next { s with
      pnp := s.pnp.answered 43 (.refusedWith .range (profileResult p old g1 g2 g3).datum) }) ∧
    (∀ c, (profileResult p old g1 g2 g3).valid = true →
      s.profileRefusal r p old (profileResult p old g1 g2 g3).profile = some c →
      exec (.profileSet n g1 g2 g3) s = .next { s with pnp := s.pnp.answered 43 (.refused c) }) ∧
    ((profileResult p old g1 g2 g3).valid = true →
      s.profileRefusal r p old (profileResult p old g1 g2 g3).profile = none →
      exec (.profileSet n g1 g2 g3) s =
        .next (((s.takeFrame 43).setProfile n p old (profileResult p old g1 g2 g3).profile).1.writeAnswer 43
          ((s.takeFrame 43).setProfile n p old (profileResult p old g1 g2 g3).profile).2)) := by
  have point : ((s.takeFrame 43).berthPoint r.berth).bind (s.takeFrame 43).point? = some p := by
    have : (s.takeFrame 43).berthPoint r.berth = some q := berth
    rw [this]
    exact at_
  have refusal : ∀ new, (s.takeFrame 43).profileRefusal r p old new = s.profileRefusal r p old new := fun _ => rfl
  have runs : exec (.profileSet n g1 g2 g3) s = .next _ :=
    congrArg Host.Outcome.next ((occRequest_taken taken n _).2.2 low high r live)
  refine ⟨fun bad => runs.trans ?_, fun c good why => runs.trans ?_, fun good fine => runs.trans ?_⟩
  · simp only [point, profile, bad, Bool.not_false, if_true]
    rfl
  · simp only [point, profile, good, Bool.not_true, Bool.false_eq_true, if_false, refusal, why]
    rfl
  · simp only [point, profile, good, Bool.not_true, Bool.false_eq_true, if_false, refusal, fine]

/-! ### The raise (R98) -/

/-- A raise PENDING at a point, its RAISE at the end of PWB's queue. -/
def State.raising (q : Nat) (new : Profile) (need : Nat) (s : State) : State :=
  { s.modPoint q fun x => { x with raisePending := some new, raiseLast := .none } with
    moments := s.moments + 1
    pwb := { s.pwb with demands := s.pwb.demands ++ [Demand.mk (s.moments + 1) .raise q need false []] } }

theorem raising_within (s : State) (q : Nat) (new : Profile) (need : Nat) :
    Within [.moments, .pwb, .spc] s (s.raising q new need) :=
  ((within_modPoint s q _).andThen (within_stamp _) : Within [.moments, .spc] s _).andThen (within_pwb _ _)

theorem setProfile_raise (number : p.number = q) (raise : p.outlet = .on ∧ p.charging = some n ∧ old.figure < new.figure) :
    s.setProfile n p old new = if 8 ≤ s.pwb.demands.length then (s, .refused .busy)
      else (if s.pwb.demands = [] then (s.raising q new (new.figure - old.figure)).settle
        else s.raising q new (new.figure - old.figure), .accepted false []) := by
  subst number
  unfold State.setProfile
  rw [if_pos (by simp [raise.1, raise.2.1, raise.2.2])]
  refine if_congr decide_eq_true_iff rfl ?_
  unfold State.beginRaise
  dsimp only
  refine congrArg (·, _) ?_
  exact if_congr List.isEmpty_iff rfl rfl

/-- A raise served at once: it fits, nothing is shed and no demand waits (R57, R98). -/
theorem raising_served {need : Nat} (idle : s.pwb.demands = []) (shed : s.pwb.shed = [])
    (fits : (need : Int) ≤ s.ceiling - s.load) (at_ : s.point? q = some p) (charging : p.charging = some n)
    (live : s.occ? n = some r) (along : r.state = .alongside) (standing : r.account.state ≠ .barred) :
    (s.raising q new need).settle.hasFlag .profileDone = true ∧
    (s.raising q new need).settle.occ? n = some { r with profile := some new } ∧
    (s.raising q new need).settle.point? q = some (Point.setTap { p with
      raisePending := none
      raiseLast := .applied
      interval := max p.interval new.figure } (p.tapFitted && new.tapOpen)) ∧
    (s.raising q new need).settle.pwb = { s.pwb with energised := s.pwb.energised.map fun e =>
      if e.point = q then { e with figure := e.figure + need } else e } ∧
    Within [.moments, .occ, .pwb, .spc] s (s.raising q new need).settle := by
  have pwb : (s.raising q new need).pwb = { s.pwb with
      demands := [Demand.mk (s.moments + 1) .raise q need false []] } := by
    have queue : s.pwb.demands ++ [Demand.mk (s.moments + 1) .raise q need false []] =
        [Demand.mk (s.moments + 1) .raise q need false []] := by
      rw [idle]
      rfl
    rw [← queue]
    rfl
  have queue := congrArg Pwb.demands pwb
  have room : (s.raising q new need).fits (Demand.mk (s.moments + 1) .raise q need false []) = true := by
    rw [fits_iff]
    exact ⟨fits, nofun⟩
  obtain ⟨-, served, -⟩ := serveHead_served queue
  obtain ⟨lists, written, -, -⟩ := served rfl
  have here : (s.raising q new need).point? q = some { p with raisePending := some new, raiseLast := .none } :=
    modPoint_point?_self s (f := fun x => { x with raisePending := some new, raiseLast := .none }) at_ fun _ => rfl
  obtain ⟨now, -, point, flag⟩ := written _ new n r here rfl charging live
  have runs : (s.raising q new need).settle = (s.raising q new need).serveHead
      (Demand.mk (s.moments + 1) .raise q need false []) := by
    rw [settle_served queue room, settle_nil (by rw [lists]), restorePass_nil]
    rw [lists, pwb]
    exact shed
  rw [decide_eq_true (show r.state = .alongside ∧ r.account.state ≠ .barred from ⟨along, standing⟩), Bool.and_true] at point
  rw [runs]
  refine ⟨flag, now, point, ?_, ?_⟩
  · rw [lists, pwb, ← idle]
  · rw [serveHead_raise rfl]
    exact ((raising_within s q new need).andThen
      (((within_popDemand _).trans (within_pwb _ _)).andThen (within_raiseServed _ _) : Within [.occ, .pwb, .spc] _ _) :
      Within ([.moments, .pwb, .spc] ++ [.occ, .pwb, .spc]) s _).mono (by decide)

/-! ### The setting written at once (R97) -/

/-- The new figure in its place of the energised list or of the shed list. -/
def State.told (s : State) (p : Point) (figure : Nat) : State := { s with pwb := { s.pwb with
  energised := if p.outlet = .on then s.pwb.energised.map fun e =>
    if e.point = p.number then { e with figure := figure } else e else s.pwb.energised
  shed := if p.outlet = .shed then s.pwb.shed.map fun e =>
    if e.point = p.number then { e with figure := figure } else e else s.pwb.shed } }

/-- The figure of an ON outlet falls. -/
def State.lowers (s : State) (p : Point) (figure : Nat) : Prop := p.outlet = .on ∧
  ∃ e, s.pwb.energised.find? (fun e => e.point == p.number) = some e ∧ figure < e.figure

theorem tellFigure_eq (s : State) (p : Point) (figure : Nat) : (s.lowers p figure →
      s.tellFigure p figure = (s.told p figure).settle) ∧
    (¬ s.lowers p figure → s.tellFigure p figure = s.told p figure) := by
  have lower_iff (on : p.outlet = .on) : s.lowers p figure ↔ figure < s.outletFigure p.number := by
    unfold State.lowers State.outletFigure
    cases s.pwb.energised.find? fun e => e.point == p.number with
    | none => simp
    | some e => simp [on]
  have on_told (on : p.outlet = .on) : s.told p figure = { s with pwb := { s.pwb with
      energised := modifyKey OutletLoad.point p.number (fun e => { e with figure := figure }) s.pwb.energised } } := by
    unfold State.told
    rw [if_pos on, if_neg (by simp [on])]
    rfl
  by_cases on : p.outlet = .on
  · have runs : s.tellFigure p figure = if figure < s.outletFigure p.number then (s.told p figure).settle
        else s.told p figure := by
      rw [on_told on]
      unfold State.tellFigure
      dsimp only
      rw [if_pos on]
      exact if_congr decide_eq_true_iff rfl rfl
    rw [runs, lower_iff on]
    exact ⟨fun h => if_pos h, fun h => if_neg h⟩
  · have stays : ¬ s.lowers p figure := fun h => on h.1
    refine ⟨fun h => absurd h stays, fun _ => ?_⟩
    unfold State.tellFigure State.told
    dsimp only
    rw [if_neg on, if_neg on]
    by_cases shed : p.outlet = .shed
    · rw [if_pos shed, if_pos shed]
      rfl
    · rw [if_neg shed, if_neg shed]

theorem setProfile_write (none : ¬ (p.outlet = .on ∧ p.charging = some n ∧ old.figure < new.figure)) :
    s.setProfile n p old new = (s.applyProfile n p new, .done (new.datum ++ u8 new.figure)) := by
  unfold State.setProfile
  refine if_neg fun h => none ?_
  simpa [and_assoc] using h

end

end Sys2Proof.Machine
end

section
/-! PROOFS. O48: PROFILE SET and OUTLET RESET (R93, R96 to R98). -/

namespace Sys2Proof.Machine

set_option Elab.async false

section
variable {s t u : State} {n m q : Nat} {p : Point} {r : Occupancy} {old new y : Profile}

theorem point?_number (at_ : s.point? q = some p) : p.number = q := (lookupKey_some at_).2

/-- The profile written in the record. -/
def State.profiled (s : State) (n : Nat) (new : Profile) : State := s.modOcc n fun r => { r with profile := some new }

theorem profiled_occ? (live : s.occ? n = some r) (new : Profile) (m : Nat) :
    (s.profiled n new).occ? m = if m = n then some { r with profile := some new } else s.occ? m := by
  split
  next same =>
    subst same
    exact modOcc_self (f := fun r => { r with profile := some new }) live fun _ => rfl
  next other => exact modOcc_other (f := fun r => { r with profile := some new }) other fun _ => rfl

theorem applyProfile_elsewhere (other : p.charging ≠ some n) : s.applyProfile n p new = s.profiled n new := if_neg other

theorem applyProfile_charged (own : p.charging = some n) :
    (s.lowers p new.figure →
      s.applyProfile n p new = ((s.profiled n new).told p new.figure).settle.followTap p.number) ∧
    (¬ s.lowers p new.figure →
      s.applyProfile n p new = ((s.profiled n new).told p new.figure).followTap p.number) := by
  have runs : s.applyProfile n p new = ((s.profiled n new).tellFigure p new.figure).followTap p.number := if_pos own
  obtain ⟨falls, stays⟩ := tellFigure_eq (s.profiled n new) p new.figure
  rw [runs]
  exact ⟨fun h => congrArg (State.followTap p.number) (falls h), fun h => congrArg (State.followTap p.number) (stays h)⟩

/-- What a setting written at once leaves of the records (R97, R98). -/
theorem applyProfile_records (live : s.occ? n = some r) (new : Profile) :
    (∀ m, s.unraised m → (s.applyProfile n p new).occ? m =
      if m = n then some { r with profile := some new } else s.occ? m) ∧
    (∀ (m : Nat) (z : Occupancy), m ≠ n → s.occ? m = some z → OnlyProfile m z (s.applyProfile n p new)) := by
  have written := profiled_occ? live new
  have other (m : Nat) (z : Occupancy) (differ : m ≠ n) (there : s.occ? m = some z) : OnlyProfile m z (s.profiled n new) :=
    ⟨z.profile, (written m).trans ((if_neg differ).trans there)⟩
  by_cases own : p.charging = some n
  · obtain ⟨falls, stays⟩ := applyProfile_charged (s := s) (new := new) own
    by_cases lower : s.lowers p new.figure
    · rw [falls lower]
      exact ⟨fun m quiet => (settle_record (s := (s.profiled n new).told p new.figure) s _ (written m) quiet).1,
        fun m z differ there => (settle_profile (s := (s.profiled n new).told p new.figure) s (other m z differ there)).1⟩
    · rw [stays lower]
      exact ⟨fun m _ => written m, other⟩
  · rw [applyProfile_elsewhere own]
    exact ⟨fun m _ => written m, other⟩

theorem told_within (s : State) (p : Point) (figure : Nat) : Within [.pwb] s (s.told p figure) := within_pwb s _

/-- The tap of the point follows the written profile, whatever PWB went on to do (R76, R97). -/
theorem applyProfile_point? (live : s.occ? n = some r) (at_ : s.point? q = some p) (own : p.charging = some n)
    (along : r.state = .alongside) (standing : r.account.state ≠ .barred) (free : s.bare q)
    (listed : p.outlet = .on → ∀ e ∈ s.pwb.shed, e.point ≠ q) (quiet : s.unraised n) :
    (s.applyProfile n p new).point? q = some (p.setTap (p.tapFitted && new.tapOpen)) := by
  obtain rfl : p.number = q := point?_number at_
  have written := profiled_occ? live new n
  rw [if_pos rfl] at written
  obtain ⟨falls, stays⟩ := applyProfile_charged (s := s) (new := new) own
  by_cases lower : s.lowers p new.figure
  · rw [falls lower]
    have apart : Apart p.number (some p) ((s.profiled n new).told p new.figure) := by
      refine ⟨at_, free, fun e he => listed lower.1 e ?_⟩
      have shed : ((s.profiled n new).told p new.figure).pwb.shed = s.pwb.shed := by
        unfold State.told
        dsimp only
        rw [if_neg (by simp [lower.1])]
        rfl
      rwa [shed] at he
    exact followTap_at (settle_apart _ s apart).1.1 own
      (settle_record (s := (s.profiled n new).told p new.figure) s _ written quiet).1 along standing
  · rw [stays lower]
    exact followTap_at (s := (s.profiled n new).told p new.figure) at_ own written along standing

/-- Nothing waits in PWB: the setting is all that changes (R97). -/
theorem applyProfile_idle (live : s.occ? n = some r) (at_ : s.point? q = some p) (own : p.charging = some n)
    (along : r.state = .alongside) (standing : r.account.state ≠ .barred) (idle : s.pwb.demands = [])
    (bare : p.outlet = .shed ∨ s.pwb.shed = []) :
    (s.applyProfile n p new).point? q = some (p.setTap (p.tapFitted && new.tapOpen)) ∧
    (s.applyProfile n p new).pwb = (s.told p new.figure).pwb ∧ Within [.occ, .pwb, .spc] s (s.applyProfile n p new) := by
  obtain rfl : p.number = q := point?_number at_
  have same : s.applyProfile n p new = ((s.profiled n new).told p new.figure).followTap p.number := by
    obtain ⟨falls, stays⟩ := applyProfile_charged (s := s) (new := new) own
    by_cases lower : s.lowers p new.figure
    · have shed : s.pwb.shed = [] := bare.resolve_left (by simp [lower.1])
      have settled : ((s.profiled n new).told p new.figure).settle = (s.profiled n new).told p new.figure := by
        rw [settle_nil (s := (s.profiled n new).told p new.figure) idle, restorePass_nil]
        unfold State.told
        dsimp only
        rw [if_neg (by simp [lower.1])]
        exact shed
      rw [falls lower, settled]
    · exact stays lower
  have written := profiled_occ? live new n
  rw [if_pos rfl] at written
  rw [same]
  refine ⟨followTap_at (s := (s.profiled n new).told p new.figure) at_ own written along standing, rfl, ?_⟩
  exact ((within_modOcc s n _).andThen (told_within _ p _) : Within [.occ, .pwb] s _).andThen (within_followTap _ _)

/-! ### OUTLET RESET (R93) -/

theorem resetOutlet_off (bare : ∀ r, s.charged q = some r → r.state ≠ .alongside) :
    s.resetOutlet q = s.setOutlet q .off := by
  unfold State.resetOutlet
  cases charged : s.charged q with
  | none => rfl
  | some r => exact if_neg (bare r charged)

theorem resetOutlet_along (charged : s.charged q = some r) (along : r.state = .alongside) :
    s.resetOutlet q = if r.account.state = .barred then s.setOutlet q .heldOff else s.callEnergise q r := by
  unfold State.resetOutlet
  rw [charged]
  exact if_pos along

theorem exec_outletReset (taken : Takes 44 s) :
    (q = 0 ∨ 32 < q → exec (.outletReset q) s = .next { s with pnp := s.pnp.answered 44 (.refused .range) }) ∧
    (1 ≤ q → q ≤ 32 → s.point? q = none →
      exec (.outletReset q) s = .next { s with pnp := s.pnp.answered 44 (.refused .unknown) }) ∧
    (∀ p : Point, 1 ≤ q → q ≤ 32 → s.point? q = some p → ¬ (p.outlet = .tripped ∧ p.tripAck = true) →
      exec (.outletReset q) s = .next { s with pnp := s.pnp.answered 44 (.refused .state) }) ∧
    (∀ p : Point, 1 ≤ q → q ≤ 32 → s.point? q = some p → p.outlet = .tripped → p.tripAck = true →
      exec (.outletReset q) s = .next (((s.takeFrame 44).resetOutlet q).writeAnswer 44 (.done []))) := by
  have decided : exec (.outletReset q) s = .next _ := congrArg Host.Outcome.next (State.request_taken taken)
  have inside (low : 1 ≤ q) (high : q ≤ 32) : within 1 32 q = true := by simp [within, low, high]
  refine ⟨fun out => decided.trans ?_, fun low high bare => decided.trans ?_, fun p low high at_ no => decided.trans ?_,
    fun p low high at_ tripped ack => decided.trans ?_⟩
  · have outside : within 1 32 q = false := by
      simp [within]
      omega
    simp only [outside, Bool.not_false, if_true]
    rfl
  · have bare' : (s.takeFrame 44).point? q = none := bare
    simp only [inside low high, Bool.not_true, Bool.false_eq_true, if_false, bare']
    rfl
  · have at_' : (s.takeFrame 44).point? q = some p := at_
    have no' : ¬ (decide (p.outlet = .tripped) && p.tripAck) = true := by simpa using no
    simp only [inside low high, Bool.not_true, Bool.false_eq_true, if_false, at_', no']
    rfl
  · have at_' : (s.takeFrame 44).point? q = some p := at_
    simp only [inside low high, Bool.not_true, Bool.false_eq_true, if_false, at_', tripped, ack, decide_true,
      Bool.and_true, if_true]

/-- The answer to a setting carries the result values (R97). -/
theorem datum_written (x : ProfileResult) (phases : x.phases ≤ 1) (tap : x.tap ≤ 1) :
    x.profile.datum ++ u8 x.profile.figure = [⟨1, x.rating⟩, ⟨1, x.phases⟩, ⟨1, x.tap⟩, ⟨1, x.profile.figure⟩] := by
  obtain ⟨rating, phases_, tap_⟩ := x
  dsimp only at phases tap
  interval_cases phases_ <;> interval_cases tap_ <;> rfl

end

/-- Settles O48: the settings through `exec_profileSet`, a raise by `setProfile_raise` and `raising_served`, any other
by `applyProfile_records` and `applyProfile_point?`, and the reset by `exec_outletReset`. -/
theorem profileSetAndOutletReset : Obligations.ProfileSetAndOutletReset := by
  refine ⟨fun n g1 g2 g3 s taken => ?_, fun q s taken => ?_⟩
  · intro refused
    refine ⟨fun out => congrArg Host.Outcome.next ((occRequest_taken taken n _).1 out),
      fun low high gone => congrArg Host.Outcome.next ((occRequest_taken taken n _).2.1 low high gone),
      fun r low high live nowhere => exec_profileSet_nowhere taken low high live nowhere,
      fun r q p old low high live berth at_ profile top => ?_⟩
    obtain rfl : r.number = n := occ?_number live
    obtain rfl : p.number = q := point?_number at_
    obtain ⟨bad, why, goes⟩ := exec_profileSet (g1 := g1) (g2 := g2) (g3 := g3) taken low high live berth at_ profile
    rw [profileResult_eq top] at bad why goes
    intro v1 v2 v3 valid new own away noFunds busy raise_
    have phases : v2 ≠ 15 → v2 ≤ 1 := by
      have small := groupPhases_low (three := p.three) (present := old.three) (g := g2)
      rwa [groupPhases_eq] at small
    have tap : v3 ≠ 15 → v3 ≤ 1 := by
      have small := groupTap_low (fitted := p.tapFitted) (present := old.tapOpen) (g := g3)
      rwa [groupTap_eq] at small
    change ProfileResult.valid ⟨v1, v2, v3⟩ = false → exec _ s = .next { s with pnp := s.pnp.answered 43 (.refusedWith .range [⟨1, v1⟩, ⟨1, v2⟩, ⟨1, v3⟩]) } at bad
    change ∀ c, ProfileResult.valid ⟨v1, v2, v3⟩ = true → s.profileRefusal r p old new = some c → _ at why
    change ProfileResult.valid ⟨v1, v2, v3⟩ = true → s.profileRefusal r p old new = none →
      exec _ s = .next (((s.takeFrame 43).setProfile r.number p old new).1.writeAnswer 43
        ((s.takeFrame 43).setProfile r.number p old new).2) at goes
    have valid_iff' : ProfileResult.valid ⟨v1, v2, v3⟩ = true ↔ valid := valid_iff _
    have datum (good : valid) : new.datum ++ u8 new.figure = [⟨1, v1⟩, ⟨1, v2⟩, ⟨1, v3⟩, ⟨1, new.figure⟩] :=
      datum_written ⟨v1, v2, v3⟩ (phases good.2.1) (tap good.2.2)
    clear_value v1 v2 v3 new
    have fine (good : valid) (h1 : ¬ away) (h2 : ¬ noFunds) (h3 : ¬ busy) :=
      goes (valid_iff'.mpr good) (profileRefusal_none h1 h2 h3)
    refine ⟨fun invalid => bad (Bool.eq_false_iff.mpr (mt valid_iff'.mp invalid)),
      fun good h1 => why .state (valid_iff'.mpr good) (profileRefusal_state h1),
      fun good h1 h2 => why .funds (valid_iff'.mpr good) (profileRefusal_funds h1 h2),
      fun good h1 h2 h3 => why .busy (valid_iff'.mpr good) (profileRefusal_busy h1 h2 h3),
      fun good h1 h2 h3 raise => ?_, fun good h1 h2 h3 none => ?_⟩
    · have runs := fine good h1 h2 h3
      rw [setProfile_raise (s := s.takeFrame 43) rfl raise] at runs
      have raising := raising_within (s.takeFrame 43) p.number new (new.figure - old.figure)
      have along : r.state = .alongside := by
        by_contra h
        exact h1 (.inl h)
      have standing : r.account.state ≠ .barred := fun h => h2 (.inl h)
      refine ⟨fun full => ?_, fun busy' few => ?_, fun idle shed fits => ?_, fun idle => ?_⟩
      · rw [if_pos (show 8 ≤ (s.takeFrame 43).pwb.demands.length from full)] at runs
        exact runs
      · rw [if_neg (show ¬ 8 ≤ (s.takeFrame 43).pwb.demands.length from Nat.not_le.mpr few),
          if_neg (show ¬ (s.takeFrame 43).pwb.demands = [] from busy')] at runs
        refine ⟨_, runs, ?_, ?_, rfl, rfl, writeAnswer_frame raising _⟩
        · rw [writeAnswer_held raising]
          rfl
        · exact modPoint_point?_self (s.takeFrame 43) (f := fun x => { x with raisePending := some new, raiseLast := .none })
            at_ fun _ => rfl
      · have none : (s.takeFrame 43).pwb.demands = [] := idle
        rw [if_neg (by rw [none]; decide), if_pos none] at runs
        obtain ⟨flag, now, point, lists, within⟩ := raising_served (s := s.takeFrame 43) (need := new.figure - old.figure)
          (new := new) idle shed fits at_ raise.2.1 live along standing
        exact ⟨_, runs, rfl, flag, now, point, lists, writeAnswer_frame within _⟩
      · intro u w
        have none : (s.takeFrame 43).pwb.demands = [] := idle
        rw [if_neg (by rw [none]; decide), if_pos none] at runs
        have same : w = (s.takeFrame 43).raising p.number new (new.figure - old.figure) := by
          have queue : s.pwb.demands ++ [Demand.mk (s.moments + 1) .raise p.number (new.figure - old.figure) false []] =
              [Demand.mk (s.moments + 1) .raise p.number (new.figure - old.figure) false []] := by
            rw [idle]
            rfl
          show ({ u with moments := _, pwb := _ } : State) = _
          rw [← queue]
          rfl
        rw [runs, same, writeAnswer_held ((raising.mono (by decide) : Within pwbParts _ _).trans (within_settle _))]
    · have runs := fine good h1 h2 h3
      rw [setProfile_write (s := s.takeFrame 43) none, datum good] at runs
      have along : r.state = .alongside := by
        by_contra h
        exact h1 (.inl h)
      have standing : r.account.state ≠ .barred := fun h => h2 (.inl h)
      have held := within_applyProfile (s.takeFrame 43) r.number p new
      obtain ⟨records, profiles⟩ := applyProfile_records (s := s.takeFrame 43) (p := p) live new
      refine ⟨_, runs, records, profiles, rfl, rfl, fun other => ?_, fun charging idle bare => ?_, fun charging => ?_⟩
      · rw [applyProfile_elsewhere (s := s.takeFrame 43) other]
        exact ⟨rfl, rfl⟩
      · obtain ⟨point, lists, within⟩ := applyProfile_idle (s := s.takeFrame 43) (new := new) live at_ charging along
          standing idle bare
        exact ⟨point, lists, writeAnswer_frame within _⟩
      · intro lower w
        obtain ⟨falls, stays⟩ := applyProfile_charged (s := s.takeFrame 43) (new := new) charging
        exact ⟨_, falls, stays, writeAnswer_held held _, fun free listed quiet =>
          applyProfile_point? (s := s.takeFrame 43) live at_ charging along standing free listed quiet⟩
  · obtain ⟨range, unknown, refuses, resets⟩ := exec_outletReset (q := q) taken
    refine ⟨range, unknown, fun p low high at_ => ?_⟩
    refine ⟨refuses p low high at_, fun tripped ack => ⟨_, resets p low high at_ tripped ack, rfl, fun bare => ?_,
      fun r charged along barred => ?_, fun r charged along standing down => ?_,
      fun r y charged along standing profile up idle shed fits => ?_,
      fun r y charged along standing profile up free => ?_⟩⟩
    · rw [resetOutlet_off (s := s.takeFrame 44) bare]
      exact ⟨setOutlet_point?_self (s := s.takeFrame 44) at_ .off, writeAnswer_frame (within_setOutlet _ q _) _⟩
    · rw [resetOutlet_along (s := s.takeFrame 44) charged along, if_pos barred]
      exact ⟨setOutlet_point?_self (s := s.takeFrame 44) at_ .heldOff, writeAnswer_frame (within_setOutlet _ q _) _⟩
    · rw [resetOutlet_along (s := s.takeFrame 44) charged along, if_neg standing, callEnergise_down (s := s.takeFrame 44) down]
      exact ⟨setOutlet_point?_self (s := s.takeFrame 44) at_ .faultOff, writeAnswer_frame (within_setOutlet _ q _) _⟩
    · rw [resetOutlet_along (s := s.takeFrame 44) charged along, if_neg standing,
        callEnergise_up (s := s.takeFrame 44) up profile]
      obtain ⟨point, lists, within, -⟩ := offer_served (s := s.takeFrame 44) (figure := y.figure) idle shed fits at_
      exact ⟨point, lists, writeAnswer_frame within _⟩
    · intro w
      rw [resetOutlet_along (s := s.takeFrame 44) charged along, if_neg standing,
        callEnergise_up (s := s.takeFrame 44) up profile]
      have queued := withEnergise_within (s.takeFrame 44) q y.figure
      refine ⟨fun idle => ?_, fun busy few => ?_, fun full => ?_⟩
      · rw [offer_empty (s := s.takeFrame 44) free idle]
        exact writeAnswer_held ((queued.mono (by decide) : Within pwbParts _ _).trans (within_settle _)) _
      · rw [offer_queued (s := s.takeFrame 44) free busy few]
        exact writeAnswer_held queued _
      · obtain ⟨point, lists, flags, within⟩ := offer_shed (s := s.takeFrame 44) (figure := y.figure) free full at_
        refine ⟨point, lists, ?_, writeAnswer_frame within _⟩
        show (State.offer q y.figure (s.takeFrame 44)).hasFlag .outletShed = true
        rw [offer_full (s := s.takeFrame 44) free full]
        exact hasFlag_setFlag _ _

end Sys2Proof.Machine
end

section
/-! PROOFS. O47 fails: a poll sent while an outlet was TRIPPED can be answered after the outlet has gone OFF, and that
report acknowledges the trip (R92, `State.takeTrip`). The obligation's plain case, an outlet OFF with no bases, leaves
the acknowledgement as it was. -/

namespace Sys2Proof.Machine

set_option Elab.async false

/-- Point 1, OFF, its trip not yet acknowledged. -/
def lateTripPoint : Point :=
  ⟨1, 1, false, false, .off, false, none, [], none, [], false, none, none, none, none, 0, false, false, none, .none⟩

/-- The poll of post 1 that was sent while the outlet of side A was TRIPPED. -/
def lateTripPoll : OpenPoll := ⟨1, 0, 1, 0#8, 0#8, true, false, false⟩

/-- The station with that poll open, ON LINE. -/
def lateTrip : State := { State.reset with
  lif := { State.reset.lif with state := .onLine }
  spc := { State.reset.spc with
    points := [lateTripPoint]
    posts := [⟨1, .good, 0, none⟩]
    poll := some lateTripPoll } }

/-- The good report of post 1 with every counter 0. -/
def lateTripReport : PostReport := ⟨1#8, 0, 0, 0, 0, 0#8, 0xA5#8⟩

/-- The report acknowledges the trip. -/
theorem lateTrip_acknowledged (t : State) (runs : exec (.postReport lateTripReport) lateTrip = .next t) :
    (t.point? 1).map Point.tripAck = some true := by
  have acked : (((lateTrip.takeReport lateTripPoll lateTripReport).nextPoll).point? 1).map Point.tripAck =
      some true := by decide
  have same : exec (.postReport lateTripReport) lateTrip =
      .next (lateTrip.takeReport lateTripPoll lateTripReport).nextPoll := exec_postReport rfl _
  obtain rfl := Host.Outcome.next.inj (runs.symm.trans same)
  exact acked

/-- Refutes O47: the report of `lateTrip` writes the bases and the acknowledgement too. -/
theorem not_goodReportsMeter : ¬ Obligations.GoodReportsMeter := by
  rintro ⟨first, -⟩
  obtain ⟨-, plain⟩ := first lateTripReport lateTripPoll lateTrip rfl rfl (by decide) rfl rfl (by decide)
  obtain ⟨t, runs, -, -, point, -⟩ := plain ⟨1, .good, 0, none⟩ lateTripPoint (by decide) rfl (by decide) (by decide)
    (by decide) rfl rfl rfl rfl rfl (.inr rfl) rfl
  have acknowledged := lateTrip_acknowledged t runs
  have unchanged : (t.point? 1).map Point.tripAck = some false := congrArg (Option.map Point.tripAck) point
  rw [unchanged] at acknowledged
  cases acknowledged

end Sys2Proof.Machine
end

section
/-! PROOFS. FDC's pumps and records changed one at a time (R104, R124), and O50. -/

namespace Sys2Proof.Machine

set_option Elab.async false

/-- From `s` to `t` pump `n` became `q` and the journal `j`, and nothing else of FDC changed. -/
structure PumpSet (n : Nat) (q : Pump) (j : List JournalRecord) (s t : State) : Prop where
  here      : t.pump? n = some q
  others    : ∀ m, m ≠ n → t.pump? m = s.pump? m
  journal   : t.fdc.journal = j
  saleNo    : t.fdc.saleNo = s.fdc.saleNo
  emergency : t.fdc.emergency = s.fdc.emergency
  within    : Within [.fdc] s t
  pnp       : t.pnp = s.pnp

/-- A journal with one record changed. -/
def recordSet (number : Nat) (f : JournalRecord → JournalRecord) (j : List JournalRecord) : List JournalRecord :=
  j.map fun r => if r.number = number then f r else r

theorem recordSet_recordSet {number : Nat} {f g : JournalRecord → JournalRecord}
    (keeps : ∀ r, (f r).number = r.number) (j : List JournalRecord) :
    recordSet number g (recordSet number f j) = recordSet number (fun r => g (f r)) j := by
  unfold recordSet
  rw [List.map_map]
  refine List.map_congr_left fun r _ => ?_
  rw [Function.comp_apply]
  by_cases own : r.number = number
  · rw [if_pos own, if_pos ((keeps r).trans own), if_pos own]
  · rw [if_neg own, if_neg own, if_neg own]

section
variable {s t : State} {n : Nat} {p q : Pump} {x : Sale} {j : List JournalRecord}

theorem PumpSet.refl (at_ : s.pump? n = some p) : PumpSet n p s.fdc.journal s s :=
  ⟨at_, fun _ _ => rfl, rfl, rfl, rfl, .refl _ s, rfl⟩

theorem PumpSet.modPump (h : PumpSet n q j s t) (f : Pump → Pump) : PumpSet n (f q) j s (t.modPump n f) := by
  obtain ⟨-, emergency, saleNo, journal⟩ := modPump_fdc t n f
  refine ⟨?_, fun m other => (modPump_pump?_ne t other f).trans (h.others m other), journal.trans h.journal,
    saleNo.trans h.saleNo, emergency.trans h.emergency, h.within.trans (within_modPump t n f),
    (modPump_pnp t n f).trans h.pnp⟩
  rw [modPump_pump?, if_pos rfl, h.here]
  rfl

theorem PumpSet.modSale (h : PumpSet n q j s t) (sale : q.sale = some x) (f : Sale → Sale) :
    PumpSet n { q with sale := some (f x) } j s (t.modSale n f) := by
  have step := h.modPump fun p => { p with sale := p.sale.map f }
  rw [sale] at step
  exact step

theorem PumpSet.modRecord (h : PumpSet n q j s t) (number : Nat) (f : JournalRecord → JournalRecord) :
    PumpSet n q (recordSet number f j) s (t.modRecord number f) :=
  ⟨h.here, h.others, congrArg (recordSet number f) h.journal, h.saleNo, h.emergency,
    h.within.trans (within_modRecord t number f), h.pnp⟩

theorem PumpSet.sale? (h : PumpSet n q j s t) (sale : q.sale = some x) : t.sale? n = some x := by
  unfold State.sale?
  rw [h.here]
  exact sale

theorem PumpSet.flagRecord (h : PumpSet n q j s t) (sale : q.sale = some x) (f : SaleFlags → SaleFlags) :
    PumpSet n q (recordSet x.number (fun r => { r with flags := f r.flags }) j) s (t.flagRecord n f) := by
  unfold State.flagRecord
  rw [h.sale? sale]
  exact h.modRecord x.number _

theorem PumpSet.shutValves (h : PumpSet n q j s t) :
    PumpSet n { q with main := false, slow := false } j s (t.shutValves n) :=
  h.modPump fun p => { p with main := false, slow := false }

theorem PumpSet.elapsed (h : PumpSet n q j s t) : t.elapsed = s.elapsed := h.within.frame .elapsed (by decide)

theorem PumpSet.toFinishing (h : PumpSet n q j s t) (sale : q.sale = some x) :
    PumpSet n { q with
      main := false
      slow := false
      sale := some { x with state := .finishing, timer := some (s.elapsed + 2000000) } } j s (t.toFinishing n) := by
  rw [← h.elapsed]
  exact h.shutValves.modSale (q := { q with main := false, slow := false }) sale fun x =>
    { x with state := .finishing, timer := some (t.elapsed + 2000000) }

theorem PumpSet.openValves (h : PumpSet n q j s t) (sale : q.sale = some x) :
    PumpSet n { q with slow := true, main := !x.barred && decide (50 < x.cutoff) } j s (t.openValves n) := by
  have step := h.modPump fun p =>
    match p.sale with
    | some x => { p with slow := true, main := !x.barred && 50 < x.cutoff }
    | none => p
  refine cast (congrArg (PumpSet n · j s (t.openValves n)) ?_) step
  simp only [sale]

end

/-! ### The requests (R115, R117, R118) -/

section
variable {s : State} {n : Nat} {p : Pump} {f : PumpConfig} {x : Sale}

theorem sale?_of (at_ : s.pump? n = some p) (sale : p.sale = some x) : s.sale? n = some x :=
  (PumpSet.refl at_).sale? sale

end

/-- Settles O50: each request decided by the state of its sale, with `PumpSet` for what changes and `endUnused_says` for
an authorisation stopped. -/
theorem pumpRequestsActOnTheSale : Obligations.PumpRequestsActOnTheSale := by
  refine ⟨fun n code c s which taken => ?_, fun n p f x s at_ config sale => ?_⟩
  · have stages (body : Pump → PumpConfig → State → State × Reply)
        (runs : exec c s = .next (s.pumpRequest code n body))
        (bare : ∀ p f, p.sale = none → body p f (s.takeFrame code) = (s.takeFrame code, .ignored)) :
        (n ≠ 1 ∧ n ≠ 2 → exec c s = .next { s with pnp := s.pnp.answered code (.refused .range) }) ∧
        (∀ p : Pump, s.pump? n = some p →
          (p.config = none → exec c s = .next { s with pnp := s.pnp.answered code (.refused .unknown) }) ∧
          (p.config.isSome = true → p.sale = none →
            exec c s = .next { s with pnp := s.pnp.answered code .ignored })) := by
      obtain ⟨range, unknown, goes⟩ := pumpRequest_taken taken n body
      refine ⟨fun out => runs.trans (congrArg Host.Outcome.next (range (by omega))), fun p at_ =>
        ⟨fun none => runs.trans (congrArg Host.Outcome.next (unknown p at_ none)), fun some idle => ?_⟩⟩
      obtain ⟨f, config⟩ := Option.isSome_iff_exists.mp some
      rw [runs, goes p f at_ config, bare p f idle]
      rfl
    simp only [List.mem_cons, Prod.mk.injEq, List.not_mem_nil, or_false] at which
    rcases which with ⟨rfl, rfl⟩ | ⟨rfl, rfl⟩ | ⟨rfl, rfl⟩
    · exact stages _ rfl fun p f idle => by simp only [idle]
    · exact stages _ rfl fun p f idle => by simp only [idle]
    · exact stages _ rfl fun p f idle => by simp only [idle]
  · intro only
    have done (code : Nat) (q : Pump) (t : State) (h : PumpSet n q s.fdc.journal (s.takeFrame code) t) :
        only code (.done []) q (t.writeAnswer code (.done [])) := by
      refine ⟨h.here, h.others, h.journal, ?_, writeAnswer_frame h.within _⟩
      rw [writeAnswer_held h.within]
      show t.pnp.answered code _ = _
      rw [h.pnp]
      rfl
    refine ⟨fun taken => ?_, fun taken => ?_, fun taken => ?_⟩
    · have start : PumpSet n p s.fdc.journal (s.takeFrame 49) (s.takeFrame 49) :=
        PumpSet.refl (s := s.takeFrame 49) at_
      have decided : exec (.pumpSuspend n) s = .next _ :=
        congrArg Host.Outcome.next ((pumpRequest_taken taken n _).2.2 p f at_ config)
      refine ⟨fun state => ⟨_, decided, ?_⟩, fun other => decided.trans ?_⟩
      · simp only [sale, state, if_true]
        exact done 49 _ _ (start.shutValves.modSale (q := { p with main := false, slow := false }) sale fun x =>
          { x with state := .suspended, timer := some (s.elapsed + f.suspendLimit * 1000000) })
      · simp only [sale, other]
        rfl
    · have start : PumpSet n p s.fdc.journal (s.takeFrame 50) (s.takeFrame 50) :=
        PumpSet.refl (s := s.takeFrame 50) at_
      have decided : exec (.pumpResume n) s = .next _ :=
        congrArg Host.Outcome.next ((pumpRequest_taken taken n _).2.2 p f at_ config)
      have calm : (s.takeFrame 50).fdc.emergency = s.fdc.emergency := rfl
      refine ⟨fun state free => ⟨_, decided, ?_⟩, fun other => decided.trans ?_⟩
      · simp only [sale, state, calm, free, decide_true, Bool.not_false, Bool.and_true, if_true]
        exact done 50 _ _ ((start.modSale sale fun x => { x with state := .delivering, timer := none }).openValves
          (x := { x with state := .delivering, timer := none }) rfl)
      · have no : ¬ (decide (x.state = .suspended) && !s.fdc.emergency) = true := by
          rcases other with state | active
          · simp [state]
          · simp [active]
        simp only [sale, calm, no]
        rfl
    · have start : PumpSet n p s.fdc.journal (s.takeFrame 51) (s.takeFrame 51) :=
        PumpSet.refl (s := s.takeFrame 51) at_
      have decided : exec (.pumpStop n) s = .next _ :=
        congrArg Host.Outcome.next ((pumpRequest_taken taken n _).2.2 p f at_ config)
      have ends := endUnused_says (s := s.takeFrame 51) at_ sale .cancelled .cancelled
      have held := within_endUnused (s.takeFrame 51) n .cancelled .cancelled
      refine ⟨fun state => ⟨_, ends, decided.trans ?_⟩, fun state => ⟨_, decided, ?_⟩, fun state => decided.trans ?_⟩
      · simp only [sale]
        have answered := writeAnswer_held held (.done [])
        rcases state with state | state <;> simp only [state] <;>
          exact congrArg Host.Outcome.next answered
      · simp only [sale]
        have finished := done 51 _ _ (start.toFinishing sale)
        rcases state with state | state <;> simp only [state] <;> exact finished
      · simp only [sale]
        rcases state with state | state <;> simp only [state] <;> rfl

end Sys2Proof.Machine
end

section
/-! PROOFS. Pulses and nozzle edges, O51 (R102, R111 to R114, R119, R120). -/

namespace Sys2Proof.Machine

set_option Elab.async false

section
variable {s t : State} {n : Nat} {p q : Pump} {x : Sale} {j : List JournalRecord}

theorem now_congr (same : t.sch = s.sch) : t.now = s.now := by
  unfold State.now
  rw [same]

theorem PumpSet.countPulse (h : PumpSet n q j s t) (sale : q.sale = some x) (l : Nat) :
    PumpSet n { q with sale := some { x with
        pulses := (x.pulses + 1) % 4294967296
        volume := (x.pulses + 1) % 4294967296 * 100 / l } }
      (recordSet x.number (fun r => { r with volume := (x.pulses + 1) % 4294967296 * 100 / l }) j) s
      (t.countPulse n l) := by
  unfold State.countPulse
  rw [h.sale? sale]
  exact (h.modSale sale fun x' => { x' with
    pulses := (x.pulses + 1) % 4294967296
    volume := (x.pulses + 1) % 4294967296 * 100 / l }).modRecord x.number _

theorem PumpSet.startDelivery (h : PumpSet n q j s t) (sale : q.sale = some x) (c : PumpConfig) :
    PumpSet n { q with
        slow := true
        main := decide (50 < x.preset * 100 / c.price)
        sale := some { x with
          state := .delivering
          pulses := 0
          volume := 0
          barred := false
          timer := none
          cutoff := x.preset * 100 / c.price } }
      (recordSet x.number (fun r => { r with startTime := some t.now }) j) s (t.startDelivery n c) := by
  unfold State.startDelivery
  rw [h.sale? sale]
  have begun := h.modSale sale fun x => { x with
    state := .delivering
    pulses := 0
    volume := 0
    barred := false
    timer := none
    cutoff := cutoffVolume x.preset c.price }
  have clock : (t.modSale n fun x => { x with
      state := .delivering
      pulses := 0
      volume := 0
      barred := false
      timer := none
      cutoff := cutoffVolume x.preset c.price }).now = t.now :=
    now_congr ((within_modPump t n _).frame .sch (by decide))
  rw [← clock]
  exact (begun.openValves rfl).modRecord x.number _

/-- The three zones of the volume (R113): below the bar, from it up to the cut-off, and from the cut-off. -/
theorem checkVolume_below (sale : t.sale? n = some x) (below : x.volume + 50 < x.cutoff) : t.checkVolume n = t := by
  unfold State.checkVolume
  rw [sale]
  dsimp only
  rw [if_neg (by omega), if_neg (by omega)]

theorem PumpSet.checkVolume_bars (h : PumpSet n q j s t) (sale : q.sale = some x) (below : x.volume < x.cutoff)
    (near : x.cutoff ≤ x.volume + 50) :
    PumpSet n { q with main := false, sale := some { x with barred := true } } j s (t.checkVolume n) := by
  unfold State.checkVolume
  rw [h.sale? sale]
  dsimp only
  rw [if_neg (by omega), if_pos near]
  exact (h.modSale sale fun x => { x with barred := true }).modPump fun p => { p with main := false }

theorem PumpSet.checkVolume_ends (h : PumpSet n q j s t) (sale : q.sale = some x) (reached : x.cutoff ≤ x.volume) :
    PumpSet n { q with
        main := false
        slow := false
        sale := some { x with
          barred := true
          state := .finishing
          timer := some (s.elapsed + 2000000) } }
      (recordSet x.number (fun r => { r with flags := { r.flags with presetReached := true } }) j) s
      (t.checkVolume n) := by
  unfold State.checkVolume
  rw [h.sale? sale]
  dsimp only
  rw [if_pos reached]
  have barred := h.modSale sale fun x => { x with barred := true }
  exact (barred.flagRecord (x := { x with barred := true }) rfl fun f =>
    { f with presetReached := true }).toFinishing (x := { x with barred := true }) rfl

end

/-- Settles O51: an event begins with the edge's capture, or at once, and `PumpSet` follows the one pump from there. -/
theorem pulsesAndNozzleEdges : Obligations.PulsesAndNozzleEdges := by
  intro n p s on at_ side record stray liftOnly hangOnly
  have pulse : exec (.pumpPulse n) s = .next (s.pulse n p) := by
    show Host.Outcome.next (s.event _) = _
    rw [State.event_on on]
    simp only [at_]
  have lift : exec (.nozzleLift n) s = .next ((s.capture (if n = 1 then .lift1 else .lift2)).lift n p) := by
    show Host.Outcome.next (s.event _) = _
    rw [State.event_on on]
    simp only [at_]
  have hang : exec (.nozzleHang n) s = .next ((s.capture (if n = 1 then .hang1 else .hang2)).hang n p) := by
    show Host.Outcome.next (s.event _) = _
    rw [State.event_on on]
    simp only [at_]
  have sided {q : Pump} {j : List JournalRecord} {u t w : State} (fdc : u.fdc = s.fdc)
      (first : OnlyChanges [.pnp, .fdc, .cap] s u) (h : PumpSet n q j u t)
      (same : w.fdc = t.fdc) (last : OnlyChanges [.pnp, .fdc, .cap] t w) : side q j w :=
    ⟨(pump?_congr same n).trans h.here,
      fun m other => (pump?_congr same m).trans ((h.others m other).trans (pump?_congr fdc m)),
      (congrArg Fdc.journal same).trans h.journal,
      (congrArg Fdc.saleNo same).trans (h.saleNo.trans (congrArg Fdc.saleNo fdc)),
      (congrArg Fdc.emergency same).trans (h.emergency.trans (congrArg Fdc.emergency fdc)),
      (first.trans (h.within.1.mono (by decide))).trans last⟩
  have taken (e : Edge) : OnlyChanges [.pnp, .fdc, .cap] s (s.capture e) := (within_capture s e).1.mono (by decide)
  have edge (e : Edge) : PumpSet n p s.fdc.journal (s.capture e) (s.capture e) := by
    have fdc := (within_capture s e).fdc
    rw [← fdc]
    exact .refl ((pump?_congr fdc n).trans at_)
  have fromEdge {q : Pump} {j : List JournalRecord} {t : State} (e : Edge) (h : PumpSet n q j (s.capture e) t) :
      side q j t := sided (within_capture s e).fdc (taken e) h rfl (.refl _ _)
  have flagged (t : State) (f : Flag) : (t.setFlag f).hasFlag f = true := hasFlag_setFlag t f
  have strays (body : s.pulse n p = s.strayPulse n) : stray := by
    have moved := (PumpSet.refl at_).modPump fun p => { p with stray := min 65535 (p.stray + 1) }
    refine ⟨_, pulse, ?_, ?_⟩
    · rw [body]
      exact congrArg (Pnp.flagged · _) moved.pnp
    · rw [body]
      exact sided rfl (.refl _ _) moved rfl ((within_setFlag _ _).1.mono (by decide))
  have raised (e : Edge) := (edge e).modPump fun p => { p with nozzleUp := true }
  have lowered (e : Edge) := (edge e).modPump fun p => { p with nozzleUp := false }
  have unauth (body : ∀ u : State, u.lift n p = (u.modPump n fun p => { p with nozzleUp := true }).setFlag .unauthLift) :
      liftOnly true := by
    refine ⟨_, lift, ?_, fun _ => ?_, nofun⟩
    · rw [body]
      exact sided (within_capture s _).fdc (taken _) (raised _) rfl ((within_setFlag _ _).1.mono (by decide))
    · rw [body]
      exact flagged _ _
  have hangs (body : ∀ u : State, u.hang n p = u.modPump n fun p => { p with nozzleUp := false }) : hangOnly := by
    refine ⟨_, hang, ?_⟩
    rw [body]
    exact fromEdge _ (lowered _)
  refine ⟨fun t runs => ?_, fun t runs => ?_, fun sale => ⟨strays ?_, unauth ?_, hangs ?_⟩, fun x f sale config => ?_⟩
  · obtain ⟨t', ran, rest⟩ := nozzleLift_captures on at_
    cases runs.symm.trans ran
    exact rest.frame .cap (by decide)
  · obtain ⟨t', ran, rest⟩ := nozzleHang_captures on at_
    cases runs.symm.trans ran
    exact rest.frame .cap (by decide)
  · simp only [State.pulse, sale]
  · simp only [State.lift, sale, implies_true]
  · simp only [State.hang, sale, implies_true]
  · intro k v counted
    have count := (PumpSet.refl at_).countPulse sale f.pulses
    have counts {q : Pump} {bar preset : Bool} {y : Sale} {t : State} (body : s.pulse n p = t)
        (h : PumpSet n { q with sale := some { y with pulses := k, volume := v, barred := bar } }
          (record x fun r => { r with
            volume := v
            flags := { r.flags with presetReached := r.flags.presetReached || preset } }) s t) :
        counted q bar y preset :=
      ⟨t, pulse.trans (congrArg Host.Outcome.next body), h.pnp, sided rfl (.refl _ _) h rfl (.refl _ _)⟩
    have once : recordSet x.number (fun r => { r with volume := v }) s.fdc.journal = record x fun r => { r with
        volume := v
        flags := { r.flags with presetReached := r.flags.presetReached || false } } := by
      simp only [Bool.or_false]
      rfl
    have counting {u : State} (body : s.pulse n p = u)
        (h : PumpSet n { p with sale := some { x with pulses := k, volume := v } }
          (recordSet x.number (fun r => { r with volume := v }) s.fdc.journal) s u) : counted p x.barred x false := by
      rw [once] at h
      exact counts body h
    refine ⟨fun state => ⟨strays ?_, hangs ?_⟩, fun ready busy => unauth ?_, fun state => ?_, fun state =>
      ⟨?_, hangs ?_⟩, fun state => ?_, fun state => ?_⟩
    · rcases state with state | state | state <;> simp only [State.pulse, sale, config, state]
    · rcases state with state | state | state <;> simp [State.hang, sale, state]
    · simp [State.lift, sale, config, ready, busy]
    · have body (u : State) : u.lift n p = u.modPump n fun p => { p with nozzleUp := true } := by
        simp [State.lift, sale, config, state]
      refine ⟨_, lift, ?_, nofun, fun _ => ?_⟩
      · rw [body]
        exact fromEdge _ (raised _)
      · rw [body]
        exact (raised _).pnp
    · exact counting (by simp only [State.pulse, sale, config, state]) count
    · simp [State.hang, sale, state]
    · have body : s.pulse n p = (s.countPulse n f.pulses).checkVolume n := by
        rcases state with state | state <;> simp only [State.pulse, sale, config, state]
      have finishes (u : State) : u.hang n p = (u.modPump n fun p => { p with nozzleUp := false }).toFinishing n := by
        rcases state with state | state <;> simp [State.hang, sale, state]
      refine ⟨fun below => counting ?_ count, fun below near => ?_, fun reached => ?_, _, hang, ?_⟩
      · rw [body]
        exact checkVolume_below (count.sale? rfl) below
      · have barred := count.checkVolume_bars rfl below near
        rw [show recordSet x.number _ s.fdc.journal = _ from once] at barred
        exact counts body barred
      · have reaches := count.checkVolume_ends rfl reached
        have fused := recordSet_recordSet (number := x.number) (f := fun r => { r with volume := v })
          (g := fun r => { r with flags := { r.flags with presetReached := true } }) (fun _ => rfl) s.fdc.journal
        refine counts body (cast (congrArg (PumpSet n _ · s _) ?_) reaches)
        simp only [record, Bool.or_true]
        exact fused
      · rw [finishes]
        have slow : (s.capture (if n = 1 then .hang1 else .hang2)).elapsed = s.elapsed :=
          (within_capture s _).frame .elapsed (by decide)
        rw [← slow]
        exact fromEdge _ ((lowered _).toFinishing sale)
    · have body (u : State) : u.lift n p =
          (u.modPump n fun p => { p with nozzleUp := true }).startDelivery n f := by
        simp [State.lift, sale, config, state]
      refine ⟨_, lift, ?_⟩
      rw [body]
      have clock : ((s.capture (if n = 1 then .lift1 else .lift2)).modPump n fun p =>
          { p with nozzleUp := true }).now = s.now :=
        now_congr (((raised _).within.frame .sch (by decide)).trans ((within_capture s _).frame .sch (by decide)))
      have begun := (raised (if n = 1 then .lift1 else .lift2)).startDelivery sale f
      rw [clock] at begun
      exact fromEdge _ begun

end Sys2Proof.Machine
end

section
/-! PROOFS. The begin of a sale, O49 (R105 to R107, R124). -/

namespace Sys2Proof.Machine

set_option Elab.async false

section
variable {s t : State} {n : Nat} {p q : Pump} {x : Sale}

/-- The sale number of a reservation (R124). -/
theorem nextSaleNo_free (few : s.fdc.journal.length < 64) : s.nextSaleNo.getD 0 ≤ 65535 ∧
    (∀ r ∈ s.fdc.journal, r.number ≠ s.nextSaleNo.getD 0) ∧
    (s.fdc.saleNo ≤ 65535 → (∀ r ∈ s.fdc.journal, r.number ≠ (s.fdc.saleNo + 1) % 65536) →
      s.nextSaleNo.getD 0 = (s.fdc.saleNo + 1) % 65536) := by
  have found : s.nextSaleNo.isSome = true := nextFree_isSome (by simp [keysOf]; omega) (by decide)
  obtain ⟨k, next⟩ := Option.isSome_iff_exists.mp found
  obtain ⟨-, high, fresh⟩ := nextFreeIn_some (by decide) next
  rw [next]
  refine ⟨high, fun r hr same => fresh (List.mem_map.mpr ⟨r, hr, same⟩), fun counter free => ?_⟩
  have first : (if s.fdc.saleNo < 0 || 65535 ≤ s.fdc.saleNo then 0 else s.fdc.saleNo + 1) =
      (s.fdc.saleNo + 1) % 65536 := by
    split
    next wraps =>
      have top : s.fdc.saleNo = 65535 := by simp at wraps; omega
      rw [top]
    next below =>
      simp at below
      omega
  have unused : (keysOf JournalRecord.number s.fdc.journal).contains ((s.fdc.saleNo + 1) % 65536) = false := by
    rw [List.contains_eq_mem, decide_eq_false_iff_not]
    intro used
    obtain ⟨r, hr, same⟩ := List.mem_map.mp used
    exact free r hr same
  unfold State.nextSaleNo nextFree nextFreeIn at next
  dsimp only at next
  rw [first, unused] at next
  exact (Option.some.inj next).symm

theorem reserve_low {number preset : Nat} {card : Option Nat} {c : PumpConfig} (few : 59 ≤ s.fdc.journal.length) :
    (s.reserve number n preset card c).hasFlag .journalLow = true := by
  unfold State.reserve State.setFlagIf
  dsimp only
  rw [if_pos (decide_eq_true (by rw [List.length_append]; exact Nat.add_le_add_right (Nat.succ_le_succ few) 4))]
  exact setFlag_hasFlag _ _

theorem sendHoldAsk_eq (at_ : s.pump? n = some p) (sale : p.sale = some x) (a : Nat) :
    s.sendHoldAsk n a = (s.modPump n fun p => { p with ask := some ⟨p.askSeq, ⟨a, none, s.lif.serial⟩⟩ }).queueFrame
      (holdAskFrame s.me n p.askSeq (x.card.getD 0) x.preset) := by
  have same : (s.modPump n fun p => { p with ask := some ⟨p.askSeq, ⟨a, none, s.lif.serial⟩⟩ }).me = s.me :=
    me_of_straps ((within_modPump s n _).frame .straps (by decide))
  rw [← same]
  unfold State.sendHoldAsk
  simp only [at_, sale]

/-- A sale as its acceptance leaves it, before PWB examines its demand (R105, R106, log 15). -/
def State.saleStands (n number preset : Nat) (card : Option Nat) (c : PumpConfig) (s : State) : State :=
  let t := ((s.appendDemand .pump n c.load).reserve number n preset card c).modPump n fun p =>
    { p with sale := some (newSale number preset card), last := .pending }
  if card.isSome then t.beginAsk n else t

theorem authorise_eq (n number preset : Nat) (card : Option Nat) (c : PumpConfig) :
    s.authorise n number preset card c = if s.pwb.demands.isEmpty then (s.saleStands n number preset card c).settle
      else s.saleStands n number preset card c := rfl

/-- A pump that asks for the hold of its sale (R107). -/
def Pump.asking (p : Pump) (card : Option Nat) (serial : Nat) : Pump :=
  if card.isSome then { p with
    askSeq := (p.askSeq + 1) % 256
    ask := some ⟨(p.askSeq + 1) % 256, ⟨1, none, serial⟩⟩
    closedAsk := none } else p

/-- What the acceptance of a sale changes (R105 to R107). -/
structure SaleBegun (n number preset : Nat) (card : Option Nat) (c : PumpConfig) (p : Pump) (s t : State) : Prop where
  here    : t.pump? n = some { p.asking card s.lif.serial with
    sale := some (newSale number preset card)
    last := .pending }
  others  : ∀ m, m ≠ n → t.pump? m = s.pump? m
  journal : t.fdc.journal = s.fdc.journal ++ [JournalRecord.mk number false n c.grade preset card none none none 0
    c.price none none SaleFlags.clear]
  saleNo  : t.fdc.saleNo = number
  pwb     : t.pwb = { s.pwb with
    demands := s.pwb.demands ++ [Demand.mk (s.moments + 1) .pump n c.load false []] }
  within  : Within [.moments, .pwb, .fdc, .lif] s t
  low     : 59 ≤ s.fdc.journal.length → t.hasFlag .journalLow = true
  panel   : card = none → t.lif = s.lif
  asks    : ∀ k, card = some k → s.lif.state = .onLine → s.lif.tx.length < 12 → ∃ x ∈ t.lif.tx,
    x.serial = s.lif.serial ∧ x.frame = holdAskFrame s.me n ((p.askSeq + 1) % 256) k preset

theorem saleStands_begun (at_ : s.pump? n = some p) (number preset : Nat) (card : Option Nat) (c : PumpConfig) :
    SaleBegun n number preset card c p s (s.saleStands n number preset card c) := by
  let v := (s.appendDemand .pump n c.load).reserve number n preset card c
  have placed : Within [.moments, .pwb, .fdc, .lif] s v :=
    ((within_appendDemand s _ _ _).andThen (within_reserve _ _ _ _ _ _) : Within [.moments, .pwb, .fdc] s v).mono
      (by decide)
  have room : v.pump? n = some p := (reserve_pump? _ _ _ _ _ _ _).trans at_
  have there (m : Nat) : v.pump? m = s.pump? m := reserve_pump? _ _ _ _ _ _ _
  have lif : v.lif = s.lif := ((within_appendDemand s _ _ _).andThen (within_reserve _ _ _ _ _ _) :
    Within [.moments, .pwb, .fdc] s v).lif
  have pwb : v.pwb = { s.pwb with demands := s.pwb.demands ++ [Demand.mk (s.moments + 1) .pump n c.load false []] } :=
    (within_reserve _ _ _ _ _ _).pwb
  have fdc : v.fdc = { s.fdc with
      journal := s.fdc.journal ++ [JournalRecord.mk number false n c.grade preset card none none none 0
        c.price none none SaleFlags.clear]
      saleNo := number } := (within_setFlagIf _ _ _).fdc
  have low (few : 59 ≤ s.fdc.journal.length) : v.hasFlag .journalLow = true := reserve_low few
  have begun := (PumpSet.refl room).modPump fun p => { p with sale := some (newSale number preset card), last := .pending }
  cases card with
  | none =>
    have whole : s.saleStands n number preset none c = v.modPump n fun p =>
      { p with sale := some (newSale number preset none), last := .pending } := rfl
    rw [whole]
    have later : Within [.moments, .pwb, .fdc, .lif] v _ := begun.within.mono (by decide)
    exact ⟨begun.here, fun m other => (begun.others m other).trans (there m),
      begun.journal.trans (congrArg Fdc.journal fdc), begun.saleNo.trans (congrArg Fdc.saleNo fdc),
      begun.within.pwb.trans pwb, placed.trans later, fun few => begun.within.hasFlag (low few),
      fun _ => begun.within.lif.trans lif, nofun⟩
  | some k =>
    have closed := begun.modPump fun p => { p with askSeq := (p.askSeq + 1) % 256, closedAsk := none }
    have asked := closed.modPump fun p => { p with ask := some ⟨p.askSeq, ⟨1, none, s.lif.serial⟩⟩ }
    have line := asked.within.lif.trans lif
    have whole : s.saleStands n number preset (some k) c = _ := sendHoldAsk_eq closed.here rfl 1
    have same : (((v.modPump n fun p => { p with sale := some (newSale number preset (some k)), last := .pending }).modPump
        n fun p => { p with askSeq := (p.askSeq + 1) % 256, closedAsk := none })).lif = s.lif :=
      closed.within.lif.trans lif
    have me : (((v.modPump n fun p => { p with sale := some (newSale number preset (some k)), last := .pending }).modPump
        n fun p => { p with askSeq := (p.askSeq + 1) % 256, closedAsk := none })).me = s.me :=
      me_of_straps ((closed.within.frame .straps (by decide)).trans (placed.frame .straps (by decide)))
    rw [same, me] at whole
    rw [whole]
    clear_value v
    have queued := within_queueFrame (((v.modPump n fun p =>
      { p with sale := some (newSale number preset (some k)), last := .pending }).modPump n fun p =>
      { p with askSeq := (p.askSeq + 1) % 256, closedAsk := none }).modPump n fun p =>
      { p with ask := some ⟨p.askSeq, ⟨1, none, s.lif.serial⟩⟩ })
      (holdAskFrame s.me n ((p.askSeq + 1) % 256) k preset)
    have later : Within [.moments, .pwb, .fdc, .lif] v _ :=
      (asked.within.mono (by decide)).trans (queued.mono (by decide))
    refine ⟨(pump?_congr queued.fdc n).trans asked.here, fun m other => (pump?_congr queued.fdc m).trans
        ((asked.others m other).trans (there m)),
      (congrArg Fdc.journal queued.fdc).trans (asked.journal.trans (congrArg Fdc.journal fdc)),
      (congrArg Fdc.saleNo queued.fdc).trans (asked.saleNo.trans (congrArg Fdc.saleNo fdc)),
      queued.pwb.trans (asked.within.pwb.trans pwb), placed.trans later,
      fun few => queued.hasFlag (asked.within.hasFlag (low few)), nofun, fun k' card on free => ?_⟩
    cases card
    rw [← line] at on free
    have sent := queueFrame_mk (kind := 9) (fields := [(2, n), (8, (p.askSeq + 1) % 256)])
      (data := beBytes 5 k ++ beBytes 3 preset) on free s.me (by decide) (by simp [keyWidth])
    refine ⟨⟨_, _⟩, (congrArg (fun u : State => _ ∈ u.lif.tx) sent).mpr (mem_txInsert.mpr (.inl rfl)),
      congrArg Lif.serial line, rfl⟩

end

/-! ### The request -/

section
variable {s : State} {n preset payment card : Nat} {p : Pump} {f : PumpConfig} {cd : Option Nat}

/-- What PUMP AUTHORISE does and answers (R105). -/
def authoriseBody (n preset payment card : Nat) (s : State) : State × Reply :=
  match s.pump? n, paymentCard payment card with
  | some p, some cd =>
    if preset < 100 then (s, .refused .range)
    else
      match p.config with
      | none => (s, .refused .unknown)
      | some c =>
        match s.authoriseRefusal p cd with
        | some cause => (s, .refused cause)
        | none => (s.authorise n (s.nextSaleNo.getD 0) (min preset 500000) cd c,
            .accepted (decide (500000 < preset)) (u16 (s.nextSaleNo.getD 0)))
  | _, _ => (s, .refused .range)

theorem exec_pumpAuthorise (taken : Takes 48 s) : exec (.pumpAuthorise n preset payment card) s =
    .next ((authoriseBody n preset payment card (s.takeFrame 48)).1.writeAnswer 48
      (authoriseBody n preset payment card (s.takeFrame 48)).2) :=
  congrArg Host.Outcome.next (State.request_taken taken)

theorem pumpAuthorise_refused {x : Cause} (taken : Takes 48 s)
    (body : authoriseBody n preset payment card (s.takeFrame 48) = (s.takeFrame 48, .refused x)) :
    exec (.pumpAuthorise n preset payment card) s = .next { s with pnp := s.pnp.answered 48 (.refused x) } := by
  rw [exec_pumpAuthorise taken, body]
  rfl

/-- The payment of an authorisation in range: ACCOUNT with its card, PANEL with none (R105). -/
theorem paymentCard_account (low : 1 ≤ card) (high : card ≤ 1099511627775) : paymentCard 1 card = some (some card) := by
  simp [paymentCard, cardOk, within, Config.cardMax, low, high]

theorem paymentCard_panel : paymentCard 2 card = some none := by
  simp [paymentCard]

theorem paymentCard_none (bad : ¬ (payment = 2 ∨ (payment = 1 ∧ 1 ≤ card ∧ card ≤ 1099511627775))) :
    paymentCard payment card = none := by
  unfold paymentCard
  rw [if_neg, if_neg]
  · exact fun panel => bad (.inl panel)
  · intro good
    simp [cardOk, within, Config.cardMax] at good
    obtain ⟨account, above, below⟩ := good
    exact bad (.inr ⟨account, above, of_decide_eq_true below⟩)

theorem authoriseBody_range (out : ¬ ((n = 1 ∨ n = 2) ∧ 100 ≤ preset ∧
    (payment = 2 ∨ (payment = 1 ∧ 1 ≤ card ∧ card ≤ 1099511627775)))) :
    authoriseBody n preset payment card s = (s, .refused .range) := by
  unfold authoriseBody
  split
  next p cd here paid =>
    have first : n = 1 ∨ n = 2 := (pump?_cases here).imp And.left And.left
    have pays : payment = 2 ∨ (payment = 1 ∧ 1 ≤ card ∧ card ≤ 1099511627775) := by
      by_contra bad
      rw [paymentCard_none bad] at paid
      cases paid
    rw [if_pos (by omega)]
  next => rfl

theorem authoriseBody_refused {x : Cause} (at_ : s.pump? n = some p) (paid : paymentCard payment card = some cd)
    (preset_ : 100 ≤ preset) (config : p.config = some f) (refusal : s.authoriseRefusal p cd = some x) :
    authoriseBody n preset payment card s = (s, .refused x) := by
  unfold authoriseBody
  simp only [at_, paid, config, refusal]
  rw [if_neg (by omega)]

end

section
variable {s w : State} {n k preset : Nat} {card : Option Nat} {p : Pump} {f : PumpConfig}

theorem Pump.asking_config (p : Pump) (card : Option Nat) (serial : Nat) : (p.asking card serial).config = p.config := by
  unfold Pump.asking
  split <;> rfl

theorem SaleBegun.loads (begun : SaleBegun n k preset card f p s w) (at_ : s.pump? n = some p) (idle : p.sale = none) :
    w.pumpLoads = s.pumpLoads ∧ w.load = s.load ∧ w.ceiling = s.ceiling ∧ w.ownCeiling = s.ownCeiling := by
  have pumps := pumpLoads_one at_ begun.here begun.others
  have before : p.heldLoad = 0 := by simp [Pump.heldLoad, idle]
  have after : Pump.heldLoad { p.asking card s.lif.serial with
      sale := some (newSale k preset card)
      last := .pending } = 0 := by
    unfold Pump.heldLoad
    dsimp only
    split
    next held config =>
      cases held
      exact if_neg nofun
    next => rfl
  have same : w.pumpLoads = s.pumpLoads := by omega
  have loans : w.pwb.loans = s.pwb.loans := (congrArg Pwb.loans begun.pwb).trans rfl
  have settings : w.settings = s.settings := begun.within.frame .settings (by decide)
  refine ⟨same, load_congr ((congrArg Pwb.energised begun.pwb).trans rfl) same, ceiling_congr settings loans, ?_⟩
  unfold State.ownCeiling Pwb.lentOut
  rw [settings, loans]

/-- A PUMP demand that joins an empty queue and fits is served at once (R56, R57). -/
theorem SaleBegun.settle_served (begun : SaleBegun n k preset card f p s w) (at_ : s.pump? n = some p)
    (idle : p.sale = none) (empty : s.pwb.demands = []) (bare : s.pwb.shed = [])
    (current : (f.load : Int) ≤ s.ceiling - s.load) (own : (f.load : Int) ≤ s.ownCeiling - s.pumpLoads) :
    HeadServed ⟨s.moments + 1, .pump, n, f.load, false, []⟩ [] w w.settle := by
  obtain ⟨pumps, load, ceiling, ownCeiling⟩ := begun.loads at_ idle
  have queue : w.pwb.demands = [⟨s.moments + 1, .pump, n, f.load, false, []⟩] := by
    rw [begun.pwb, empty]
    rfl
  have fits : w.fits ⟨s.moments + 1, .pump, n, f.load, false, []⟩ = true := by
    rw [fits_iff, load, ceiling, ownCeiling, pumps]
    exact ⟨current, fun _ => own⟩
  have served := serveHead_served queue
  have later := (served.2.2 rfl).1
  have list : (w.serveHead ⟨s.moments + 1, .pump, n, f.load, false, []⟩).pwb.shed = [] := by
    rw [later]
    exact (congrArg Pwb.shed begun.pwb).trans bare
  obtain ⟨-, rests⟩ := settleSince_idle s ((congrArg Pwb.demands later).trans rfl) list
  rw [Machine.settle_served queue fits, rests]
  exact served

end

theorem OnlyChanges.apart_pwb {ps qs : List Part} {s t : State} (h : OnlyChanges qs s t) (same : t.pwb = s.pwb)
    (among : qs ⊆ .pwb :: ps := by decide) : OnlyChanges ps s t := fun part out => by
  by_cases here : part = .pwb
  · subst here
    exact same
  · exact h part fun among' => (List.mem_cons.mp (among among')).elim here out

/-- Settles O49: the causes in their order, the sale begun as `SaleBegun` says it, and the demand at the head of an empty
queue served where it fits. -/
theorem pumpAuthoriseBeginsTheSale : Obligations.PumpAuthoriseBeginsTheSale := by
  intro n preset payment card s taken c refused inRange
  refine ⟨fun out => pumpAuthorise_refused taken (authoriseBody_range out), fun p ranges at_ => ?_⟩
  obtain ⟨first, low, pays⟩ := ranges
  obtain ⟨cd, paid, account⟩ : ∃ cd, paymentCard payment card = some cd ∧
      cd = if payment = 1 then some card else none := by
    rcases pays with rfl | ⟨rfl, one, top⟩
    · exact ⟨_, paymentCard_panel, rfl⟩
    · exact ⟨_, paymentCard_account one top, rfl⟩
  have asks : cd.isSome = decide (payment = 1) := by
    rw [account]
    by_cases one : payment = 1 <;> simp [one]
  refine ⟨fun bare => pumpAuthorise_refused taken ?_, fun f config => ?_⟩
  · unfold authoriseBody
    have at' : (s.takeFrame 48).pump? n = some p := at_
    simp only [at', paid, bare]
    rw [if_neg (by omega)]
  have because {x : Cause} (refusal : s.authoriseRefusal p cd = some x) : refused x :=
    pumpAuthorise_refused taken (authoriseBody_refused (s := s.takeFrame 48) at_ paid low config refusal)
  refine ⟨fun active => because ?_, fun calm busy => because ?_, fun calm idle one off => because ?_,
    fun calm idle may => ?_⟩
  · simp [State.authoriseRefusal, active]
  · simp [State.authoriseRefusal, calm, busy]
  · simp [State.authoriseRefusal, calm, idle, asks, one, State.onLine, off]
  have line : (cd.isSome && !s.onLine) = false := by
    rcases may with panel | on
    · simp [asks, panel]
    · simp [State.onLine, on]
  refine ⟨fun full => because ?_, fun few full => because ?_, fun few places => ?_⟩
  · have none : s.journalRoom = false := decide_eq_false (Nat.not_lt.mpr full)
    simp [State.authoriseRefusal, calm, idle, line, none]
  · have room : s.journalRoom = true := decide_eq_true few
    have queue : s.queueFull = true := decide_eq_true full
    simp [State.authoriseRefusal, calm, idle, line, room, queue]
  subst account
  let u := s.takeFrame 48
  let k := u.nextSaleNo.getD 0
  let pr := min preset 500000
  let cd := if payment = 1 then some card else none
  have at' : u.pump? n = some p := at_
  obtain ⟨top, fresh, next⟩ := nextSaleNo_free (s := u) few
  have begun : SaleBegun n k pr cd f p u (u.saleStands n k pr cd f) := saleStands_begun at' k pr cd f
  have held := within_authorise u n k pr cd f
  have body : authoriseBody n preset payment card u =
      (u.authorise n k pr cd f, .accepted (decide (500000 < preset)) (u16 k)) := by
    have none : u.authoriseRefusal p cd = none := by
      have room : u.journalRoom = true := decide_eq_true few
      have queue : u.queueFull = false := decide_eq_false (Nat.not_le.mpr places)
      have calm' : u.fdc.emergency = false := calm
      have line' : (cd.isSome && !u.onLine) = false := line
      simp [State.authoriseRefusal, calm', idle, line', room, queue]
    unfold authoriseBody
    simp only [at', paid, config]
    rw [if_neg (by omega)]
    simp only [cd] at none
    simp only [none]
    rfl
  have runs : exec c s = _ := exec_pumpAuthorise taken
  rw [body, writeAnswer_held held] at runs
  have first : OnlyChanges [.pnp] s u := fun part out => by
    cases part with
    | pnp => exact absurd (List.mem_singleton.mpr rfl) out
    | _ => rfl
  have answered (t : State) (r : Reply) : OnlyChanges [.pnp] t { t with pnp := t.pnp.answered 48 r } := fun part out => by
    cases part with
    | pnp => exact absurd (List.mem_singleton.mpr rfl) out
    | _ => rfl
  have asked : p.asking cd s.lif.serial = (if payment = 1 then { p with
      askSeq := (p.askSeq + 1) % 256
      ask := some ⟨(p.askSeq + 1) % 256, ⟨1, none, s.lif.serial⟩⟩
      closedAsk := none } else p) := by
    unfold Pump.asking
    rw [show cd.isSome = decide (payment = 1) from asks]
    exact if_congr decide_eq_true_iff rfl rfl
  have pumpHere := begun.here
  rw [show p.asking cd u.lif.serial = _ from asked] at pumpHere
  have stood : OnlyChanges [.moments, .pnp, .lif, .pwb, .fdc] s (u.saleStands n k pr cd f) :=
    (first.mono (by decide)).trans (begun.within.1.mono (by decide))
  have waits (busy : s.pwb.demands ≠ []) : u.authorise n k pr cd f = u.saleStands n k pr cd f := by
    rw [authorise_eq, if_neg]
    rw [List.isEmpty_iff]
    exact busy
  have settles (empty : s.pwb.demands = []) : u.authorise n k pr cd f = (u.saleStands n k pr cd f).settle := by
    rw [authorise_eq, if_pos]
    rw [List.isEmpty_iff]
    exact empty
  refine ⟨_, k, runs, top, fresh, next, rfl, rfl, rfl, fun many => ?_, ?_⟩
  · show (u.authorise n k pr cd f).hasFlag .journalLow = true
    by_cases empty : s.pwb.demands = []
    · rw [settles empty]
      exact (within_settle _).hasFlag (begun.low many)
    · rw [waits empty]
      exact begun.low many
  · intro sale asked' rec_ fits
    have served (empty : s.pwb.demands = []) (fit : fits) := begun.settle_served at' idle empty fit.1 fit.2.1 fit.2.2
    have line (may : s.pwb.demands ≠ [] ∨ fits) : (u.authorise n k pr cd f).lif = (u.saleStands n k pr cd f).lif := by
      by_cases empty : s.pwb.demands = []
      · have only := ((served empty (may.resolve_left fun busy => busy empty)).2.2 rfl).2.2.2.2
        rw [settles empty]
        exact only .lif (by decide)
      · rw [waits empty]
    refine ⟨fun one stands room => ?_, fun two stands => ?_, fun busy => ?_, fun empty => ?_, fun empty fit => ?_⟩
    · show ∃ x ∈ (u.authorise n k pr cd f).lif.tx, _
      rw [line stands]
      have on := may.resolve_left (by omega)
      exact begun.asks card (if_pos one) on room
    · show (u.authorise n k pr cd f).lif = s.lif
      rw [line stands]
      exact begun.panel (if_neg (by omega))
    · rw [waits busy]
      exact ⟨pumpHere, begun.journal, begun.saleNo, begun.pwb, stood.trans ((answered _ _).mono (by decide))⟩
    · refine ⟨u.saleStands n k pr cd f, pumpHere, begun.others, begun.journal, begun.saleNo, ?_, stood, ?_⟩
      · rw [begun.pwb, show u.pwb.demands = [] from empty]
        rfl
      · rw [settles empty]
        rfl
    · rw [settles empty]
      obtain ⟨-, -, pump⟩ := served empty fit
      obtain ⟨pwb, facts, -, journal, only⟩ := pump rfl
      have config' : Pump.config { asked' with sale := some sale, last := .pending } = some f := by
        show asked'.config = some f
        rw [show asked' = p.asking cd s.lif.serial from asked.symm]
        exact (Pump.asking_config ..).trans config
      have time : (u.saleStands n k pr cd f).elapsed = s.elapsed := begun.within.frame .elapsed (by decide)
      rw [time] at facts
      obtain ⟨loads, waiting, ready⟩ := facts _ sale f pumpHere rfl config'
      obtain ⟨pumps, load⟩ := loads rfl
      obtain ⟨samePumps, sameLoad, -, -⟩ := begun.loads at' idle
      have same : (u.saleStands n k pr cd f).settle.pwb = s.pwb := by
        rw [pwb, begun.pwb, ← show s.pwb.demands = [] from empty]
        rfl
      refine ⟨?_, ?_, same, journal.trans begun.journal, fun one => ?_, fun two => ?_, ?_⟩
      · exact load.trans (congrArg (· + f.load) sameLoad)
      · exact pumps.trans (congrArg (· + f.load) samePumps)
      · refine (waiting ?_).1
        rintro ⟨-, panel | taken⟩
        · exact Option.some_ne_none card ((if_pos one).symm.trans panel)
        · exact Bool.false_ne_true taken
      · exact ready ⟨rfl, .inl (if_neg (by omega))⟩
      · exact OnlyChanges.apart_pwb ((stood.trans (only.mono (by decide))).trans ((answered _ _).mono (by decide))) same

end Sys2Proof.Machine
end

section
/-! PROOFS. The close of a sale and its settlement, and O52 (R103, R111, R116, R119 to R123). -/

namespace Sys2Proof.Machine

set_option Elab.async false

section
variable {s t : State} {n : Nat} {p q : Pump} {x : Sale} {j : List JournalRecord}

theorem modPump_congr {f g : Pump → Pump} (at_ : s.pump? n = some p) (same : f p = g p) :
    s.modPump n f = s.modPump n g := by
  unfold State.modPump
  rcases pump?_cases at_ with ⟨rfl, rfl⟩ | ⟨rfl, rfl⟩
  · rw [if_pos rfl, if_pos rfl, same]
  · rw [if_neg (by decide), if_pos rfl, if_neg (by decide), if_pos rfl, same]

/-- From `s` to `t` the sale of pump `n`, which stood as `q`, closed, and the journal became `j` (R120, R122). -/
structure SaleClosed (n : Nat) (q : Pump) (j : List JournalRecord) (s t : State) : Prop where
  here    : t.pump? n = some { q with sale := none, main := false, slow := false }
  others  : ∀ m, m ≠ n → t.pump? m = s.pump? m
  journal : t.fdc.journal = j
  flagged : t.hasFlag .saleClosed = true
  within  : Within [.fdc] s t

theorem PumpSet.closeSale (h : PumpSet n q j s t) (sale : q.sale = some x) :
    SaleClosed n q (recordSet x.number (fun r => { r with closed := true }) j) s (t.closeSale n) ∧
    ((∃ r ∈ j, r.number = x.number ∧ r.flags.unsettled = true) → (t.closeSale n).hasFlag .saleUnsettled = true) := by
  have gone := (h.modRecord x.number fun r => { r with closed := true }).modPump
    fun p => { p with sale := none, main := false, slow := false }
  unfold State.closeSale
  rw [h.sale? sale]
  dsimp only
  have flagged := within_setFlagIf (((t.modRecord x.number fun r => { r with closed := true }).modPump n
    fun p => { p with sale := none, main := false, slow := false }).setFlag .saleClosed)
    (t.fdc.journal.any fun r => r.number == x.number && r.flags.unsettled) .saleUnsettled
  refine ⟨⟨(pump?_congr flagged.fdc n).trans gone.here, fun m other =>
    (pump?_congr flagged.fdc m).trans (gone.others m other), (congrArg Fdc.journal flagged.fdc).trans gone.journal,
    flagged.hasFlag (setFlag_hasFlag _ _),
    (gone.within.trans (within_setFlag _ _).widen).trans flagged.widen⟩, ?_⟩
  rintro ⟨r, hr, number, marked⟩
  have any : (t.fdc.journal.any fun r => r.number == x.number && r.flags.unsettled) = true := by
    rw [h.journal]
    exact List.any_eq_true.mpr ⟨r, hr, by simp [number, marked]⟩
  rw [any]
  exact setFlag_hasFlag _ _

theorem PumpSet.closeUnsettled (h : PumpSet n q j s t) (sale : q.sale = some x) :
    SaleClosed n q (recordSet x.number (fun r => { r with
      closed := true
      flags := { r.flags with unsettled := true } }) j) s (t.closeUnsettled n) ∧
    (x.number ∈ j.map JournalRecord.number → (t.closeUnsettled n).hasFlag .saleUnsettled = true) := by
  obtain ⟨closed, flag⟩ := (h.flagRecord sale fun f => { f with unsettled := true }).closeSale sale
  have fused := recordSet_recordSet (number := x.number)
    (f := fun r => { r with flags := { r.flags with unsettled := true } }) (g := fun r => { r with closed := true })
    (fun _ => rfl) j
  refine ⟨(congrArg (SaleClosed n q · s _) fused).mp closed, fun own => flag ?_⟩
  obtain ⟨r, hr, number⟩ := List.mem_map.mp own
  exact ⟨_, List.mem_map.mpr ⟨r, hr, if_pos number⟩, number, rfl⟩

/-- What a SETTLE of a sale asks for: the charge of its record (R121). -/
def State.chargeOf (s : State) (number : Nat) : Nat :=
  match lookupKey JournalRecord.number number s.fdc.journal with
  | some r => r.charged.getD 0
  | none => 0

theorem sendSettle_eq {h : HoldRef} (at_ : s.pump? n = some p) (sale : p.sale = some x) (hold : x.hold = some h) (a : Nat) :
    s.sendSettle n a = (s.modPump n fun q => { q with
      sale := some { x with settle := some ⟨a, none, s.lif.serial⟩ } }).queueFrame
        (settleFrame s.me h.home h.hold (s.chargeOf x.number) h.occ x.number) := by
  have same : (s.modPump n fun q => { q with sale := some { x with settle := some ⟨a, none, s.lif.serial⟩ } }).me = s.me :=
    me_of_straps ((within_modPump s n _).frame .straps (by decide))
  have step : (s.modSale n fun x => { x with settle := some ⟨a, none, s.lif.serial⟩ }) =
      s.modPump n fun q => { q with sale := some { x with settle := some ⟨a, none, s.lif.serial⟩ } } :=
    modPump_congr at_ (by simp only [sale]; rfl)
  rw [← same, ← step]
  unfold State.sendSettle
  rw [sale?_of at_ sale]
  simp only [hold]
  rfl

/-- A SETTLE queued (R121): the attempt at the pump, and the frame ON LINE with room. -/
theorem PumpSet.sendSettle {h : HoldRef} (set_ : PumpSet n q j s t) (sale : q.sale = some x) (hold : x.hold = some h)
    (a : Nat) : (t.sendSettle n a).pump? n = some { q with
        sale := some { x with settle := some ⟨a, none, s.lif.serial⟩ } } ∧
      (∀ m, m ≠ n → (t.sendSettle n a).pump? m = s.pump? m) ∧ (t.sendSettle n a).fdc.journal = j ∧
      Within [.fdc, .lif] s (t.sendSettle n a) ∧
      (s.lif.state = .onLine → s.lif.tx.length < 12 → ∃ f ∈ (t.sendSettle n a).lif.tx, f.serial = s.lif.serial ∧
        f.frame = settleFrame s.me h.home h.hold (t.chargeOf x.number) h.occ x.number) := by
  have lif : t.lif = s.lif := set_.within.lif
  have me : t.me = s.me := me_of_straps (set_.within.frame .straps (by decide))
  have whole := sendSettle_eq set_.here sale hold a
  rw [lif, me] at whole
  have placed := set_.modPump fun q => { q with sale := some { x with settle := some ⟨a, none, s.lif.serial⟩ } }
  have queued := within_queueFrame (t.modPump n fun q => { q with
    sale := some { x with settle := some ⟨a, none, s.lif.serial⟩ } })
    (settleFrame s.me h.home h.hold (t.chargeOf x.number) h.occ x.number)
  rw [whole]
  refine ⟨(pump?_congr queued.fdc n).trans placed.here, fun m other =>
    (pump?_congr queued.fdc m).trans (placed.others m other), (congrArg Fdc.journal queued.fdc).trans placed.journal,
    placed.within.widen.trans queued.widen, fun on room => ?_⟩
  have line := placed.within.lif
  rw [← line] at on room
  have sent := queueFrame_queued on room (fr := settleFrame s.me h.home h.hold (t.chargeOf x.number) h.occ x.number)
    (by rw [settleFrame_kind]; rfl)
  exact ⟨_, (congrArg (fun u : State => _ ∈ u.lif.tx) sent).mpr (mem_txInsert.mpr (.inl rfl)),
    congrArg Lif.serial line, rfl⟩

/-! ### The timers of a sale (R111, R119, R120) -/

theorem saleTimer_ends {k : Nat} {body : State → State} (on : s.powered = true) (at_ : s.pump? n = some p)
    (sale : p.sale = some x) (timer : x.timer = some k) : s.saleTimer n x.state body = body (s.advanceTo k) := by
  unfold State.saleTimer
  rw [State.event_on on, sale?_of at_ sale]
  simp only [timer, if_true]

theorem saleTimer_idle {st : SaleState} {body : State → State} (on : s.powered = true) (at_ : s.pump? n = some p)
    (sale : p.sale = some x) (other : x.state ≠ st) : s.saleTimer n st body = s := by
  unfold State.saleTimer
  rw [State.event_on on, sale?_of at_ sale]
  cases timer : x.timer with
  | none => simp only [timer]
  | some k => simp only [timer, other, if_false]

/-- A sale priced and its load released, before PWB goes on (R120). -/
def State.priceSale (n : Nat) (x : Sale) (s : State) : State :=
  (s.modRecord x.number fun r => r.priced s.now).modSale n fun x => { x with load := .released }

theorem priceSale_set (at_ : s.pump? n = some p) (sale : p.sale = some x) :
    PumpSet n { p with sale := some { x with load := .released } }
      (recordSet x.number (fun r => r.priced s.now) s.fdc.journal) s (s.priceSale n x) :=
  ((PumpSet.refl at_).modRecord x.number fun r => r.priced s.now).modSale sale fun x => { x with load := .released }

/-- What follows PWB's going on at the end of the run-on (R120). -/
def State.afterPricing (n : Nat) (card : Option Nat) (y : State) : State :=
  match card with
  | none => y.closeSale n
  | some _ =>
    if y.onLine then (y.modSale n fun x => { x with state := .settling, timer := none }).sendSettle n 1
    else y.closeUnsettled n

theorem finishSale_eq (at_ : s.pump? n = some p) (sale : p.sale = some x) :
    s.finishSale n = (s.priceSale n x).settle.afterPricing n x.card := by
  unfold State.finishSale
  rw [sale?_of at_ sale]
  rfl

theorem afterPricing_apart (at_ : s.pump? n = some p) (sale : p.sale = some x) (card : Option Nat) :
    Within [.fdc, .lif] s (s.afterPricing n card) ∧ ∀ m, m ≠ n → (s.afterPricing n card).pump? m = s.pump? m := by
  have base := PumpSet.refl at_
  unfold State.afterPricing
  split
  · obtain ⟨closed, -⟩ := base.closeSale sale
    exact ⟨closed.within.widen, closed.others⟩
  next => 
    split
    · have settling := base.modSale sale fun x => { x with state := .settling, timer := none }
      cases hold : x.hold with
      | none =>
        have same : (s.modSale n fun x => { x with state := .settling, timer := none }).sendSettle n 1 =
            s.modSale n fun x => { x with state := .settling, timer := none } := by
          unfold State.sendSettle
          rw [settling.sale? rfl]
          simp only [hold]
        rw [same]
        exact ⟨settling.within.widen, settling.others⟩
      | some h =>
        obtain ⟨-, others, -, within, -⟩ := settling.sendSettle rfl hold 1
        exact ⟨within, others⟩
    · obtain ⟨closed, -⟩ := base.closeUnsettled sale
      exact ⟨closed.within.widen, closed.others⟩

theorem heldLoad_released (sale : p.sale = some x) (released : x.load ≠ .held) : p.heldLoad = 0 := by
  unfold Pump.heldLoad
  rw [sale]
  cases p.config with
  | none => rfl
  | some c => exact if_neg released

/-- The pump after the pricing: the sale as it stood, its load released unless PWB served a demand of the pump again
(R110, R120). -/
theorem priceSale_settle (at_ : s.pump? n = some p) (sale : p.sale = some x) (state : x.state = .finishing) :
    ∃ l, (s.priceSale n x).settle.pump? n = some { p with sale := some { x with load := l } } ∧
      ((∀ d ∈ s.pwb.demands, d.kind ≠ .pump ∨ d.source ≠ n) → l = .released) := by
  have set_ := priceSale_set at_ sale
  have past : x.state ≠ .authorising := by
    rw [state]
    exact nofun
  obtain ⟨l, there⟩ := ((settle_stays s past ⟨_, set_.here⟩).1).1
  refine ⟨l, there, fun apart => ?_⟩
  have demands : (s.priceSale n x).pwb.demands = s.pwb.demands := congrArg Pwb.demands set_.within.pwb
  have stays : PumpApart n ((s.priceSale n x).pump? n) (s.priceSale n x) :=
    ⟨rfl, .inr fun d hd kind => (apart d (demands ▸ hd)).resolve_left fun other => other kind⟩
  have same := (settle_pump_apart _ s stays).1.1
  rw [there, set_.here] at same
  exact Option.some.inj (congrArg (fun o : Option Pump => (o.bind Pump.sale).map Sale.load) same)

end

/-! ### The emergency stop (R116) -/

section
variable {s : State} {n : Nat} {p : Pump} {x : Sale}

theorem pumpEmergency_past (state : ∀ x, s.sale? n = some x → x.state = .finishing ∨ x.state = .settling) :
    s.pumpEmergency n = s := by
  unfold State.pumpEmergency
  split
  · rfl
  next x sale =>
    rcases state x sale with state | state <;> simp only [state]

theorem pumpEmergency_unused (at_ : s.pump? n = some p) (sale : p.sale = some x)
    (state : x.state = .authorising ∨ x.state = .authorised) :
    EndsUnused n p x (if x.state = .authorising then .refused .stopped else .lapsed .emergency) s
      (s.pumpEmergency n) := by
  have ends : s.pumpEmergency n = s.endUnused n .stopped .emergency := by
    unfold State.pumpEmergency
    rw [sale?_of at_ sale]
    rcases state with state | state <;> simp only [state]
  rw [ends]
  exact endUnused_says at_ sale .stopped .emergency

theorem pumpEmergency_stops (at_ : s.pump? n = some p) (sale : p.sale = some x)
    (state : x.state = .delivering ∨ x.state = .suspended) :
    PumpSet n { p with
        main := false
        slow := false
        sale := some { x with
          state := .finishing
          timer := some (s.elapsed + 2000000) } }
      (recordSet x.number (fun r => { r with flags := { r.flags with emergency := true } }) s.fdc.journal) s
      (s.pumpEmergency n) := by
  have stops : s.pumpEmergency n = (s.flagRecord n fun f => { f with emergency := true }).toFinishing n := by
    unfold State.pumpEmergency
    rw [sale?_of at_ sale]
    rcases state with state | state <;> simp only [state]
  rw [stops]
  exact ((PumpSet.refl at_).flagRecord sale fun f => { f with emergency := true }).toFinishing sale

end

theorem pressed_eq (s : State) : s.pressed = State.alarm .emergencyStop 0 s.sch.sec (State.setFlag .emergencyStop
    { s.capture .press with fdc := { s.fdc with emergency := true } }) := by
  have fdc : (s.capture .press).fdc = s.fdc := (within_capture s .press).fdc
  have sch : (s.capture .press).sch = s.sch := (within_capture s .press).frame .sch (by decide)
  rw [← fdc, ← sch]
  rfl

/-- Settles O52: each timer by `saleTimer_ends`, the pricing with PWB's going on between its two halves, and the press
at the two pumps one after the other. -/
theorem saleTimersAndEmergency : Obligations.SaleTimersAndEmergency := by
  refine ⟨fun n k p x s on at_ sale => ?_, fun s on => ?_⟩
  · intro v others record
    have at' : v.pump? n = some p := (pump?_congr (advanceTo_fdc s k) n).trans at_
    have moved : OnlyChanges [.elapsed, .sch] s v := (within_advanceTo s k).quiet (advanceTo_pnp s k)
    have sided {t : State} (same : ∀ m, m ≠ n → t.pump? m = v.pump? m) (within : Within [.fdc] v t) : others t :=
      ⟨fun m other => (same m other).trans (pump?_congr (advanceTo_fdc s k) m), within.frame .elapsed (by decide),
        within.frame .sch (by decide)⟩
    have journal (g : JournalRecord → JournalRecord) : recordSet x.number g v.fdc.journal = record g :=
      congrArg (fun d : Fdc => recordSet x.number g d.journal) (advanceTo_fdc s k)
    have idle {c : Instr} {st : SaleState} {body : State → State} (runs : exec c s = .next (s.saleTimer n st body))
        (other : x.state ≠ st) : exec c s = .next s :=
      runs.trans (congrArg Host.Outcome.next (saleTimer_idle on at_ sale other))
    have ends {c : Instr} {st : SaleState} {body : State → State} (runs : exec c s = .next (s.saleTimer n st body))
        (state : x.state = st) (timer : x.timer = some k) : exec c s = .next (body v) := by
      subst state
      exact runs.trans (congrArg Host.Outcome.next (saleTimer_ends on at_ sale timer))
    refine ⟨fun state timer => ?_, idle rfl, fun state timer => ?_, idle rfl, idle rfl, fun state timer => ?_⟩
    · have within := within_endUnused v n .cancelled .timeout
      have unused := endUnused_says at' sale .cancelled .timeout
      rw [if_neg (by rw [state]; exact nofun)] at unused
      exact ⟨_, ends rfl state timer, unused, within.frame .elapsed (by decide), within.frame .sch (by decide)⟩
    · have done := ((PumpSet.refl at').flagRecord sale fun f => { f with suspendTimeout := true }).toFinishing sale
      refine ⟨_, ends rfl state timer, done.here, done.journal.trans (journal _), sided done.others done.within, ?_⟩
      exact (moved.mono (by decide)).trans ((done.within.quiet done.pnp).mono (by decide))
    · have set_ := priceSale_set at' sale
      obtain ⟨l, there, apart⟩ := priceSale_settle at' sale state
      have past : x.state ≠ .authorising := by
        rw [state]
        exact nofun
      have runs : exec (.runOnEnd n) s = _ := ends rfl state timer
      rw [finishSale_eq at' sale] at runs
      obtain ⟨t, goes⟩ : ∃ t, t = (v.priceSale n x).settle.afterPricing n x.card := ⟨_, rfl⟩
      rw [← goes] at runs
      refine ⟨v.priceSale n x, t, l, runs, set_.here, sided set_.others set_.within,
        set_.journal.trans (journal _), fun held => ?_, set_.within.quiet set_.pnp, ?_⟩
      · have loads := pumpLoads_one at' set_.here set_.others
        rw [heldLoad_released (p := { p with sale := some { x with load := .released } })
          (x := { x with load := .released }) rfl nofun] at loads
        refine loads.trans ?_
        show v.pumpLoads = s.pumpLoads
        unfold State.pumpLoads
        rw [advanceTo_fdc]
      · intro y closed
        have base : PumpSet n _ y.fdc.journal y y := .refl there
        have demands : v.pwb.demands = s.pwb.demands := congrArg Pwb.demands (advanceTo_pwb s k)
        have lists : (v.priceSale n x).pwb = s.pwb := set_.within.pwb.trans (advanceTo_pwb s k)
        have ran : Within pwbParts v y := (set_.within.widen).trans (within_settle _)
        obtain ⟨within, others⟩ := afterPricing_apart there rfl x.card
        rw [← goes] at within others
        have whole : Within pwbParts v t := ran.trans within.widen
        have straps : y.me = s.me := me_of_straps ((ran.frame .straps (by decide)).trans (advanceTo_straps s k))
        have state' : y.lif.state = s.lif.state := by
          refine (settle_standing (v.priceSale n x) v).1.1.trans ?_
          rw [set_.within.lif]
          exact congrArg Lif.state (advanceTo_lif s k)
        refine ⟨fun empty bare => ?_, fun none => apart fun d hd => none d (demands ▸ hd), fun unique => ?_, others,
          whole.frame .elapsed (by decide), whole.frame .sch (by decide), fun panel => ?_, fun account off => ?_,
          fun h account line hold => ?_⟩
        · exact (settleSince_idle v ((congrArg Pwb.demands lists).trans empty)
            ((congrArg Pwb.shed lists).trans bare)).2
        · refine ((settle_stays v past ⟨_, set_.here⟩).2 fun m z other there => unique m z other ?_).1
          rw [← there]
          unfold State.sale?
          rw [set_.others m other, pump?_congr (advanceTo_fdc s k)]
        · rw [panel] at goes
          subst goes
          obtain ⟨done, -⟩ := base.closeSale rfl
          exact ⟨done.here, done.journal, done.flagged, done.within.1⟩
        · obtain ⟨card, some⟩ := Option.isSome_iff_exists.mp account
          have out : y.onLine = false := by
            unfold State.onLine
            rw [state']
            exact beq_eq_false_iff_ne.mpr off
          have closes : t = y.closeUnsettled n := by
            rw [goes, some]
            exact if_neg (by rw [out]; exact Bool.false_ne_true)
          subst closes
          obtain ⟨done, flag⟩ := base.closeUnsettled rfl
          exact ⟨⟨done.here, done.journal, done.flagged, done.within.1⟩, flag⟩
        · obtain ⟨card, some⟩ := Option.isSome_iff_exists.mp account
          have up : y.onLine = true := by
            unfold State.onLine
            rw [state', line]
            rfl
          have settles : t = (y.modSale n fun x => { x with state := .settling, timer := none }).sendSettle n 1 := by
            rw [goes, some]
            exact if_pos up
          subst settles
          have settling := base.modSale rfl fun x => { x with state := .settling, timer := none }
          obtain ⟨here, -, journal, within, sends⟩ := settling.sendSettle rfl hold 1
          refine ⟨here, journal, within.1.mono (by decide), fun r found room => ?_⟩
          obtain ⟨f, hf, serial, frame⟩ := sends (state'.trans line) room
          refine ⟨f, hf, serial, ?_⟩
          rw [frame, straps]
          have charge : (y.modSale n fun x => { x with state := .settling, timer := none }).chargeOf x.number =
              r.charged.getD 0 := by
            unfold State.chargeOf
            rw [settling.journal, found]
          exact congrArg (fun c => settleFrame s.me h.home h.hold c h.occ x.number) charge
  · intro v acts
    have pressed : v = s.pressed := (pressed_eq s).symm
    have fdc : v.fdc = { s.fdc with emergency := true } := by
      rw [pressed]
      exact pressed_fdc s
    have acted (n : Nat) (a : State) : acts n a (a.pumpEmergency n) := by
      refine ⟨pumpEmergency_past, fun p x at_ sale => ⟨pumpEmergency_unused at_ sale, fun state => ?_⟩⟩
      have stops := pumpEmergency_stops at_ sale state
      exact ⟨stops.here, stops.others, stops.journal, stops.saleNo, stops.emergency, stops.within.quiet stops.pnp⟩
    refine ⟨?_, ?_, ⟨_, _, acted 1 _, acted 2 _, ?_, ?_⟩, ?_⟩
    · show some v.fdc.pump1 = _
      rw [fdc]
      rfl
    · show some v.fdc.pump2 = _
      rw [fdc]
      rfl
    · rw [emergencyPress_eq, State.event_on on, pressed]
    · rw [(kept_pumpEmergency _ 2).fuel.emergency, (kept_pumpEmergency _ 1).fuel.emergency, fdc]
    · show Host.Outcome.next (s.event _) = _
      rw [State.event_on on]
      dsimp only
      rw [(within_capture s .released).fdc]

end Sys2Proof.Machine
end

section
/-! PROOFS. Hold asks and settlements, O53 (R107, R108, R121, R122). -/

namespace Sys2Proof.Machine

set_option Elab.async false

section
variable {s : State} {n : Nat} {p : Pump} {x : Sale}

/-- The pump of a report or an answer: the one that meets the test, pump 1 first (log 58). -/
theorem findPump_of {test : Pump → Bool} (at_ : s.pump? n = some p) (meets : test p = true)
    (first : n = 1 ∨ test s.fdc.pump1 = false) : s.findPump test = some n := by
  unfold State.findPump
  rcases pump?_cases at_ with ⟨rfl, rfl⟩ | ⟨rfl, rfl⟩
  · rw [if_pos meets]
  · rw [if_neg (by simp [first.resolve_left (by decide)]), if_pos meets]

/-! ### Attempts left unanswered (R107, R121) -/

theorem askUnanswered_again {a : OpenAsk} (at_ : s.pump? n = some p) (sale : p.sale = some x) (ask : p.ask = some a)
    (first : a.attempt.attempt = 1) : s.askUnanswered n =
      (s.modPump n fun q => { q with ask := some ⟨p.askSeq, ⟨2, none, s.lif.serial⟩⟩ }).queueFrame
        (holdAskFrame s.me n p.askSeq (x.card.getD 0) x.preset) := by
  have asked : (s.pump? n).bind Pump.ask = some a := by rw [at_]; exact ask
  have step : s.modPump n (fun q => { q with ask := some ⟨p.askSeq, ⟨2, none, s.lif.serial⟩⟩ }) =
      s.modPump n fun p => { p with ask := some ⟨p.askSeq, ⟨2, none, s.lif.serial⟩⟩ } := modPump_congr at_ rfl
  unfold State.askUnanswered
  rw [asked, step]
  dsimp only
  rw [if_pos first, sendHoldAsk_eq at_ sale]

theorem askUnanswered_ends {a : OpenAsk} (at_ : s.pump? n = some p) (sale : p.sale = some x) (ask : p.ask = some a)
    (last : a.attempt.attempt ≠ 1) (state : x.state = .authorising) :
    EndsUnused n p x (.refused .noAnswer) s (s.askUnanswered n) := by
  have asked : (s.pump? n).bind Pump.ask = some a := by rw [at_]; exact ask
  have ends := endUnused_says at_ sale .noAnswer .cancelled
  rw [if_pos state] at ends
  unfold State.askUnanswered
  rw [asked]
  dsimp only
  rw [if_neg last]
  exact ends

theorem settleUnanswered_again {a : Attempt} {h : HoldRef} (at_ : s.pump? n = some p) (sale : p.sale = some x)
    (settle : x.settle = some a) (hold : x.hold = some h) (first : a.attempt = 1) : s.settleUnanswered n =
      (s.modPump n fun q => { q with sale := some { x with settle := some ⟨2, none, s.lif.serial⟩ } }).queueFrame
        (settleFrame s.me h.home h.hold (s.chargeOf x.number) h.occ x.number) := by
  unfold State.settleUnanswered
  rw [sale?_of at_ sale, Option.bind_some, settle]
  dsimp only
  rw [if_pos first, sendSettle_eq at_ sale hold]

theorem settleUnanswered_closes {a : Attempt} (at_ : s.pump? n = some p) (sale : p.sale = some x)
    (settle : x.settle = some a) (last : a.attempt ≠ 1) : s.settleUnanswered n = s.closeUnsettled n := by
  unfold State.settleUnanswered
  rw [sale?_of at_ sale, Option.bind_some, settle]
  exact if_neg last

/-! ### The answer of a hold ask (R108) -/

theorem tryAuthorise_unready (at_ : s.pump? n = some p) (sale : p.sale = some x)
    (no : p.config = none ∨ x.load ≠ .held) : s.tryAuthorise n = s := by
  unfold State.tryAuthorise
  rw [at_]
  dsimp only
  rw [sale]
  rcases no with bare | load
  · rw [bare]
  · cases p.config with
    | none => rfl
    | some c => exact if_neg (by simp [load])

theorem tryAuthorise_journal (s : State) (n : Nat) : (s.tryAuthorise n).fdc.journal = s.fdc.journal := by
  unfold State.tryAuthorise
  split
  · rfl
  · split
    · split
      · exact (modPump_fdc s n _).2.2.2
      · rfl
    · rfl

/-- A pump whose open ask has its hold (R107, R108). -/
def Pump.holding (p : Pump) (a : OpenAsk) (x : Sale) (h : HoldRef) : Pump :=
  { p with
    ask := none
    closedAsk := some ⟨a.seq, x.number, some h⟩
    sale := some { x with hold := some h } }

/-- The OK taken for an open ask, before the sale can become AUTHORISED (R108). -/
theorem answerOpen_ok {a : OpenAsk} (at_ : s.pump? n = some p) (sale : p.sale = some x) (ask : p.ask = some a)
    (cause : AuthCause) (h : HoldRef) : ∃ w, PumpSet n (p.holding a x h)
        (recordSet x.number (fun r => { r with hold := some h }) s.fdc.journal) s w ∧
      s.answerOpen n true cause h = w.tryAuthorise n := by
  have closed : p.closeAsk x.number (some h) = { p with ask := none, closedAsk := some ⟨a.seq, x.number, some h⟩ } := by
    unfold Pump.closeAsk
    simp only [ask]
  have held := (PumpSet.refl at_).modPump fun p =>
    { p.closeAsk x.number (some h) with sale := some { x with hold := some h } }
  rw [closed] at held
  refine ⟨_, held.modRecord x.number fun r => { r with hold := some h }, ?_⟩
  unfold State.answerOpen
  rw [if_pos rfl, sale?_of at_ sale]

theorem takeAnswer_open {a : OpenAsk} (at_ : s.pump? n = some p) (ask : p.ask = some a) (ok : Bool) (cause : AuthCause)
    (h : HoldRef) : s.takeAnswer n a.seq ok cause h = s.answerOpen n ok cause h := by
  unfold State.takeAnswer
  simp only [at_, ask, beq_self_eq_true, if_true]

theorem takeAnswer_closed {a : ClosedAsk} (at_ : s.pump? n = some p) (ask : p.ask = none) (closed : p.closedAsk = some a)
    (ok : Bool) (cause : AuthCause) (h : HoldRef) : s.takeAnswer n a.seq ok cause h = s.answerClosed a ok h := by
  unfold State.takeAnswer
  simp [at_, ask, closed]

theorem takeAnswer_stranger {seq : Nat} (at_ : s.pump? n = some p) (ask : ∀ a, p.ask = some a → seq ≠ a.seq)
    (closed : ∀ a, p.closedAsk = some a → seq ≠ a.seq) (ok : Bool) (cause : AuthCause) (h : HoldRef) :
    s.takeAnswer n seq ok cause h = s := by
  unfold State.takeAnswer
  rw [at_]
  dsimp only
  rw [if_neg]
  · cases was : p.closedAsk with
    | none => rfl
    | some a => exact if_neg fun same => closed a was same.symm
  · cases is : p.ask with
    | none => exact Bool.false_ne_true
    | some a => exact fun same => ask a is (eq_of_beq same).symm

end

/-- A settlement answered (R122). -/
theorem settleAnswered_closes {s : State} {n : Nat} {p : Pump} {x : Sale} (at_ : s.pump? n = some p)
    (sale : p.sale = some x) (r : SettleResult) : SaleClosed n p (recordSet x.number (fun j => { j with
        closed := true
        settle := some r
        flags := { j.flags with
          late := j.flags.late || r == .lateApplied
          unsettled := j.flags.unsettled || r == .unknown } }) s.fdc.journal) s (s.settleAnswered n r) ∧
      (r = .unknown → x.number ∈ s.fdc.journal.map JournalRecord.number →
        (s.settleAnswered n r).hasFlag .saleUnsettled = true) := by
  have written := (PumpSet.refl at_).modRecord x.number fun j => { j with
    settle := some r
    flags := { j.flags with
      late := j.flags.late || r == .lateApplied
      unsettled := j.flags.unsettled || r == .unknown } }
  obtain ⟨closed, flag⟩ := written.closeSale sale
  have fused := recordSet_recordSet (number := x.number) (f := fun j => { j with
    settle := some r
    flags := { j.flags with
      late := j.flags.late || r == .lateApplied
      unsettled := j.flags.unsettled || r == .unknown } }) (g := fun r => { r with closed := true })
    (fun _ => rfl) s.fdc.journal
  have whole : s.settleAnswered n r = (s.modRecord x.number fun j => { j with
      settle := some r
      flags := { j.flags with
        late := j.flags.late || r == .lateApplied
        unsettled := j.flags.unsettled || r == .unknown } }).closeSale n := by
    unfold State.settleAnswered
    rw [sale?_of at_ sale]
  rw [whole]
  refine ⟨(congrArg (SaleClosed n p · s _) fused).mp closed, fun unknown own => flag ?_⟩
  obtain ⟨j, hj, number⟩ := List.mem_map.mp own
  refine ⟨_, List.mem_map.mpr ⟨j, hj, if_pos number⟩, number, ?_⟩
  rw [unknown]
  exact Bool.or_true _

theorem exec_holdAskReport {s v : State} {n : Nat} {rep : Report} {rest : List Report} (on : s.powered = true)
    (got : takeFirst (fun y => y.frame.kind == 9) s.lif.reports = some (rep, rest))
    (later : v = { s with lif := { s.lif with reports := rest } })
    (found : v.findPump (fun p => (p.ask.map fun a => a.attempt.frame) == some rep.serial) = some n) :
    exec .holdAskReport s = .next (if rep.sent then v.modPump n fun p => { p with ask := p.ask.map fun a => { a with
      attempt := { a.attempt with waitEnd := some (s.elapsed + 400000) } } } else v.askUnanswered n) := by
  subst later
  refine (congrArg Host.Outcome.next (State.reportEvent_taken on got)).trans ?_
  dsimp only
  rw [found]
  rfl

theorem exec_settleReport {s v : State} {n : Nat} {rep : Report} {rest : List Report} (on : s.powered = true)
    (got : takeFirst (fun y => y.frame.kind == 11) s.lif.reports = some (rep, rest))
    (later : v = { s with lif := { s.lif with reports := rest } })
    (found : v.findPump (fun p => ((p.sale.bind Sale.settle).map Attempt.frame) == some rep.serial) = some n) :
    exec .settleReport s = .next (if rep.sent then v.modSale n fun x => { x with settle := x.settle.map fun a =>
      { a with waitEnd := some (s.elapsed + 400000) } } else v.settleUnanswered n) := by
  subst later
  refine (congrArg Host.Outcome.next (State.reportEvent_taken on got)).trans ?_
  dsimp only
  rw [found]
  rfl

/-- What a HOLD ANSWER does once it is taken (R108, R209). -/
def State.hearAnswer (f : Frame) (s : State) : State :=
  let h : HoldRef := ⟨f.sender, f.num 2 1, f.num 3 1⟩
  if 4 < f.num 1 1 then s
  else if f.num 0 1 = 1 then s.takeAnswer (f.keyField 5 2) (f.keyField 7 8) true .state h
  else if f.num 0 1 = 2 then
    match answerCause (f.num 1 1) with
    | some c => s.takeAnswer (f.keyField 5 2) (f.keyField 7 8) false c h
    | none => s
  else s

section
variable {s : State} {f : Frame}

theorem hearAnswer_ok (ok : f.num 0 1 = 1) (known : f.num 1 1 ≤ 4) : s.hearAnswer f =
    s.takeAnswer (f.keyField 5 2) (f.keyField 7 8) true .state ⟨f.sender, f.num 2 1, f.num 3 1⟩ := by
  unfold State.hearAnswer
  dsimp only
  rw [if_neg (by omega), if_pos ok]

theorem hearAnswer_refused {c : AuthCause} (refused : f.num 0 1 = 2) (known : f.num 1 1 ≤ 4)
    (cause : answerCause (f.num 1 1) = some c) : s.hearAnswer f =
      s.takeAnswer (f.keyField 5 2) (f.keyField 7 8) false c ⟨f.sender, f.num 2 1, f.num 3 1⟩ := by
  unfold State.hearAnswer
  dsimp only
  rw [if_neg (by omega), if_neg (by omega), if_pos refused, cause]

/-- An answer that its match leaves without effect, whether it grants or refuses. -/
theorem hearAnswer_idle (refuses : ∀ c, s.takeAnswer (f.keyField 5 2) (f.keyField 7 8) false c
      ⟨f.sender, f.num 2 1, f.num 3 1⟩ = s)
    (grants : f.num 0 1 = 1 → s.takeAnswer (f.keyField 5 2) (f.keyField 7 8) true .state
      ⟨f.sender, f.num 2 1, f.num 3 1⟩ = s) : s.hearAnswer f = s := by
  unfold State.hearAnswer
  dsimp only
  split
  · rfl
  · split
    next ok => exact grants ok
    next =>
      split
      · split
        · exact refuses _
        · rfl
      · rfl

end

/-- Settles O53: the pump of a report or an answer by `findPump_of`, then the attempt, the answer or the close. -/
theorem holdAsksAndSettlements : Obligations.HoldAsksAndSettlements := by
  refine ⟨fun n p x a s on at_ sale ask => ?_, fun src f note n p s u on got here at_ => ?_,
    fun n p x a h s on at_ sale settle hold => ?_⟩
  · intro again
    refine ⟨fun rep rest got serial first => ?_, fun k timer => ?_⟩
    · intro v
      have at' : v.pump? n = some p := at_
      have found : v.findPump (fun p => (p.ask.map fun a => a.attempt.frame) == some rep.serial) = some n := by
        refine findPump_of at' (by simp [ask, serial]) (first.imp_right fun other => ?_)
        cases own : s.fdc.pump1.ask with
        | none => rfl
        | some b =>
          exact beq_eq_false_iff_ne.mpr fun same => other b own (Option.some.inj same)
      have runs := exec_holdAskReport on got rfl found
      refine ⟨fun sent => runs.trans ?_, fun failed one => runs.trans ?_, fun failed last state => ⟨_, runs.trans ?_,
        askUnanswered_ends at' sale ask last state⟩⟩
      · rw [if_pos sent]
        exact congrArg Host.Outcome.next (modPump_congr at' (by rw [ask]; rfl))
      · rw [if_neg (by rw [failed]; exact Bool.false_ne_true)]
        exact congrArg Host.Outcome.next (askUnanswered_again at' sale ask one)
      · rw [if_neg (by rw [failed]; exact Bool.false_ne_true)]
    · intro v
      have at' : v.pump? n = some p := (pump?_congr (advanceTo_fdc s k) n).trans at_
      have lif : v.lif = s.lif := advanceTo_lif s k
      have me : v.me = s.me := me_of_straps (advanceTo_straps s k)
      have runs : exec (.holdAskWaitEnd n) s = .next (v.askUnanswered n) := by
        show Host.Outcome.next (s.event _) = _
        rw [State.event_on on, at_]
        simp only [Option.bind_some, ask, timer]
        rfl
      refine ⟨fun one => runs.trans ?_, fun last state => ⟨_, runs, askUnanswered_ends at' sale ask last state⟩⟩
      rw [askUnanswered_again at' sale ask one, lif, me]
  · intro h mine
    subst here
    have at' : u.pump? (f.keyField 5 2) = some p := by
      obtain ⟨rx, loop, rfl⟩ := takeRx_eq got
      exact at_
    have first : OnlyChanges [.lif] s u := by
      obtain ⟨rx, loop, rfl⟩ := takeRx_eq got
      exact (within_lif s _).quiet rfl
    have runs : exec (.holdAnswerFrame src) s = .next (u.hearAnswer f) :=
      congrArg Host.Outcome.next (State.frameEvent_taken on got)
    refine ⟨fun x a sale state ask own => ⟨fun ok known => ?_, fun z among refused => ?_⟩,
      fun a ask closed own known => ⟨fun ok unlike on => ?_, fun same => ?_⟩, fun ask closed => ?_⟩
    · obtain ⟨w, held, answered⟩ := answerOpen_ok at' sale ask .state h
      have taken := takeAnswer_open at' ask true .state h
      rw [show a.seq = f.keyField 7 8 from own, answered] at taken
      have ran : exec (.holdAnswerFrame src) s = .next (w.tryAuthorise (f.keyField 5 2)) :=
        runs.trans (congrArg Host.Outcome.next ((hearAnswer_ok ok known).trans taken))
      refine ⟨_, ran, fun load => ?_, fun g load config => ?_, ?_, ?_⟩
      · rw [tryAuthorise_unready held.here rfl (.inr load)]
        exact ⟨held.here, held.pnp.trans (first .pnp (by decide))⟩
      · have goes := (tryAuthorise_at held.here rfl config load).2 ⟨state, .inr rfl⟩
        have time : w.elapsed = s.elapsed := held.elapsed.trans (first .elapsed (by decide))
        rw [time] at goes
        rw [goes]
        exact ⟨setFlag_hasFlag _ _, (held.modPump fun p => { p with
          sale := some { x with
            hold := some h
            state := .authorised
            timer := some (s.elapsed + g.authTimeout * 1000000) }
          last := .authorised }).here⟩
      · rw [tryAuthorise_journal, held.journal]
        exact congrArg (fun d : Fdc => recordSet x.number (fun r => { r with hold := some h }) d.journal)
          (first .fdc (by decide))
      · exact (first.mono (by decide)).trans ((held.within.trans (within_tryAuthorise _ _)).1.mono (by decide))
    · have cause : answerCause (f.num 1 1) = some z ∧ f.num 1 1 ≤ 4 := by
        simp only [List.mem_cons, Prod.mk.injEq, List.not_mem_nil, or_false] at among
        rcases among with ⟨code, rfl⟩ | ⟨code, rfl⟩ | ⟨code, rfl⟩ | ⟨code, rfl⟩ <;> rw [code] <;> decide
      have taken := takeAnswer_open at' ask false z h
      rw [show a.seq = f.keyField 7 8 from own] at taken
      have ends := endUnused_says at' sale z .cancelled
      rw [if_pos state] at ends
      exact ⟨_, runs.trans (congrArg Host.Outcome.next
        ((hearAnswer_refused refused cause.2 cause.1).trans taken)), ends⟩
    · have taken := takeAnswer_closed at' ask closed true .state h
      rw [show a.seq = f.keyField 7 8 from own] at taken
      refine runs.trans (congrArg Host.Outcome.next ((hearAnswer_ok ok known).trans (taken.trans ?_)))
      have line : u.onLine = true := by
        obtain ⟨rx, loop, rfl⟩ := takeRx_eq got
        exact beq_iff_eq.mpr on
      have me : u.me = s.me := me_of_straps (first .straps (by decide))
      unfold State.answerClosed State.zeroSettle
      dsimp only
      rw [line, me]
      cases was : a.hold with
      | none => rfl
      | some y =>
        have other : (y.home == h.home && y.hold == h.hold) = false := by
          rw [Bool.and_eq_false_iff, beq_eq_false_iff_ne, beq_eq_false_iff_ne]
          exact unlike y was
        simp only [other]
        rfl
    · refine runs.trans (congrArg Host.Outcome.next (hearAnswer_idle (fun c => ?_) fun ok => ?_))
      · have taken := takeAnswer_closed at' ask closed false c h
        rw [show a.seq = f.keyField 7 8 from own] at taken
        exact taken
      · have taken := takeAnswer_closed at' ask closed true .state h
        rw [show a.seq = f.keyField 7 8 from own] at taken
        refine taken.trans ?_
        obtain ⟨y, was, home, hold⟩ := same.resolve_right fun no => no ok
        unfold State.answerClosed
        simp [was, home, hold]
    · have idle (ok : Bool) (c : AuthCause) := takeAnswer_stranger at' (fun a is same => ask a is same.symm)
        (fun a was same => closed a was same.symm) ok c h
      exact runs.trans (congrArg Host.Outcome.next (hearAnswer_idle (fun c => idle false c) fun _ => idle true .state))
  · intro again closes unsettle
    have shut {v t : State} {unsettled : Bool} {g : JournalRecord → JournalRecord} {j : List JournalRecord}
        (fdc : v.fdc = s.fdc) (closed : SaleClosed n p j v t)
        (flag : unsettled = true → x.number ∈ s.fdc.journal.map JournalRecord.number → t.hasFlag .saleUnsettled = true)
        (record : j = s.fdc.journal.map fun r => if r.number = x.number then { g r with closed := true } else r) :
        closes unsettled g v t :=
      ⟨closed.here, fun m other => (closed.others m other).trans (pump?_congr fdc m), closed.journal.trans record,
        closed.flagged, flag, closed.within.1⟩
    have unsettles {v : State} (at' : v.pump? n = some p) (fdc : v.fdc = s.fdc) (last : a.attempt ≠ 1) :
        closes true unsettle v (v.settleUnanswered n) := by
      rw [settleUnanswered_closes at' sale settle last]
      obtain ⟨closed, flag⟩ := (PumpSet.refl at').closeUnsettled sale
      rw [fdc] at closed flag
      exact shut fdc closed (fun _ => flag) rfl
    refine ⟨fun rep rest got serial first => ?_, fun k timer => ?_, fun src f note u got state home held first => ?_⟩
    · intro v
      have at' : v.pump? n = some p := at_
      have found : v.findPump (fun p => ((p.sale.bind Sale.settle).map Attempt.frame) == some rep.serial) = some n := by
        refine findPump_of at' (by simp [sale, settle, serial]) (first.imp_right fun other => ?_)
        cases own : s.fdc.pump1.sale.bind Sale.settle with
        | none => rfl
        | some b =>
          obtain ⟨y, has, its⟩ := Option.bind_eq_some_iff.mp own
          exact beq_eq_false_iff_ne.mpr fun same => other y b has its (Option.some.inj same)
      have runs := exec_settleReport on got rfl found
      refine ⟨fun sent => runs.trans ?_, fun failed one => runs.trans ?_, fun failed last =>
        ⟨_, runs.trans ?_, unsettles at' rfl last⟩⟩
      · rw [if_pos sent]
        exact congrArg Host.Outcome.next (modPump_congr at' (by rw [sale, Option.map_some, settle]; rfl))
      · rw [if_neg (by rw [failed]; exact Bool.false_ne_true)]
        exact congrArg Host.Outcome.next (settleUnanswered_again at' sale settle hold one)
      · rw [if_neg (by rw [failed]; exact Bool.false_ne_true)]
    · intro v
      have at' : v.pump? n = some p := (pump?_congr (advanceTo_fdc s k) n).trans at_
      have lif : v.lif = s.lif := advanceTo_lif s k
      have me : v.me = s.me := me_of_straps (advanceTo_straps s k)
      have charge : v.chargeOf x.number = s.chargeOf x.number :=
        congrArg (fun d : Fdc => State.chargeOf { s with fdc := d } x.number) (advanceTo_fdc s k)
      have runs : exec (.settleWaitEnd n) s = .next (v.settleUnanswered n) := by
        show Host.Outcome.next (s.event _) = _
        rw [State.event_on on, sale?_of at_ sale]
        simp only [Option.bind_some, settle, timer]
        rfl
      refine ⟨fun one => runs.trans ?_, fun last => ⟨_, runs, unsettles at' (advanceTo_fdc s k) last⟩⟩
      rw [settleUnanswered_again at' sale settle hold one, lif, me, charge]
      rfl
    · have fdc : u.fdc = s.fdc := by
        obtain ⟨rx, loop, rfl⟩ := takeRx_eq got
        rfl
      have at' : u.pump? n = some p := (pump?_congr fdc n).trans at_
      have meets : settlesWith f.sender (f.keyField 5 8) p = true := by
        unfold settlesWith
        simp [sale, hold, state, home, held]
      have found : u.findPump (settlesWith f.sender (f.keyField 5 8)) = some n := by
        refine findPump_of at' meets (first.imp_right fun other => ?_)
        rw [fdc]
        unfold settlesWith
        cases one : s.fdc.pump1.sale with
        | none => rfl
        | some y =>
          dsimp only
          rw [Bool.and_eq_false_iff]
          cases its : y.hold with
          | none => exact .inr rfl
          | some g =>
            refine (other y g one its).imp beq_eq_false_iff_ne.mpr fun unlike => ?_
            dsimp only
            rw [Bool.and_eq_false_iff, beq_eq_false_iff_ne, beq_eq_false_iff_ne, ← home, ← held]
            exact unlike
      have runs {r : SettleResult} (result : settleResultOf (f.num 0 1) = some r) :
          exec (.settleAnswerFrame src) s = .next (u.settleAnswered n r) := by
        refine (congrArg Host.Outcome.next (State.frameEvent_taken on got)).trans ?_
        simp only [result, found]
      have done (r : SettleResult) := settleAnswered_closes at' sale r
      simp only [fdc] at done
      refine ⟨fun code => ⟨_, runs (r := .applied) (by rw [code]; rfl), ?_⟩,
        fun code => ⟨_, runs (r := .lateApplied) (by rw [code]; rfl), ?_⟩,
        fun code => ⟨_, runs (r := .unknown) (by rw [code]; rfl), ?_⟩⟩
      · refine shut fdc (done .applied).1 nofun (List.map_congr_left fun r _ => if_congr Iff.rfl ?_ rfl)
        simp [show (SettleResult.applied == .lateApplied) = false from rfl,
          show (SettleResult.applied == .unknown) = false from rfl]
      · refine shut fdc (done .lateApplied).1 nofun (List.map_congr_left fun r _ => if_congr Iff.rfl ?_ rfl)
        simp
      · refine shut fdc (done .unknown).1 (fun _ => (done .unknown).2 rfl)
          (List.map_congr_left fun r _ => if_congr Iff.rfl ?_ rfl)
        simp

end Sys2Proof.Machine
end

section
/-! PROOFS. What PWB and FDC do while the station is off the line: no frame is queued, no loan and no collection
begins, and sales only end (R71, R123, R175). -/

namespace Sys2Proof.Machine

set_option Elab.async false

/-- From `s` to `t` each sale that stands stood before, at most authorised meanwhile. -/
def SalesKeep (s t : State) : Prop :=
  ∀ m z, t.sale? m = some z → ∃ y, s.sale? m = some y ∧ z.number = y.number ∧
    (z.state = y.state ∨ (y.state = .authorising ∧ z.state = .authorised))

/-- A sale of the pumps other than `n` has the number of the record. -/
def Foreign (n : Nat) (r : JournalRecord) (s : State) : Prop :=
  ∀ m y, m ≠ n → s.sale? m = some y → y.number ≠ r.number

section
variable {s t u : State} {n m : Nat} {x : Sale} {p : Pump}

theorem SalesKeep.of_fdc (fdc : t.fdc = s.fdc) : SalesKeep s t := by
  intro m z there
  rw [State.sale?, pump?_congr fdc] at there
  exact ⟨z, there, rfl, .inl rfl⟩

theorem SalesKeep.trans (h : SalesKeep s t) (g : SalesKeep t u) : SalesKeep s u := by
  intro m z there
  obtain ⟨y, mid, number, state⟩ := g m z there
  obtain ⟨w, first, number', state'⟩ := h m y mid
  refine ⟨w, first, number.trans number', ?_⟩
  rcases state with same | ⟨was, is⟩
  · rw [same]
    exact state'
  · rcases state' with same' | ⟨-, is'⟩
    · exact .inr ⟨same'.symm.trans was, is⟩
    · rw [is'] at was
      cases was

theorem SalesKeep.modPump {f : Pump → Pump} (one : ∀ p z, s.pump? n = some p → (f p).sale = some z →
    ∃ y, p.sale = some y ∧ z.number = y.number ∧ (z.state = y.state ∨ (y.state = .authorising ∧ z.state = .authorised))) :
    SalesKeep s (s.modPump n f) := by
  intro m z there
  simp only [State.sale?, modPump_pump?] at there ⊢
  split at there
  next same =>
    subst same
    cases at_ : s.pump? m with
    | none =>
      rw [at_] at there
      cases there
    | some p =>
      rw [at_] at there
      exact one p z at_ there
  next => exact ⟨z, there, rfl, .inl rfl⟩

theorem SalesKeep.modSale {f : Sale → Sale} (number : ∀ x, (f x).number = x.number) (state : ∀ x, (f x).state = x.state) :
    SalesKeep s (s.modSale n f) := by
  refine .modPump fun p z _ there => ?_
  obtain ⟨y, sale, rfl⟩ := Option.map_eq_some_iff.mp there
  exact ⟨y, sale, number y, .inl (state y)⟩

/-- A sale ended at one pump. -/
theorem SalesKeep.ended (gone : t.sale? n = none) (others : ∀ m, m ≠ n → t.pump? m = s.pump? m) : SalesKeep s t := by
  intro m z there
  by_cases same : m = n
  · subst same
    rw [gone] at there
    cases there
  · rw [State.sale?, others m same] at there
    exact ⟨z, there, rfl, .inl rfl⟩

theorem pump?_of_sale (sale : s.sale? n = some x) : ∃ p, s.pump? n = some p ∧ p.sale = some x :=
  Option.bind_eq_some_iff.mp sale

theorem tryAuthorise_sales : SalesKeep s (s.tryAuthorise n) := by
  unfold State.tryAuthorise
  split
  · exact .of_fdc rfl
  next p at_ =>
    split
    next x c sale config =>
      split
      next ready =>
        refine SalesKeep.trans (.modPump fun q z there held => ?_) (.of_fdc rfl)
        cases at_.symm.trans there
        cases held
        simp only [Bool.and_eq_true, decide_eq_true_eq] at ready
        exact ⟨x, sale, rfl, .inr ⟨ready.1.1, rfl⟩⟩
      · exact .of_fdc rfl
    · exact .of_fdc rfl

theorem serveHead_sales (d : Demand) : SalesKeep s (s.serveHead d) := by
  unfold State.serveHead
  dsimp only
  split
  · exact .of_fdc ((within_energise _ _ _).fdc.trans rfl)
  · exact .of_fdc ((within_raiseServed _ _).fdc.trans rfl)
  · have popped : SalesKeep s s.popDemand := .of_fdc rfl
    have held : SalesKeep s.popDemand (s.popDemand.modSale d.source fun x => { x with load := .held }) :=
      .modSale (fun _ => rfl) fun _ => rfl
    exact (popped.trans held).trans tryAuthorise_sales

/-- FDC's end of a sale: the sale gone, its record with it, no other pump changed (R110). -/
theorem endUnusedCore_ended (sale : s.sale? n = some x) (c : AuthCause) (r : LapseReason) :
    (s.endUnusedCore n c r).sale? n = none ∧
    (s.endUnusedCore n c r).fdc.journal = s.fdc.journal.filter fun r => r.number != x.number := by
  obtain ⟨p, at_, held⟩ := pump?_of_sale sale
  obtain ⟨here, -, -, -, journal, -⟩ := endUnusedCore_gone at_ held c r _ rfl
  refine ⟨?_, journal⟩
  have there : (s.endUnusedCore n c r).pump? n = _ := here
  unfold State.sale?
  rw [there]
  rfl

/-- Off the line an unused end queues no SETTLE (R110). -/
theorem endUnusedCore_off (off : s.lif.state = .lineOff) (c : AuthCause) (r : LapseReason) :
    (s.endUnusedCore n c r).lif = s.lif := by
  cases sale : s.sale? n with
  | none =>
    unfold State.endUnusedCore
    rw [sale]
  | some x =>
    obtain ⟨p, at_, held⟩ := pump?_of_sale sale
    obtain ⟨-, -, -, -, -, -, -, -, quiet, -⟩ := endUnusedCore_gone at_ held c r _ rfl
    exact (quiet (.inr (by rw [off]; exact nofun))).1

/-- What PWB's failing of a pump's demand leaves (R106). -/
theorem pumpFailed_cases (s : State) (n : Nat) (c : AuthCause) : s.pumpFailed n c = s ∨
    ∃ x, s.sale? n = some x ∧ x.state = .authorising ∧ s.pumpFailed n c = s.endUnusedCore n c .cancelled := by
  unfold State.pumpFailed
  split
  next x sale =>
    split
    next state => exact .inr ⟨x, sale, state, rfl⟩
    next => exact .inl rfl
  · exact .inl rfl

end

/-- What PWB and FDC do off the line from `s` to `t`, of the pumps with `free` nothing but PWB's answers. -/
structure OffStep (free : Nat → Prop) (s t : State) : Prop where
  within     : Within pwbParts s t
  lif        : t.lif = s.lif
  sales      : SalesKeep s t
  demands    : t.pwb.demands ⊆ s.pwb.demands
  loans      : t.pwb.loans ⊆ s.pwb.loans
  collection : s.pwb.collection = none → t.pwb.collection = none
  gone       : ∀ k, (∀ r ∈ s.fdc.journal, r.number ≠ k) → ∀ r ∈ t.fdc.journal, r.number ≠ k
  keeps      : ∀ n, free n → ∀ r ∈ s.fdc.journal, Foreign n r s →
    (∀ y, s.sale? n = some y → y.state ≠ .authorising) → r ∈ t.fdc.journal
  apart      : ∀ n, free n → ∀ x, PumpApart n x s → t.pump? n = x

namespace OffStep

variable {free : Nat → Prop} {s t u : State}

theorem quiet (within : Within pwbParts s t) (lif : t.lif = s.lif) (fdc : t.fdc = s.fdc)
    (demands : t.pwb.demands ⊆ s.pwb.demands) (loans : t.pwb.loans ⊆ s.pwb.loans)
    (collection : s.pwb.collection = none → t.pwb.collection = none) : OffStep free s t where
  within := within
  lif := lif
  sales := .of_fdc fdc
  demands := demands
  loans := loans
  collection := collection
  gone k none := by
    rw [fdc]
    exact none
  keeps n _ r there _ _ := by
    rw [fdc]
    exact there
  apart n _ x apart := (pump?_congr fdc n).trans apart.1

theorem refl (s : State) : OffStep free s s := quiet (.refl _ s) rfl rfl (List.Subset.refl _) (List.Subset.refl _) id

theorem pumpApart (h : OffStep free s t) {n : Nat} (is : free n) {x : Option Pump} (apart : PumpApart n x s) :
    PumpApart n x t :=
  ⟨h.apart n is x apart, apart.2.imp_right fun none d hd => none d (h.demands hd)⟩

theorem trans (h : OffStep free s t) (g : OffStep free t u) : OffStep free s u where
  within := h.within.trans g.within
  lif := g.lif.trans h.lif
  sales := h.sales.trans g.sales
  demands := List.Subset.trans g.demands h.demands
  loans := List.Subset.trans g.loans h.loans
  collection none := g.collection (h.collection none)
  gone k none := g.gone k (h.gone k none)
  keeps n is r there foreign own := by
    refine g.keeps n is r (h.keeps n is r there foreign own) (fun m z other held => ?_) fun z held => ?_
    · obtain ⟨y, was, number, -⟩ := h.sales m z held
      rw [number]
      exact foreign m y other was
    · obtain ⟨y, was, -, state⟩ := h.sales n z held
      rcases state with same | ⟨waits, -⟩
      · rw [same]
        exact own y was
      · exact absurd waits (own y was)
  apart n is x apart := g.apart n is x (h.pumpApart is apart)

theorem mono {fewer : Nat → Prop} (h : OffStep free s t) (sub : ∀ n, fewer n → free n) : OffStep fewer s t :=
  { h with
    keeps := fun n is => h.keeps n (sub n is)
    apart := fun n is => h.apart n (sub n is) }

theorem no_loans (h : OffStep free s t) (none : s.pwb.loans = []) : t.pwb.loans = [] :=
  List.eq_nil_of_subset_nil (by rw [← none]; exact h.loans)

end OffStep

section
variable {free : Nat → Prop} {s : State} {d : Demand} {rest : List Demand} {c : FailCause} {short : Bool}

theorem serveHead_loans (s : State) (d : Demand) : (s.serveHead d).pwb.loans = s.pwb.loans ∧
    (s.serveHead d).pwb.collection = s.pwb.collection ∧ (s.serveHead d).lif = s.lif := by
  unfold State.serveHead
  dsimp only
  split
  · exact ⟨rfl, rfl, (within_energise _ _ _).lif.trans rfl⟩
  · have within := within_raiseServed (State.raised s.popDemand d) d.source
    exact ⟨(congrArg Pwb.loans within.pwb).trans rfl, (congrArg Pwb.collection within.pwb).trans rfl, within.lif.trans rfl⟩
  · have within : Within [.fdc] s.popDemand
        ((s.popDemand.modSale d.source fun x => { x with load := .held }).tryAuthorise d.source) :=
      (within_modSale _ _ _).trans (within_tryAuthorise _ _)
    exact ⟨(congrArg Pwb.loans within.pwb).trans rfl, (congrArg Pwb.collection within.pwb).trans rfl, within.lif.trans rfl⟩

theorem offStep_serveHead (queue : s.pwb.demands = d :: rest) : OffStep free s (s.serveHead d) where
  within := within_serveHead s d
  lif := (serveHead_loans s d).2.2
  sales := serveHead_sales d
  demands := by
    rw [(serveHead_lists s d).1]
    exact List.tail_subset _
  loans := by
    rw [(serveHead_loans s d).1]
    exact List.Subset.refl _
  collection := (serveHead_loans s d).2.1.trans
  gone k none := by
    rw [serveHead_journal]
    exact none
  keeps n _ r there _ _ := by
    rw [serveHead_journal]
    exact there
  apart n _ x apart := by
    refine (serveHead_pump? s ?_).trans apart.1
    rw [apart.1]
    exact apart.2.imp_right fun none => none d (by simp [queue])

/-- A demand failed off the line: all but its submitter's part (R60). -/
theorem failHead_parts (s : State) (d : Demand) (c : FailCause) (short : Bool) :
    (s.failHead d c short).pwb.loans = s.pwb.loans ∧ (s.failHead d c short).pwb.collection = s.pwb.collection ∧
    (d.kind ≠ .pump → (s.failHead d c short).lif = s.lif ∧ (s.failHead d c short).fdc = s.fdc) ∧
    (d.kind = .pump → ∃ u : State, u.lif = s.lif ∧ u.fdc = s.fdc ∧ ∃ b, s.failHead d c short = u.pumpFailed d.source b) := by
  have first : Within [.pwb] s (s.popDemand.setFlagIf short .askShort) :=
    (within_popDemand s).andThen (within_setFlagIf _ _ _)
  have pwb : (s.popDemand.setFlagIf short .askShort).pwb = s.popDemand.pwb := (within_setFlagIf _ _ _).pwb
  unfold State.failHead
  cases kind : d.kind with
  | energise =>
    have later := within_shedFailed (s.popDemand.setFlagIf short .askShort) d.source d.need
    exact ⟨(congrArg Pwb.loans pwb).trans rfl, (congrArg Pwb.collection pwb).trans rfl,
      fun _ => ⟨later.lif.trans first.lif, later.fdc.trans first.fdc⟩, nofun⟩
  | raise =>
    have later := within_raiseOutcome (s.popDemand.setFlagIf short .askShort) d.source .budget
    exact ⟨(congrArg Pwb.loans (later.pwb.trans pwb)).trans rfl,
      (congrArg Pwb.collection (later.pwb.trans pwb)).trans rfl,
      fun _ => ⟨later.lif.trans first.lif, later.fdc.trans first.fdc⟩, nofun⟩
  | pump =>
    have later := within_pumpFailed (s.popDemand.setFlagIf short .askShort) d.source
      (match c with | .budget => .budget | .noLine => .noLine)
    exact ⟨(congrArg Pwb.loans (later.pwb.trans pwb)).trans rfl,
      (congrArg Pwb.collection (later.pwb.trans pwb)).trans rfl, nofun,
      fun _ => ⟨_, first.lif, first.fdc, _, rfl⟩⟩

theorem offStep_failHead (off : s.lif.state = .lineOff) (queue : s.pwb.demands = d :: rest) :
    OffStep free s (s.failHead d c short) := by
  obtain ⟨loans, collection, other, pump⟩ := failHead_parts s d c short
  have lists : (s.failHead d c short).pwb.demands ⊆ s.pwb.demands := by
    rw [(failHead_lists s d c short).1]
    exact List.tail_subset _
  have loans' : (s.failHead d c short).pwb.loans ⊆ s.pwb.loans := by
    rw [loans]
    exact List.Subset.refl _
  by_cases kind : d.kind = .pump
  · obtain ⟨u, lif, fdc, b, same⟩ := pump kind
    have apart (n : Nat) (x : Option Pump) (apart : PumpApart n x s) : (s.failHead d c short).pump? n = x := by
      refine (failHead_pump? s c short ?_).trans apart.1
      rw [apart.1]
      exact apart.2.imp_right fun none => none d (by simp [queue])
    rcases pumpFailed_cases u d.source b with idle | ⟨x, sale, state, ends⟩
    · have fdc' : (s.failHead d c short).fdc = s.fdc := by rw [same, idle, fdc]
      exact .quiet (within_failHead s d c short) (by rw [same, idle, lif]) fdc' lists loans' collection.trans
    · obtain ⟨gone, journal⟩ := endUnusedCore_ended sale b .cancelled
      have sale' : s.sale? d.source = some x := by
        rw [← sale]
        unfold State.sale?
        rw [pump?_congr fdc]
      rw [← ends, ← same] at gone journal
      rw [fdc] at journal
      exact {
        within := within_failHead s d c short
        lif := by rw [same, ends, endUnusedCore_off (by rw [lif]; exact off), lif]
        sales := .ended gone fun m other => by
          rw [same, ends]
          exact (endUnusedCore_pump?_ne u other b .cancelled).trans (pump?_congr fdc m)
        demands := lists
        loans := loans'
        collection := collection.trans
        gone := fun k none r there => by
          rw [journal] at there
          exact none r (List.mem_of_mem_filter there)
        keeps := fun n _ r there foreign own => by
          rw [journal]
          refine List.mem_filter.mpr ⟨there, bne_iff_ne.mpr fun number => ?_⟩
          by_cases same : d.source = n
          · subst same
            exact own x sale' state
          · exact foreign d.source x same sale' number.symm
        apart := fun n _ x => apart n x }
  · obtain ⟨lif, fdc⟩ := other kind
    exact .quiet (within_failHead s d c short) lif fdc lists loans' collection.trans

theorem offStep_restore {e : OutletLoad} {r : List OutletLoad} :
    OffStep free s (({ s with pwb := { s.pwb with shed := r } } : State).energise e.point e.figure) := by
  have within := within_energise ({ s with pwb := { s.pwb with shed := r } } : State) e.point e.figure
  exact .quiet ((within_pwb s _).andThen within) (within.lif.trans rfl) (within.fdc.trans rfl) (List.Subset.refl _)
    (List.Subset.refl _) id

/-- Off the line, with no loan and no collection, PWB serves or fails what it examines (R58 to R60, R71). -/
structure OffLine (s : State) : Prop where
  state      : s.lif.state = .lineOff
  loans      : s.pwb.loans = []
  collection : s.pwb.collection = none

theorem OffStep.offLine {t : State} (h : OffStep free s t) (off : OffLine s) : OffLine t :=
  ⟨(congrArg Lif.state h.lif).trans off.state, h.no_loans off.loans, h.collection off.collection⟩

theorem OffLine.fails (off : OffLine s) (d : Demand) : ∃ c short, s.headStep d = .fail c short := by
  unfold State.headStep State.recallsOut
  rw [off.collection, off.loans]
  simp only [Option.isSome_none, List.any_nil, List.reverse_nil, List.filter_nil, List.isEmpty_nil, Bool.not_true,
    Bool.false_eq_true, if_false, State.onLine, off.state]
  split
  · exact ⟨_, _, rfl⟩
  · exact ⟨_, _, rfl⟩

theorem offStep_examineLoop : ∀ (k : Nat) (s : State), OffLine s → OffStep free s (s.examineLoop k)
  | 0, s, _ => .refl s
  | k + 1, s, off => by
    cases queue : s.pwb.demands with
    | nil =>
      rw [examineLoop_nil queue]
      exact .refl s
    | cons d rest =>
      rw [State.examineLoop]
      simp only [queue]
      split
      · have served := offStep_serveHead (free := free) queue
        exact served.trans (offStep_examineLoop k _ (served.offLine off))
      · obtain ⟨c, short, step⟩ := off.fails d
        have failed := offStep_failHead (free := free) (c := c) (short := short) off.state queue
        rw [step]
        exact failed.trans (offStep_examineLoop k _ (failed.offLine off))

theorem offStep_restorePass (s : State) : OffStep free s s.restorePass :=
  restorePass_keeps (P := OffStep free s) (fun _ _ _ _ h => h.trans offStep_restore) s (.refl s)

theorem offStep_settles (off : OffLine s) (before : State) :
    OffStep free s s.settle ∧ OffStep free s (s.settleSince before) := by
  have examined := offStep_examineLoop (free := free) (s.pwb.demands.length + 1) s off
  constructor
  · rcases settle_cases s with ⟨-, runs⟩ | ⟨-, runs⟩ <;> rw [runs]
    · exact examined.trans (offStep_restorePass _)
    · exact examined
  · rcases settleSince_cases s before with ⟨-, -, runs⟩ | ⟨-, runs⟩ <;> rw [runs]
    · exact examined.trans (offStep_restorePass _)
    · exact examined

end

end Sys2Proof.Machine
end

section
/-! PROOFS. Entry to LINE OFF: PWB's loans and FDC's pumps (R71, R123, R175). -/

namespace Sys2Proof.Machine

set_option Elab.async false

section
variable {s t : State} {n : Nat} {p : Pump} {x : Sale} {o : LastOutcome}

/-- A sale that ends unused off the line (R110, R123). -/
theorem EndsUnused.off (ends : EndsUnused n p x o s t) (sale : s.sale? n = some x) (off : OffLine s) :
    OffStep (· ≠ n) s t ∧ t.pump? n = some { p.closeAsk x.number x.hold with
      sale := none
      main := false
      slow := false
      last := o } ∧ ∀ r ∈ t.fdc.journal, r.number ≠ x.number := by
  obtain ⟨w, ⟨here, others, -, pwb, journal, -, -, -, quiet, -, only⟩, goes, same, -⟩ := ends
  obtain ⟨lif, pnp⟩ := quiet (.inr (by rw [off.state]; exact nofun))
  have first : OffStep (· ≠ n) s w := {
    within := ⟨only.mono (by decide), .inr ⟨_, pnp⟩⟩
    lif := lif
    sales := .ended (by unfold State.sale?; rw [here]; rfl) others
    demands := by
      rw [pwb]
      dsimp only
      split
      · exact fun e he => List.mem_of_mem_filter he
      · exact List.Subset.refl _
    loans := by
      rw [pwb]
      exact List.Subset.refl _
    collection := fun none => by
      rw [pwb]
      exact none
    gone := fun k none r there => by
      rw [journal] at there
      exact none r (List.mem_of_mem_filter there)
    keeps := fun m other r there foreign _ => by
      rw [journal]
      exact List.mem_filter.mpr ⟨there, bne_iff_ne.mpr fun number => foreign n x other.symm sale number.symm⟩
    apart := fun m other y apart => (others m other).trans apart.1 }
  have later : OffStep (fun _ => True) w t := by
    have settles := offStep_settles (free := fun _ => True) (first.offLine off) s
    rw [goes]
    split
    · exact settles.2
    · exact settles.1
  refine ⟨first.trans (later.mono fun _ _ => trivial), same.trans here, later.gone _ fun r there => ?_⟩
  rw [journal] at there
  exact bne_iff_ne.mp (List.mem_filter.mp there).2

theorem SaleClosed.off {g : JournalRecord → JournalRecord} (closed : SaleClosed n p
    (recordSet x.number g s.fdc.journal) s t) (number : ∀ r, (g r).number = r.number) (sale : s.sale? n = some x) :
    OffStep (· ≠ n) s t where
  within := closed.within.mono (by decide)
  lif := closed.within.lif
  sales := .ended (by unfold State.sale?; rw [closed.here]; rfl) closed.others
  demands := by
    rw [closed.within.pwb]
    exact List.Subset.refl _
  loans := by
    rw [closed.within.pwb]
    exact List.Subset.refl _
  collection none := by
    rw [closed.within.pwb]
    exact none
  gone k none r there := by
    rw [closed.journal] at there
    obtain ⟨r', mem, rfl⟩ := List.mem_map.mp there
    split
    · rw [number]
      exact none r' mem
    · exact none r' mem
  keeps m other r there foreign _ := by
    rw [closed.journal]
    exact List.mem_map.mpr ⟨r, there, if_neg fun number => foreign n x (Ne.symm other) sale number.symm⟩
  apart m other y apart := (closed.others m other).trans apart.1

/-! ### The pumps (R123) -/

theorem pumpLineOff_asks (at_ : s.pump? n = some p) (sale : p.sale = some x) (state : x.state = .authorising)
    (ask : p.ask.isSome = true) : s.pumpLineOff n = s.endUnused n .noLine .cancelled := by
  unfold State.pumpLineOff
  simp only [at_, sale, state, ask, decide_true, Bool.and_self, if_true]

theorem pumpLineOff_settles (at_ : s.pump? n = some p) (sale : p.sale = some x) (state : x.state = .settling) :
    s.pumpLineOff n = s.closeUnsettled n := by
  unfold State.pumpLineOff
  simp only [at_, sale, state]
  rfl

theorem pumpLineOff_idle (other : ∀ p x, s.pump? n = some p → p.sale = some x →
    ¬ (x.state = .authorising ∧ p.ask.isSome = true) ∧ x.state ≠ .settling) : s.pumpLineOff n = s := by
  unfold State.pumpLineOff
  split
  · rfl
  next p at_ =>
    split
    · rfl
    next x sale =>
      obtain ⟨waits, settles⟩ := other p x at_ sale
      rw [if_neg (by simpa using waits), if_neg settles]

/-- A pump at the loss of the line (R123), its three cases. -/
theorem pumpLineOff_off (off : OffLine s) (n : Nat) : OffStep (· ≠ n) s (s.pumpLineOff n) ∧
    ∀ x, (s.pumpLineOff n).sale? n = some x → x.state ≠ .settling := by
  by_cases other : ∀ p x, s.pump? n = some p → p.sale = some x →
      ¬ (x.state = .authorising ∧ p.ask.isSome = true) ∧ x.state ≠ .settling
  · rw [pumpLineOff_idle other]
    refine ⟨.refl s, fun x sale => ?_⟩
    obtain ⟨p, at_, held⟩ := pump?_of_sale sale
    exact (other p x at_ held).2
  · obtain ⟨p, x, at_, sale, acts⟩ : ∃ p x, s.pump? n = some p ∧ p.sale = some x ∧
        ((x.state = .authorising ∧ p.ask.isSome = true) ∨ x.state = .settling) := by
      by_contra none
      refine other fun p x at_ sale => ⟨fun waits => none ⟨p, x, at_, sale, .inl waits⟩,
        fun settles => none ⟨p, x, at_, sale, .inr settles⟩⟩
    have gone {q : Pump} {t : State} (here : t.pump? n = some q) (idle : q.sale = none) :
        ∀ x, t.sale? n = some x → x.state ≠ .settling := fun x there => by
      rw [State.sale?, here, Option.bind_some, idle] at there
      cases there
    rcases acts with ⟨state, ask⟩ | state
    · rw [pumpLineOff_asks at_ sale state ask]
      obtain ⟨step, here, -⟩ := (endUnused_says at_ sale .noLine .cancelled).off (sale?_of at_ sale) off
      exact ⟨step, gone here rfl⟩
    · rw [pumpLineOff_settles at_ sale state]
      obtain ⟨closed, -⟩ := (PumpSet.refl at_).closeUnsettled sale
      exact ⟨closed.off (fun _ => rfl) (sale?_of at_ sale), gone closed.here rfl⟩

/-! ### The loans (R70, R71) -/

theorem shedOutlet_demands (e : OutletLoad) (s : State) : (s.shedOutlet e).pwb.demands =
    s.pwb.demands.filter fun d => d.kind == .pump || d.source != e.point := by
  rw [shedOutlet_pwb]

/-- What a shed pass leaves of the queue: every PUMP demand, and of the others a part in its order (R54). -/
theorem shedPass_demands (s : State) : ∃ keep : Demand → Bool, (∀ d, d.kind = .pump → keep d = true) ∧
    s.shedPass.pwb.demands = s.pwb.demands.filter keep := by
  rw [shedPass_eq]
  generalize s.shedOrder = order
  induction order generalizing s with
  | nil => exact ⟨fun _ => true, fun _ _ => rfl, (List.filter_eq_self.mpr fun _ _ => rfl).symm⟩
  | cons e order ih =>
    obtain ⟨keep, pumps, rest⟩ := ih (s.shedTurn e)
    rw [List.foldl_cons, rest]
    unfold State.shedTurn
    split
    · rw [shedOutlet_demands, List.filter_filter]
      refine ⟨_, fun d kind => ?_, rfl⟩
      simp [pumps d kind, kind]
    · exact ⟨keep, pumps, rfl⟩

variable {free : Nat → Prop} {col : Collection} {d : Demand} {rest : List Demand}

theorem abandonAsk_none (none : s.pwb.collection = none) : s.abandonAsk = { s with pwb := { s.pwb with
    collection := Option.none } } := by
  unfold State.abandonAsk
  rw [none]
  rfl

theorem abandonAsk_asker (open_ : s.pwb.collection = some col) (queue : s.pwb.demands = d :: rest)
    (asked : d.id = col.demand) : s.abandonAsk = State.failHead d .noLine false { s with pwb := { s.pwb with
      collection := Option.none } } := by
  have asker : State.askerHead { s with pwb := { s.pwb with collection := Option.none } } col = some d := by
    unfold State.askerHead
    simp only [queue, asked, if_true]
  unfold State.abandonAsk
  rw [open_]
  simp only [Option.bind_some, asker]

theorem abandonAsk_gone (open_ : s.pwb.collection = some col)
    (gone : ∀ d rest, s.pwb.demands = d :: rest → d.id ≠ col.demand) : s.abandonAsk = { s with pwb := { s.pwb with
      collection := Option.none } } := by
  have asker : State.askerHead { s with pwb := { s.pwb with collection := Option.none } } col = Option.none := by
    unfold State.askerHead
    cases queue : s.pwb.demands with
    | nil => rfl
    | cons d rest => simp only [gone d rest queue, if_false]
  unfold State.abandonAsk
  rw [open_]
  simp only [Option.bind_some, asker]

theorem offStep_dropCollection : OffStep free s { s with pwb := { s.pwb with collection := none } } :=
  .quiet (within_pwb s _).widen rfl rfl (List.Subset.refl _) (List.Subset.refl _) fun _ => rfl

theorem offStep_abandonAsk (off : s.lif.state = .lineOff) : OffStep free s s.abandonAsk ∧
    s.abandonAsk.pwb.collection = none := by
  have dropped := offStep_dropCollection (free := free) (s := s)
  cases open_ : s.pwb.collection with
  | none =>
    rw [abandonAsk_none open_]
    exact ⟨dropped, rfl⟩
  | some col =>
    by_cases asker : ∃ d rest, s.pwb.demands = d :: rest ∧ d.id = col.demand
    · obtain ⟨d, rest, queue, asked⟩ := asker
      rw [abandonAsk_asker open_ queue asked]
      exact ⟨dropped.trans (offStep_failHead (s := { s with pwb := { s.pwb with collection := none } }) off queue),
        (failHead_parts _ d .noLine false).2.1⟩
    · rw [abandonAsk_gone open_ fun d rest queue asked => asker ⟨d, rest, queue, asked⟩]
      exact ⟨dropped, rfl⟩

theorem shedPass_collection (s : State) : s.shedPass.pwb.collection = s.pwb.collection := by
  rw [shedPass_eq]
  generalize s.shedOrder = order
  induction order generalizing s with
  | nil => rfl
  | cons e order ih =>
    rw [List.foldl_cons, ih]
    unfold State.shedTurn
    split
    · rw [shedOutlet_pwb]
    · rfl

/-- PWB's loans gone and what no longer fits shed, before the collection is abandoned (R70, R71). -/
def State.loansEnded (s : State) : State := (s.dropLoans fun _ => true).shedIfShort

theorem loansEnded_keeps (s : State) : ∃ keep : Demand → Bool, (∀ d, d.kind = .pump → keep d = true) ∧
    s.loansEnded.pwb.demands = s.pwb.demands.filter keep := by
  unfold State.loansEnded State.shedIfShort
  split
  · exact shedPass_demands _
  · exact ⟨fun _ => true, fun _ _ => rfl, (List.filter_eq_self.mpr fun _ _ => rfl).symm⟩

theorem loansEnded_parts (s : State) : s.loansEnded.pwb.loans = [] ∧
    s.loansEnded.pwb.collection = s.pwb.collection := by
  have gone : s.pwb.loans.filter (fun _ => !true) = [] := List.filter_eq_nil_iff.mpr fun _ _ => Bool.false_ne_true
  unfold State.loansEnded State.shedIfShort
  split
  · exact ⟨(shedPass_loans _).trans gone, shedPass_collection _⟩
  · exact ⟨gone, rfl⟩

theorem within_loansEnded (s : State) : Within [.pwb, .spc] s s.loansEnded :=
  (within_dropLoans s _).andThen (within_shedIfShort _)

theorem offStep_loansEnded : OffStep free s s.loansEnded := by
  have within := within_loansEnded s
  obtain ⟨loans, collection⟩ := loansEnded_parts s
  obtain ⟨keep, -, demands⟩ := loansEnded_keeps s
  refine .quiet within.widen within.lif within.fdc ?_ ?_ collection.trans
  · rw [demands]
    exact fun e he => List.mem_of_mem_filter he
  · rw [loans]
    exact List.nil_subset _

theorem loansLineOff_eq (s : State) : s.loansLineOff = if s.pwb.loans.isEmpty then s.loansEnded.abandonAsk.settleSince s
    else s.loansEnded.abandonAsk.settle := rfl

theorem offLine_abandoned (off : s.lif.state = .lineOff) : OffLine s.loansEnded.abandonAsk := by
  have ended := offStep_loansEnded (free := fun _ => True) (s := s)
  obtain ⟨abandoned, collection⟩ := offStep_abandonAsk (free := fun _ => True)
    ((congrArg Lif.state ended.lif).trans off)
  exact ⟨(congrArg Lif.state (abandoned.lif.trans ended.lif)).trans off,
    abandoned.no_loans (loansEnded_parts s).1, collection⟩

/-- What is left to PWB at the loss of the line once the asker has failed (R71). -/
theorem offStep_loansSettle (off : s.lif.state = .lineOff) :
    OffStep free s.loansEnded.abandonAsk s.loansLineOff := by
  have settles := offStep_settles (free := free) (offLine_abandoned off) s
  rw [loansLineOff_eq]
  split
  · exact settles.2
  · exact settles.1

theorem offStep_loansLineOff (off : s.lif.state = .lineOff) : OffStep free s s.loansLineOff := by
  have ended := offStep_loansEnded (free := free) (s := s)
  exact (ended.trans (offStep_abandonAsk ((congrArg Lif.state ended.lif).trans off)).1).trans
    (offStep_loansSettle off)

/-- The asker at the loss of the line (R71): its demand is gone, and an authorising sale of it ended NO LINE. -/
theorem loansLineOff_asker (off : s.lif.state = .lineOff) (open_ : s.pwb.collection = some col)
    (queue : s.pwb.demands = d :: rest) (asked : d.id = col.demand) (alone : ∀ e ∈ rest, e.id ≠ d.id) :
    (∀ e ∈ s.loansLineOff.pwb.demands, e.id ≠ d.id) ∧
    ∀ x, d.kind = .pump → s.sale? d.source = some x → x.state = .authorising →
      ∃ p, s.loansLineOff.pump? d.source = some p ∧ p.sale = none ∧ p.last = .refused .noLine ∧
        s.loansLineOff.hasFlag .authDone = true := by
  have ended := offStep_loansEnded (free := fun _ => True) (s := s)
  obtain ⟨-, collection⟩ := loansEnded_parts s
  obtain ⟨keep, pumps, demands⟩ := loansEnded_keeps s
  rw [queue] at demands
  have settled := offStep_loansSettle (free := fun _ => True) off
  have fewer : ∀ e ∈ rest.filter keep, e.id ≠ d.id := fun e he => alone e (List.mem_of_mem_filter he)
  by_cases stays : keep d = true
  · rw [List.filter_cons_of_pos stays] at demands
    have goes := abandonAsk_asker (collection.trans open_) demands asked
    have failed := failHead_failed (s := { s.loansEnded with pwb := { s.loansEnded.pwb with collection := none } })
      .noLine false demands
    have lists := (failHead_lists { s.loansEnded with pwb := { s.loansEnded.pwb with collection := none } } d
      .noLine false).1
    rw [← goes] at failed lists
    refine ⟨fun e he => fewer e ?_, fun x kind sale state => ?_⟩
    · have there := settled.demands he
      rw [lists, show (({ s.loansEnded with pwb := { s.loansEnded.pwb with collection := none } } : State)).pwb.demands =
        d :: rest.filter keep from demands] at there
      exact there
    · obtain ⟨p, at_, held⟩ := pump?_of_sale sale
      have at' : s.loansEnded.pump? d.source = some p := (pump?_congr (within_loansEnded s).fdc _).trans at_
      obtain ⟨here, -, flag, -⟩ := (failed.2.2.2 kind).2.1 p x at' held state
      refine ⟨_, settled.apart d.source trivial _ ⟨here, .inl rfl⟩, rfl, rfl, settled.within.hasFlag flag⟩
  · rw [List.filter_cons_of_neg stays] at demands
    have goes := abandonAsk_gone (collection.trans open_) fun e later first same => by
      have mem : e ∈ rest.filter keep := by
        rw [← demands, first]
        exact List.mem_cons_self ..
      exact fewer e mem (same.trans asked.symm)
    refine ⟨fun e he => fewer e ?_, fun x kind => absurd (pumps d kind) stays⟩
    have there := settled.demands he
    rw [goes] at there
    rw [← demands]
    exact there

end

end Sys2Proof.Machine
end

section
/-! PROOFS. Frames heard, queued and sent, for O54 (R162, R165 to R168, R170 to R173). -/

namespace Sys2Proof.Machine

set_option Elab.async false

section
variable {s : State} {f : TxFrame} {g : Frame}

/-! ### Heard (R162, R172, R173) -/

theorem canWellFormed_iff (f : CanFrame) : canWellFormed f = true ↔ f.extended = true ∧ f.remote = false ∧
    kindLength (Frame.mk f.ident f.data).kind = some f.data.length := by
  unfold canWellFormed
  rw [Bool.and_eq_true, Bool.and_eq_true, beq_iff_eq, Bool.not_eq_true', and_assoc]
  rfl

theorem takenIn_iff (st : StationState) (kind : Nat) : takenIn st kind = true ↔
    (st = .joining ∧ kind ∈ [13, 14, 15, 17, 18]) ∨ (st = .onLine ∧ 2 ≤ kind ∧ kind ≤ 18) := by
  cases st <;> simp [takenIn]

theorem passes_iff (s : State) (g : Frame) : s.passes g = true ↔ (∀ a, g.addressee = some a → a = s.me) ∧
    ((s.lif.state = .joining ∧ g.kind ∈ [13, 14, 15, 17, 18]) ∨
      (s.lif.state = .onLine ∧ 2 ≤ g.kind ∧ g.kind ≤ 18)) := by
  unfold State.passes
  rw [Bool.and_eq_true, takenIn_iff]
  refine and_congr_left fun _ => ?_
  cases g.addressee with
  | none => simp
  | some a => simp

theorem exec_frameHeard (on : s.powered = true) (f : CanFrame) : exec (.frameHeard f) s =
    .next (if canWellFormed f then s.hear ⟨f.ident, f.data⟩ else s) :=
  congrArg Host.Outcome.next (State.event_on on)

theorem hear_clash (clash : g.sender = s.me) : s.hear g = s.setFlag .stationClash := if_pos clash

theorem hear_passes (other : g.sender ≠ s.me) (passes : s.passes g = true) : s.hear g = s.receive g := by
  unfold State.hear
  rw [if_neg other, if_pos passes]

theorem hear_drops (other : g.sender ≠ s.me) (no : s.passes g = false) : s.hear g = s := by
  unfold State.hear
  rw [if_neg other, if_neg (by rw [no]; exact Bool.false_ne_true)]

/-! ### Attempts and frames sent (R167, R170, R171) -/

theorem onSegment_iff (s : State) : s.onSegment = true ↔ s.lif.state = .joining ∨ s.lif.state = .onLine := by
  unfold State.onSegment
  rw [Bool.or_eq_true, beq_iff_eq, beq_iff_eq]

theorem txAttemptStart_starts {more : List TxFrame} (on : s.powered = true) (queue : s.lif.tx = f :: more)
    (free : s.lif.attempt = none) (segment : s.onSegment = true) :
    exec .txAttemptStart s = .next { s with lif := { s.lif with attempt := some f.serial } } := by
  refine (congrArg Host.Outcome.next (State.event_on on)).trans ?_
  simp only [free, queue, segment, if_true]

theorem txAttemptStart_idle (on : s.powered = true)
    (no : s.lif.tx = [] ∨ s.lif.attempt.isSome = true ∨ s.onSegment = false) : exec .txAttemptStart s = .next s := by
  refine (congrArg Host.Outcome.next (State.event_on on)).trans (congrArg Host.Outcome.next ?_)
  dsimp only
  split
  next free queue =>
    rcases no with empty | busy | off
    · rw [empty] at queue
      cases queue
    · rw [free] at busy
      cases busy
    · exact if_neg (by rw [off]; exact Bool.false_ne_true)
  · rfl

theorem attempted_split {before more : List TxFrame} (queue : s.lif.tx = before ++ f :: more)
    (attempt : s.lif.attempt = some f.serial) (unique : ∀ g ∈ before ++ more, g.serial ≠ f.serial) :
    s.lif.attempted = some f ∧ (s.lif.tx.filter fun g => g.serial != f.serial) = before ++ more := by
  constructor
  · unfold Lif.attempted
    rw [attempt, Option.bind_some, queue]
    refine List.find?_eq_some_iff_append.mpr ⟨beq_self_eq_true _, before, more, rfl, fun g hg => ?_⟩
    simp [unique g (List.mem_append_left _ hg)]
  · rw [queue, List.filter_append, List.filter_cons_of_neg (by simp), ← List.filter_append]
    exact List.filter_eq_self.mpr fun g hg => bne_iff_ne.mpr (unique g hg)

theorem sent_lif (f : TxFrame) (s : State) : ∃ loop reports, (s.sent f) = { s with lif := { s.lif with
      tx := s.lif.tx.filter fun g => g.serial != f.serial
      attempt := none
      failed := 0
      listenEnd := if f.frame.kind = 17 then some (s.elapsed + 200000) else s.lif.listenEnd
      loop := loop
      reports := reports } } ∧
    loop = (if s.passes f.frame then s.lif.loop ++ [f] else s.lif.loop) ∧
    (reportTaken f.frame.kind = true → reports = s.lif.reports ++ [⟨f.serial, f.frame, true⟩]) := by
  have reported : ∃ reports, State.giveReport f true { s with lif := { s.lif with
        tx := s.lif.tx.filter fun g => g.serial != f.serial
        attempt := none
        failed := 0
        listenEnd := if f.frame.kind = 17 then some (s.elapsed + 200000) else s.lif.listenEnd } } =
      { s with lif := { s.lif with
        tx := s.lif.tx.filter fun g => g.serial != f.serial
        attempt := none
        failed := 0
        listenEnd := if f.frame.kind = 17 then some (s.elapsed + 200000) else s.lif.listenEnd
        reports := reports } } ∧
      (reportTaken f.frame.kind = true → reports = s.lif.reports ++ [⟨f.serial, f.frame, true⟩]) := by
    unfold State.giveReport
    split
    · exact ⟨_, rfl, fun _ => rfl⟩
    next no => exact ⟨s.lif.reports, rfl, fun yes => absurd yes no⟩
  obtain ⟨reports, same, kinds⟩ := reported
  have whole : s.sent f = State.loopBack f { s with lif := { s.lif with
        tx := s.lif.tx.filter fun g => g.serial != f.serial
        attempt := none
        failed := 0
        listenEnd := if f.frame.kind = 17 then some (s.elapsed + 200000) else s.lif.listenEnd
        reports := reports } } := congrArg (State.loopBack f) same
  rw [whole]
  by_cases pass : s.passes f.frame = true
  · exact ⟨_, reports, if_pos pass, (if_pos pass).symm, kinds⟩
  · exact ⟨s.lif.loop, reports, if_neg pass, (if_neg pass).symm, kinds⟩

theorem exec_txSent (on : s.powered = true) (attempted : s.lif.attempted = some f) :
    exec .txSent s = .next (s.sent f) := by
  refine (congrArg Host.Outcome.next (State.event_on on)).trans ?_
  simp only [attempted]

/-! ### Queued (R165, R166) -/

theorem txInsert_split (f : TxFrame) : ∀ l : List TxFrame, ∃ before more, l = before ++ more ∧
    txInsert f l = before ++ f :: more ∧
    (l.Pairwise (fun a b => a.frame.ident.toNat ≤ b.frame.ident.toNat) →
      (∀ g ∈ before, g.frame.ident.toNat ≤ f.frame.ident.toNat) ∧
      (∀ g ∈ more, f.frame.ident.toNat < g.frame.ident.toNat))
  | [] => ⟨[], [], rfl, rfl, fun _ => ⟨nofun, nofun⟩⟩
  | g :: r => by
    by_cases lower : f.frame.ident.toNat < g.frame.ident.toNat
    · refine ⟨[], g :: r, rfl, if_pos lower, fun sorted => ⟨nofun, fun h hh => ?_⟩⟩
      rcases List.mem_cons.mp hh with rfl | later
      · exact lower
      · exact Nat.lt_of_lt_of_le lower (List.rel_of_pairwise_cons sorted later)
    · obtain ⟨before, more, split, inserted, ordered⟩ := txInsert_split f r
      refine ⟨g :: before, more, by rw [split]; rfl, (if_neg lower).trans (congrArg (g :: ·) inserted), fun sorted => ?_⟩
      obtain ⟨low, high⟩ := ordered (List.Pairwise.of_cons sorted)
      refine ⟨fun h hh => ?_, high⟩
      rcases List.mem_cons.mp hh with rfl | later
      · exact Nat.le_of_not_lt lower
      · exact low h later

/-- A frame queued ON LINE with the queue full: it or the highest displaced is dropped (R166). -/
theorem queueFrame_full {fr : Frame} (on : s.lif.state = .onLine) (low : 1 ≤ fr.kind) (high : fr.kind ≤ 16)
    (full : 12 ≤ s.lif.tx.length) : (s.queueFrame fr).hasFlag .txDropped = true ∧ ∀ h, s.lif.highest = some h →
      (h.frame.ident.toNat ≤ fr.ident.toNat → (s.queueFrame fr).lif.tx = s.lif.tx) ∧
      (fr.ident.toNat < h.frame.ident.toNat → (s.queueFrame fr).lif.tx =
        txInsert ⟨s.lif.serial, fr⟩ (s.lif.tx.filter fun g => g.serial != h.serial)) := by
  have accepted : acceptedIn .onLine fr.kind = true := by
    simp [acceptedIn, low, high]
  have report (u : State) (f : TxFrame) : ((u.giveReport f false).setFlag .txDropped).hasFlag .txDropped = true ∧
      ((u.giveReport f false).setFlag .txDropped).lif.tx = u.lif.tx := by
    refine ⟨setFlag_hasFlag _ _, ?_⟩
    show (u.giveReport f false).lif.tx = _
    unfold State.giveReport
    split <;> rfl
  unfold State.queueFrame
  simp only [on, accepted, Bool.not_true, Bool.false_eq_true, if_false, if_neg (Nat.not_lt.mpr full), Config.maxTx]
  split
  next h found =>
    have found' : s.lif.highest = some h := found
    split
    next lower =>
      refine ⟨(report _ _).1, fun h' same => ⟨fun above => ?_, fun _ => ?_⟩⟩
      · cases found'.symm.trans same
        omega
      · cases found'.symm.trans same
        exact (report _ _).2
    next above =>
      refine ⟨(report _ _).1, fun h' same => ⟨fun _ => (report _ _).2, fun lower => ?_⟩⟩
      cases found'.symm.trans same
      exact absurd lower above
  next absent =>
    refine ⟨(report _ _).1, fun h' same => ?_⟩
    have absent' : s.lif.highest = none := absent
    rw [absent'] at same
    cases same

end

end Sys2Proof.Machine
end

section
/-! PROOFS. The loss of the line, and O54 (R71, R123, R168, R175). -/

namespace Sys2Proof.Machine

set_option Elab.async false

section
variable {s t e : State} {n : Nat} {p : Pump} {x : Sale}

theorem OffStep.foreign {free : Nat → Prop} {r : JournalRecord} (h : OffStep free s t) (foreign : Foreign n r s) :
    Foreign n r t := fun m z other held => by
  obtain ⟨y, was, number, -⟩ := h.sales m z held
  rw [number]
  exact foreign m y other was

theorem OffStep.no_settling {free : Nat → Prop} (h : OffStep free s t) (none : ∀ x, s.sale? n = some x → x.state ≠ .settling) :
    ∀ x, t.sale? n = some x → x.state ≠ .settling := fun z held => by
  obtain ⟨y, was, -, state⟩ := h.sales n z held
  rcases state with same | ⟨-, is⟩
  · rw [same]
    exact none y was
  · rw [is]
    exact nofun

/-- What the loss of the line does to the sale of a pump, through to a later state (R123). -/
theorem pumpLineOff_own (off : OffLine e) (at_ : e.pump? n = some p) (sale : p.sale = some x)
    (after : OffStep (· = n) (e.pumpLineOff n) t) :
    (x.state = .authorising → p.ask.isSome = true → t.hasFlag .authDone = true ∧
      t.pump? n = some { p.closeAsk x.number x.hold with
        sale := none
        main := false
        slow := false
        last := .refused .noLine } ∧ ∀ r ∈ t.fdc.journal, r.number ≠ x.number) ∧
    (x.state = .settling → t.hasFlag .saleClosed = true ∧
      t.pump? n = some { p with
        sale := none
        main := false
        slow := false } ∧
      ∀ r ∈ e.fdc.journal, r.number = x.number → Foreign n r e →
        t.hasFlag .saleUnsettled = true ∧ { r with
          closed := true
          flags := { r.flags with unsettled := true } } ∈ t.fdc.journal) := by
  refine ⟨fun state ask => ?_, fun state => ?_⟩
  · rw [pumpLineOff_asks at_ sale state ask] at after
    have ends := endUnused_says at_ sale .noLine .cancelled
    rw [if_pos state] at ends
    obtain ⟨-, here, gone⟩ := ends.off (sale?_of at_ sale) off
    obtain ⟨-, -, -, -, flag⟩ := ends
    rw [if_pos state] at flag
    exact ⟨after.within.hasFlag flag, after.apart n rfl _ ⟨here, .inl rfl⟩, after.gone _ gone⟩
  · rw [pumpLineOff_settles at_ sale state] at after
    obtain ⟨closed, flag⟩ := (PumpSet.refl at_).closeUnsettled sale
    have step := closed.off (fun _ => rfl) (sale?_of at_ sale)
    refine ⟨after.within.hasFlag closed.flagged, after.apart n rfl _ ⟨closed.here, .inl rfl⟩, fun r there number foreign => ?_⟩
    refine ⟨after.within.hasFlag (flag (List.mem_map.mpr ⟨r, there, number⟩)),
      after.keeps n rfl _ ?_ (step.foreign foreign) fun y held => ?_⟩
    · rw [closed.journal]
      exact List.mem_map.mpr ⟨r, there, if_pos number⟩
    · rw [State.sale?, closed.here] at held
      cases held

/-- BAL with its rounds and its marks gone (R23). -/
def Bal.swept (b : Bal) : Bal := { b with rounds := [], berths := b.berths.map fun x => { x with mark := none } }

theorem roundsLineOff_idle (none : s.bal.await = none) : s.roundsLineOff = { s with bal := s.bal.swept } := by
  have idle : ¬ ({ s with bal := s.bal.swept } : State).bal.await.isSome = true := by
    show ¬ s.bal.await.isSome = true
    rw [none]
    exact Bool.false_ne_true
  exact if_neg idle

theorem roundsLineOff_awaits (awaits : s.bal.await.isSome = true) : s.roundsLineOff =
    State.endAwait .noLine { s with bal := s.bal.swept } := by
  have waits : ({ s with bal := s.bal.swept } : State).bal.await.isSome = true := awaits
  exact if_pos waits

theorem roundsLineOff_eq (s : State) : s.roundsLineOff.bal = { s.bal with
      rounds := []
      berths := s.bal.berths.map fun b => { b with mark := none }
      await := none
      result := if s.bal.await.isSome = true then .noLine else s.bal.result } ∧
    (s.bal.await.isSome = true → s.roundsLineOff.hasFlag .roundDone = true) := by
  cases await : s.bal.await with
  | none =>
    refine ⟨?_, nofun⟩
    rw [roundsLineOff_idle await]
    unfold Bal.swept
    simp only [await, Option.isSome_none, Bool.false_eq_true, if_false]
  | some a =>
    have goes := roundsLineOff_awaits (s := s) (by rw [await]; rfl)
    refine ⟨?_, fun _ => ?_⟩
    · rw [goes]
      rfl
    · rw [goes]
      exact setFlag_hasFlag .roundDone _

/-- The reports FAILED of some frames, those whose kind a block takes a report of (R168). -/
def failedReports (frames : List TxFrame) : List Report :=
  (frames.filter fun f => decide (f.frame.kind ∈ [4, 5, 6, 9, 11, 13, 14, 15])).map fun f =>
    Report.mk f.serial f.frame false

theorem failedReports_cons (f : TxFrame) (frames : List TxFrame) : failedReports (f :: frames) =
    failedReports [f] ++ failedReports frames := by
  unfold failedReports
  rw [← List.map_append, ← List.filter_append]
  rfl

theorem giveReport_failed (f : TxFrame) (s : State) : s.giveReport f false =
    { s with lif := { s.lif with reports := s.lif.reports ++ failedReports [f] } } := by
  by_cases taken : f.frame.kind ∈ [4, 5, 6, 9, 11, 13, 14, 15]
  · have one : failedReports [f] = [⟨f.serial, f.frame, false⟩] := by
      unfold failedReports
      rw [List.filter_cons_of_pos (by exact decide_eq_true taken)]
      rfl
    rw [one]
    exact if_pos (decide_eq_true taken)
  · have none : failedReports [f] = [] := by
      unfold failedReports
      rw [List.filter_cons_of_neg (by rw [decide_eq_true_iff]; exact taken)]
      rfl
    rw [none, List.append_nil]
    exact if_neg (by unfold reportTaken; rw [decide_eq_true_iff]; exact taken)

theorem foldl_giveReport (frames : List TxFrame) : ∀ s : State, frames.foldl (fun s f => s.giveReport f false) s =
    { s with lif := { s.lif with reports := s.lif.reports ++ failedReports frames } } := by
  induction frames with
  | nil =>
    intro s
    show s = { s with lif := { s.lif with reports := s.lif.reports ++ [] } }
    rw [List.append_nil]
  | cons f frames ih =>
    intro s
    rw [List.foldl_cons, ih, giveReport_failed, failedReports_cons f frames]
    simp only [List.append_assoc]

/-- The state at the loss of the line before the blocks take its notice (R175). -/
def State.lineLostAt (s : State) : State := State.setFlag .lineLost { s with lif := { s.lif with
  state := .lineOff
  attempt := none
  listenEnd := none
  rx := []
  loop := []
  failed := s.lif.failed + 1 } }

/-- Entry to LINE OFF from its notice on (R175). -/
def State.lineLost (a : State) : State :=
  { a.noticeLineOff.failQueued with lif := { a.noticeLineOff.failQueued.lif with
    silenceEnd := some (a.noticeLineOff.failQueued.elapsed + 1000000) } }

theorem exec_txError_lost (on : s.powered = true) (many : 127 ≤ s.lif.failed)
    (may : s.lif.attempt.isSome = true ∨ s.lif.state = .joining) : exec .txError s = .next s.lineLostAt.lineLost := by
  refine (congrArg Host.Outcome.next (State.event_on on)).trans ?_
  rw [if_pos (by simpa using may)]
  unfold State.countError
  dsimp only
  rw [if_pos (show Config.failedLimit ≤ s.lif.failed + 1 from Nat.succ_le_succ many)]
  rfl

/-- The notice of LINE OFF, block by block (R71, R123, R175). -/
structure LineLeft (a b c d t : State) : Prop where
  state   : a.lif.state = .lineOff
  rounds  : b = a.roundsLineOff
  loans   : c = b.loansLineOff
  one     : d = c.pumpLineOff 1
  two     : t = d.pumpLineOff 2

namespace LineLeft

variable {a b c d : State} (h : LineLeft a b c d t)
include h

theorem begin_ : b.lif = a.lif ∧ b.fdc = a.fdc ∧ b.pwb = a.pwb ∧ Within [.bal] a b := by
  have within := within_roundsLineOff a
  rw [← h.rounds] at within
  exact ⟨within.lif, within.fdc, within.pwb, within⟩

theorem lent (free : Nat → Prop) : OffStep free b c := by
  rw [h.loans]
  exact offStep_loansLineOff ((congrArg Lif.state h.begin_.1).trans h.state)

theorem offLine : OffLine c := by
  have off : b.lif.state = .lineOff := (congrArg Lif.state h.begin_.1).trans h.state
  rw [h.loans]
  exact (offStep_loansSettle (free := fun _ => True) off).offLine (offLine_abandoned off)

theorem first : OffStep (· ≠ 1) c d := by
  rw [h.one]
  exact (pumpLineOff_off h.offLine 1).1

theorem second : OffStep (· ≠ 2) d t := by
  rw [h.two]
  exact (pumpLineOff_off (h.first.offLine h.offLine) 2).1

theorem whole : OffStep (fun n => n ≠ 1 ∧ n ≠ 2) b t :=
  ((h.lent _).trans (h.first.mono fun _ both => both.1)).trans (h.second.mono fun _ both => both.2)

theorem settled : ∀ n x, t.sale? n = some x → x.state ≠ .settling := by
  intro n x sale
  have at_ : n = 1 ∨ n = 2 := by
    obtain ⟨p, at_, -⟩ := pump?_of_sale sale
    exact (pump?_cases at_).imp And.left And.left
  rcases at_ with rfl | rfl
  · have one := (pumpLineOff_off h.offLine 1).2
    rw [← h.one] at one
    exact h.second.no_settling one x sale
  · have two := (pumpLineOff_off (h.first.offLine h.offLine) 2).2
    rw [← h.two] at two
    exact two x sale

theorem flag {f : Flag} (set_ : a.hasFlag f = true) : t.hasFlag f = true :=
  h.whole.within.hasFlag (h.begin_.2.2.2.hasFlag set_)

/-- A pump without a sale once the loans are gone stays as it is. -/
theorem idle (at_ : c.pump? n = some p) (none : p.sale = none) : t.pump? n = some p := by
  have keeps {e : State} (off : OffLine e) (m : Nat) (here : e.pump? n = some p) :
      (e.pumpLineOff m).pump? n = some p := by
    by_cases same : m = n
    · rw [pumpLineOff_idle fun q x there sale => ?_]
      · exact here
      · subst same
        cases here.symm.trans there
        rw [none] at sale
        cases sale
    · exact (pumpLineOff_off off m).1.apart n (Ne.symm same) _ ⟨here, .inl none⟩
  have one := keeps h.offLine 1 at_
  rw [← h.one] at one
  have two := keeps (h.first.offLine h.offLine) 2 one
  rw [← h.two] at two
  exact two

/-- A sale that no demand of its pump touches meets the loss of the line as it stood (R123). -/
theorem own (at_ : a.pump? n = some p)
    (alone : ∀ d ∈ a.pwb.demands, d.kind = .pump → d.source ≠ n) :
    ∃ e, OffLine e ∧ e.pump? n = some p ∧ OffStep (· = n) (e.pumpLineOff n) t ∧ OffStep (· = n) b e := by
  obtain ⟨-, fdc, pwb, -⟩ := h.begin_
  have apart : PumpApart n (some p) b := ⟨(pump?_congr fdc n).trans at_, .inr (pwb ▸ alone)⟩
  have lent := h.lent fun _ => True
  have later := lent.pumpApart trivial apart
  rcases pump?_cases at_ with ⟨rfl, -⟩ | ⟨rfl, -⟩
  · refine ⟨c, h.offLine, later.1, ?_, lent.mono fun _ _ => trivial⟩
    rw [← h.one]
    exact h.second.mono fun n one => by rw [one]; decide
  · have first := h.first.mono (fewer := (· = 2)) fun n two => by rw [two]; decide
    refine ⟨d, h.first.offLine h.offLine, first.apart 2 rfl _ later, ?_,
      (lent.mono fun _ _ => trivial).trans first⟩
    rw [← h.two]
    exact .refl t

end LineLeft

theorem failQueued_eq (s : State) : s.failQueued = { s with lif := { s.lif with
    tx := []
    attempt := none
    reports := s.lif.reports ++ failedReports s.lif.tx } } :=
  foldl_giveReport s.lif.tx { s with lif := { s.lif with tx := [], attempt := none } }

theorem lineLost_eq (a : State) : a.lineLost = { a.noticeLineOff with lif := { a.noticeLineOff.lif with
    tx := []
    attempt := none
    reports := a.noticeLineOff.lif.reports ++ failedReports a.noticeLineOff.lif.tx
    silenceEnd := some (a.noticeLineOff.elapsed + 1000000) } } := by
  unfold State.lineLost
  rw [failQueued_eq]

theorem noticeLineOff_left {a : State} (state : a.lif.state = .lineOff) :
    LineLeft a a.roundsLineOff a.roundsLineOff.loansLineOff (a.roundsLineOff.loansLineOff.pumpLineOff 1)
      a.noticeLineOff := ⟨state, rfl, rfl, rfl, rfl⟩

end

end Sys2Proof.Machine
end

section
/-! PROOFS. O54 assembled. -/

namespace Sys2Proof.Machine

set_option Elab.async false

/-- Settles O54: frames heard by the tests of R172, frames sent and queued by their equations, and the loss of the line
block by block with `LineLeft`. -/
theorem framesHeardAndSent : Obligations.FramesHeardAndSent := by
  refine ⟨fun s => ⟨?_, fun t runs lost => ?_⟩, fun f s on => ?_, fun s on => ?_, fun col d rest s open_ queue asked => ?_,
    fun s => ?_, fun fr s on low high => ?_⟩
  · unfold State.acknowledges
    rw [Bool.and_eq_true, onSegment_iff]
  · unfold State.acknowledges State.onSegment
    rw [lost]
    exact Bool.and_false _
  · intro g formed passed
    have test : canWellFormed f = true ↔ formed := canWellFormed_iff f
    have heard (h : formed) : exec (.frameHeard f) s = .next (s.hear g) := by
      rw [exec_frameHeard on, if_pos (test.mpr h)]
    have pass : passed ↔ g.sender ≠ s.me ∧ s.passes g = true := by
      rw [passes_iff]
    refine ⟨fun bad => ?_, fun good clash => ?_, fun good other no => ?_, fun good yes room => ?_, fun good yes full => ?_⟩
    · rw [exec_frameHeard on, if_neg fun h => bad (test.mp h)]
    · rw [heard good, hear_clash clash]
      rfl
    · have drops : s.passes g = false := by
        rw [Bool.eq_false_iff]
        exact fun yes => no (pass.mpr ⟨other, yes⟩)
      rw [heard good, hear_drops other drops]
    · obtain ⟨other, passes⟩ := pass.mp yes
      rw [heard good, hear_passes other passes]
      exact congrArg Host.Outcome.next (if_pos room)
    · obtain ⟨other, passes⟩ := pass.mp yes
      rw [heard good, hear_passes other passes]
      exact congrArg Host.Outcome.next (if_neg (Nat.not_lt.mpr full))
  · refine ⟨fun f more queue free segment => ?_, fun no => ?_, ?_, fun free => ?_, fun before more f queue attempt unique => ?_,
      fun few may => ?_, fun many may => ?_⟩
    · exact txAttemptStart_starts on queue free ((onSegment_iff s).mpr segment)
    · refine txAttemptStart_idle on (no.imp_right (Or.imp_right fun off => ?_))
      unfold State.onSegment
      rcases off with off | off <;> rw [off] <;> rfl
    · exact congrArg Host.Outcome.next (State.event_on on)
    · refine (congrArg Host.Outcome.next (State.event_on on)).trans ?_
      unfold Lif.attempted
      rw [free]
      rfl
    · intro looped
      obtain ⟨attempted, left⟩ := attempted_split queue attempt unique
      obtain ⟨loop, reports, sent, loops, reported⟩ := sent_lif f s
      rw [left] at sent
      refine ⟨_, exec_txSent on attempted, ?_⟩
      rw [sent]
      have test : s.passes f.frame = true ↔ looped := passes_iff s f.frame
      refine ⟨rfl, rfl, rfl, rfl, rfl, rfl, fun yes => ?_, fun no => ?_, fun taken => ?_, (within_lif s _).quiet rfl⟩
      · exact loops.trans (if_pos (test.mpr yes))
      · exact loops.trans (if_neg fun h => no (test.mp h))
      · exact reported (decide_eq_true taken)
    · refine (congrArg Host.Outcome.next (State.event_on on)).trans ?_
      rw [if_pos (by simpa using may)]
      exact congrArg Host.Outcome.next (if_neg (Nat.not_le.mpr (Nat.succ_lt_succ few)))
    · obtain ⟨u, ran, only⟩ := everyCommandCompletesWithinItsParts .txError s
      have runs := exec_txError_lost on many may
      cases ran.symm.trans runs
      have left := noticeLineOff_left (a := s.lineLostAt) rfl
      have elapsed : s.lineLostAt.noticeLineOff.elapsed = s.elapsed :=
        (left.whole.within.frame .elapsed (by decide)).trans (left.begin_.2.2.2.frame .elapsed (by decide))
      have lif : s.lineLostAt.noticeLineOff.lif = s.lineLostAt.lif := left.whole.lif.trans left.begin_.1
      refine ⟨_, runs, ?_⟩
      rw [lineLost_eq, lif, elapsed]
      rw [lineLost_eq, lif, elapsed] at only
      obtain ⟨bal, done⟩ := roundsLineOff_eq s.lineLostAt
      refine ⟨rfl, rfl, rfl, rfl, rfl, rfl, left.flag (setFlag_hasFlag .lineLost _), ?_, ?_, ?_, ?_, ?_, left.settled, ?_, ?_, only⟩
      · exact (left.whole.within.frame .bal (by decide)).trans bal
      · exact fun awaits => left.whole.within.hasFlag (done awaits)
      · exact (left.second.offLine (left.first.offLine left.offLine)).loans
      · exact (left.second.offLine (left.first.offLine left.offLine)).collection
      · intro col d rest open_ queue asked alone
        obtain ⟨-, fdc, pwb, -⟩ := left.begin_
        have off : s.lineLostAt.roundsLineOff.lif.state = .lineOff := congrArg Lif.state left.begin_.1
        obtain ⟨ids, ended⟩ := loansLineOff_asker off ((congrArg Pwb.collection pwb).trans open_)
          ((congrArg Pwb.demands pwb).trans queue) asked alone
        refine ⟨fun e he => ids e (left.first.demands (left.second.demands he)), fun x kind sale state => ?_⟩
        have sale' : s.lineLostAt.roundsLineOff.sale? d.source = some x := by
          rw [← sale]
          unfold State.sale?
          rw [pump?_congr fdc]
          rfl
        obtain ⟨p, at_, none, last, flag⟩ := ended x kind sale' state
        have there := left.idle at_ none
        refine ⟨?_, left.second.within.hasFlag (left.first.within.hasFlag flag), p, there, last⟩
        exact (congrArg (Option.bind · Pump.sale) there).trans none
      · intro n p x at_ sale alone
        obtain ⟨e, off, here, after, before⟩ := left.own at_ alone
        obtain ⟨asks, settles⟩ := pumpLineOff_own off here sale after
        refine ⟨asks, fun state => ?_⟩
        obtain ⟨flag, gone, records⟩ := settles state
        refine ⟨flag, gone, fun r there number foreign => ?_⟩
        obtain ⟨-, fdc, -, -⟩ := left.begin_
        have others : Foreign n r s.lineLostAt.roundsLineOff := fun m y other held => by
          rw [State.sale?, pump?_congr fdc] at held
          rw [number]
          exact foreign m y other held
        have own (y : Sale) (held : s.lineLostAt.roundsLineOff.sale? n = some y) : y.state ≠ .authorising := by
          rw [State.sale?, pump?_congr fdc] at held
          cases (sale?_of at_ sale).symm.trans held
          rw [state]
          exact nofun
        have kept := before.keeps n rfl r ((congrArg Fdc.journal fdc) ▸ there) others own
        exact records r kept number (before.foreign others)
      · refine ⟨[], ?_⟩
        rw [List.append_nil]
        rfl
  · exact abandonAsk_asker open_ queue asked ▸ failHead_failed .noLine false queue
  · have dropped : (s.dropLoans fun _ => true) = { s with pwb := { s.pwb with loans := [] } } := by
      have none : s.pwb.loans.filter (fun _ => !true) = [] := List.filter_eq_nil_iff.mpr fun _ _ => Bool.false_ne_true
      unfold State.dropLoans
      rw [none]
    rw [loansLineOff_eq]
    unfold State.loansEnded State.shedIfShort
    rw [dropped]
    exact if_congr List.isEmpty_iff rfl rfl
  · intro f
    refine ⟨fun room => ?_, fun full => ?_, (within_queueFrame s fr).1⟩
    · rw [queueFrame_queued on room (by simp [acceptedIn, low, high])]
      exact txInsert_split f s.lif.tx
    · obtain ⟨flag, cases⟩ := queueFrame_full on low high full
      refine ⟨flag, fun h found => ?_⟩
      obtain ⟨above, below⟩ := cases h found
      refine ⟨above, fun lower => ?_⟩
      rw [below lower]
      refine ⟨mem_txInsert.mpr (.inl rfl), fun g hg => (mem_txInsert.mp hg).imp_right fun left => ?_⟩
      obtain ⟨there, other⟩ := List.mem_filter.mp left
      exact ⟨there, bne_iff_ne.mp other⟩

end Sys2Proof.Machine
end

section
/-! PROOFS. O55: what PWB's going on leaves of the line, the loans and the records (R57 to R59, R70, R98). -/

namespace Sys2Proof.Machine

set_option Elab.async false

section
variable {s t u : State} {n m : Nat} {d : Demand}

/-! ### Frames handed to LIF (R165) -/

/-- From `s` to `t` LIF took frames at most: the line state, its listen and its attempt stay. -/
structure LineStands (s t : State) : Prop where
  state     : t.lif.state = s.lif.state
  listenEnd : t.lif.listenEnd = s.lif.listenEnd
  attempt   : t.lif.attempt = s.lif.attempt

namespace LineStands

theorem of_eq (h : t.lif = s.lif) : LineStands s t := ⟨by rw [h], by rw [h], by rw [h]⟩

theorem refl (s : State) : LineStands s s := of_eq rfl

theorem trans (h : LineStands s t) (g : LineStands t u) : LineStands s u :=
  ⟨g.state.trans h.state, g.listenEnd.trans h.listenEnd, g.attempt.trans h.attempt⟩

end LineStands

theorem lineStands_giveReport (s : State) (f : TxFrame) (b : Bool) : LineStands s (s.giveReport f b) := by
  unfold State.giveReport
  split
  · exact ⟨rfl, rfl, rfl⟩
  · exact .refl s

theorem lineStands_queueFrame (s : State) (fr : Frame) : LineStands s (s.queueFrame fr) := by
  let u : State := { s with lif := { s.lif with serial := s.lif.serial + 1 } }
  have refused (f : TxFrame) : LineStands s ((u.giveReport f false).setFlag .txDropped) :=
    LineStands.trans (t := u) ⟨rfl, rfl, rfl⟩ ((lineStands_giveReport u f false).trans (.of_eq rfl))
  unfold State.queueFrame
  dsimp only
  split
  · exact LineStands.trans (t := u) ⟨rfl, rfl, rfl⟩ (lineStands_giveReport u _ false)
  · split
    · exact ⟨rfl, rfl, rfl⟩
    · split
      · split
        · refine LineStands.trans ?_ ((lineStands_giveReport _ _ false).trans (.of_eq rfl))
          exact ⟨rfl, rfl, rfl⟩
        · exact refused _
      · exact refused _

theorem lineStands_zeroSettle (s : State) (h : HoldRef) (sale : Nat) : LineStands s (s.zeroSettle h sale) := by
  unfold State.zeroSettle
  split
  · exact lineStands_queueFrame s _
  · exact .refl s

theorem lineStands_endUnusedCore (s : State) (n : Nat) (c : AuthCause) (r : LapseReason) :
    LineStands s (s.endUnusedCore n c r) := by
  unfold State.endUnusedCore
  split
  · exact .refl s
  next x sale =>
    have given : LineStands s (match x.hold with | some h => s.zeroSettle h x.number | none => s) := by
      split
      · exact lineStands_zeroSettle s _ _
      · exact .refl s
    dsimp only
    split
    · refine given.trans (.of_eq ?_)
      exact (within_setFlag _ _).lif.trans (((within_modPump _ n _).lif.trans rfl).trans (within_modPump _ n _).lif)
    · refine given.trans (.of_eq ?_)
      exact (within_setFlag _ _).lif.trans (((within_modPump _ n _).lif.trans rfl).trans (within_modPump _ n _).lif)

theorem lineStands_pumpFailed (s : State) (n : Nat) (c : AuthCause) : LineStands s (s.pumpFailed n c) := by
  rcases pumpFailed_cases s n c with same | ⟨x, -, -, ends⟩
  · exact .of_eq (by rw [same])
  · rw [ends]
    exact lineStands_endUnusedCore s n c .cancelled

/-! ### PWB goes on -/

/-- What a loan record is of: neither a recall nor its deadline moves it (R58). -/
def Loan.terms (l : Loan) : Nat × Bool × Nat × Nat := (l.partner, l.lent, l.amount, l.pledge)

/-- From `s` to `t` PWB went on: the line stands, no loan was made or ended, no offer came to a
collection, and the records kept their numbers. -/
structure GoesOn (s t : State) : Prop extends LineStands s t where
  terms   : t.pwb.loans.map Loan.terms = s.pwb.loans.map Loan.terms
  offers  : ∀ c, t.pwb.collection = some c → ∀ o ∈ c.offers, ∃ c', s.pwb.collection = some c' ∧ o ∈ c'.offers
  numbers : t.occ.records.map Occupancy.number = s.occ.records.map Occupancy.number

namespace GoesOn

theorem quiet (line : LineStands s t) (loans : t.pwb.loans = s.pwb.loans)
    (collection : t.pwb.collection = s.pwb.collection)
    (numbers : t.occ.records.map Occupancy.number = s.occ.records.map Occupancy.number) : GoesOn s t where
  toLineStands := line
  terms := by rw [loans]
  offers c open_ o ho := ⟨c, collection.symm.trans open_, ho⟩
  numbers := numbers

theorem refl (s : State) : GoesOn s s := quiet (.refl s) rfl rfl rfl

theorem trans (h : GoesOn s t) (g : GoesOn t u) : GoesOn s u where
  toLineStands := h.toLineStands.trans g.toLineStands
  terms := g.terms.trans h.terms
  offers c open_ o ho := by
    obtain ⟨c', open', ho'⟩ := g.offers c open_ o ho
    exact h.offers c' open' o ho'
  numbers := g.numbers.trans h.numbers

theorem foldl {α : Type} {step : State → α → State} (one : ∀ s x, GoesOn s (step s x)) (l : List α) (s : State) :
    GoesOn s (l.foldl step s) := by
  induction l generalizing s with
  | nil => exact .refl s
  | cons x l ih => exact (one s x).trans (ih _)

end GoesOn

theorem modOcc_numbers (s : State) (n : Nat) {f : Occupancy → Occupancy} (same : ∀ r, (f r).number = r.number) :
    (s.modOcc n f).occ.records.map Occupancy.number = s.occ.records.map Occupancy.number := by
  show (modifyKey Occupancy.number n f s.occ.records).map Occupancy.number = _
  unfold modifyKey
  rw [List.map_map]
  refine List.map_congr_left fun r _ => ?_
  simp only [Function.comp_apply]
  split
  · exact same r
  · rfl

theorem goesOn_serveHead (s : State) (d : Demand) : GoesOn s (s.serveHead d) := by
  obtain ⟨loans, collection, lif⟩ := serveHead_loans s d
  refine .quiet (.of_eq lif) loans collection ?_
  rcases serveHead_occ s d with same | ⟨-, p, y, k, -, -, -, occ⟩
  · rw [same]
  · rw [occ]
    exact modOcc_numbers s k fun _ => rfl

theorem goesOn_failHead (s : State) (d : Demand) (c : FailCause) (short : Bool) : GoesOn s (s.failHead d c short) := by
  obtain ⟨loans, collection, other, pump⟩ := failHead_parts s d c short
  refine .quiet ?_ loans collection (by rw [failHead_occ])
  by_cases kind : d.kind = .pump
  · obtain ⟨u, lif, -, b, same⟩ := pump kind
    rw [same]
    exact (LineStands.of_eq lif).trans (lineStands_pumpFailed u d.source b)
  · exact .of_eq (other kind).1

theorem goesOn_queueFrame (s : State) (fr : Frame) : GoesOn s (s.queueFrame fr) :=
  .quiet (lineStands_queueFrame s fr) (by rw [(within_queueFrame s fr).pwb]) (by rw [(within_queueFrame s fr).pwb])
    (by rw [(within_queueFrame s fr).occ])

theorem goesOn_recallOne (s : State) (n : Nat) : GoesOn s (s.recallOne n) := by
  unfold State.recallOne
  split
  · exact .refl s
  next l found =>
    dsimp only
    refine GoesOn.trans ?_ (goesOn_queueFrame _ _)
    refine ⟨.of_eq rfl, ?_, fun c open_ o ho => ⟨c, open_, ho⟩, rfl⟩
    dsimp only
    rw [List.map_map]
    refine List.map_congr_left fun x _ => ?_
    simp only [Function.comp_apply]
    split <;> rfl

theorem goesOn_recallFor (s : State) (l : List Nat) : GoesOn s (s.recallFor l) :=
  (GoesOn.foldl goesOn_recallOne l s).trans (.quiet (.of_eq rfl) rfl rfl rfl)

theorem goesOn_askFor (s : State) (d : Demand) (a : Nat) : GoesOn s (s.askFor d a) := by
  unfold State.askFor
  dsimp only
  refine GoesOn.trans ?_ (goesOn_queueFrame _ _)
  refine ⟨.of_eq rfl, rfl, fun c open_ o ho => ?_, rfl⟩
  cases open_
  exact absurd ho List.not_mem_nil

theorem goesOn_energise (s : State) (n figure : Nat) : GoesOn s (s.energise n figure) := by
  have within := within_energise s n figure
  exact .quiet (.of_eq within.lif) rfl rfl (by rw [within.occ])

theorem goesOn_settle (s : State) : GoesOn s s.settle := by
  refine (settle_keeps (P := GoesOn s) ?_ ?_ ?_ ?_ ?_ s s (.refl s)).1
  · exact fun u d _ _ h => h.trans (goesOn_serveHead u d)
  · exact fun u d _ c b _ h => h.trans (goesOn_failHead u d c b)
  · exact fun u l h => h.trans (goesOn_recallFor u l)
  · exact fun u d a h => h.trans (goesOn_askFor u d a)
  · refine fun u e r _ h => GoesOn.trans ?_ (goesOn_energise _ e.point e.figure)
    exact h.trans (.quiet (.of_eq rfl) rfl rfl rfl)

/-! ### The first ON LINE (R100) -/

theorem goesOn_offer (s : State) (q figure : Nat) : GoesOn s (s.offer q figure) := by
  rcases bare_or_busy s q with free | busy
  · rw [offer_eq free]
    split
    · exact .quiet (.of_eq rfl) rfl rfl rfl
    · split
      · exact GoesOn.trans (t := s.withEnergise q figure) (.quiet (.of_eq rfl) rfl rfl rfl) (goesOn_settle _)
      · exact .quiet (.of_eq rfl) rfl rfl rfl
  · rw [offer_busy busy]
    exact .quiet (.of_eq rfl) rfl rfl rfl

theorem goesOn_callEnergise (s : State) (q : Nat) (r : Occupancy) : GoesOn s (s.callEnergise q r) := by
  cases down : s.postDown q with
  | true =>
    rw [callEnergise_down down]
    exact .quiet (.of_eq rfl) rfl rfl rfl
  | false =>
    cases profile : r.profile with
    | none =>
      rw [callEnergise_bare down profile]
      exact .refl s
    | some y =>
      rw [callEnergise_up down profile]
      exact goesOn_offer s q y.figure

theorem goesOn_commandArrival (s : State) (q : Nat) (r : Occupancy) : GoesOn s (s.commandArrival q r) := by
  unfold State.commandArrival
  split
  · split
    · exact .quiet (.of_eq rfl) rfl rfl rfl
    · exact (goesOn_callEnergise s q r).trans (.quiet (.of_eq rfl) rfl rfl rfl)
  · exact .refl s

end

end Sys2Proof.Machine
end

section
/-! PROOFS. O55: the listen, the silence watch and the retained records' energising (R170, R176, R100). -/

namespace Sys2Proof.Machine

set_option Elab.async false

section
variable {s t : State} {n q : Nat} {p : Point} {r : Occupancy} {y : Profile}

/-! ### The retained record (R100) -/

/-- The retained record `r`, charged at the point `q`, draws at the first ON LINE: its outlet is OFF and has no
ENERGISE demand (R100). -/
structure Draws (n : Nat) (r : Occupancy) (q : Nat) (p : Point) (s : State) : Prop where
  along    : r.state = .alongside
  berth    : s.berthPoint r.berth = some q
  point    : s.point? q = some p
  charging : p.charging = some n
  standing : r.account.state ≠ .barred
  off      : p.outlet = .off
  free     : ∀ d ∈ s.pwb.demands, d.kind = .energise → d.source ≠ q

theorem undemanded_iff (s : State) (q : Nat) : s.demandQueued q = false ↔
    ∀ d ∈ s.pwb.demands, d.kind = .energise → d.source ≠ q := by
  rw [Bool.eq_false_iff, ne_eq, demandQueued_iff]
  push Not
  rfl

theorem retainEnergise_draws (live : s.occ? n = some r) (draws : Draws n r q p s) :
    s.retainEnergise n = (s.callEnergise q r).followTap q := by
  have free := (undemanded_iff s q).mpr draws.free
  unfold State.retainEnergise
  simp only [live, draws.berth, draws.point]
  rw [if_pos (by simp [draws.along, draws.charging, draws.standing, draws.off, free]),
    commandArrival_alongside draws.along, if_neg draws.standing]

theorem retainEnergise_rests (rests : ∀ r q p, s.occ? n = some r → ¬ Draws n r q p s) : s.retainEnergise n = s := by
  unfold State.retainEnergise
  split
  · rfl
  next r live =>
    split
    · rfl
    next q berth =>
      split
      · rfl
      next p point =>
        refine if_neg fun draws => rests r q p live ?_
        simp only [Bool.and_eq_true, decide_eq_true_eq, bne_iff_ne, Bool.not_eq_true'] at draws
        obtain ⟨⟨⟨⟨along, charging⟩, standing⟩, off⟩, free⟩ := draws
        exact ⟨along, berth, point, charging, standing, off, (undemanded_iff s q).mp free⟩

theorem retainEnergise_faultOff (live : s.occ? n = some r) (draws : Draws n r q p s) (profile : r.profile = some y)
    (down : s.postDown q = true) :
    (s.retainEnergise n).point? q = some (Point.setTap { p with outlet := .faultOff } (p.tapFitted && y.tapOpen)) ∧
    OnlyChanges [.spc] s (s.retainEnergise n) := by
  rw [retainEnergise_draws live draws]
  have tap := callEnergise_faultOff draws.point draws.charging live draws.along draws.standing down
  rw [profile] at tap
  refine ⟨tap, ?_⟩
  rw [callEnergise_down down]
  exact ((within_setOutlet s q _).trans (within_followTap _ q) : Within [.spc] s _).quiet rfl

theorem retainEnergise_offered (live : s.occ? n = some r) (draws : Draws n r q p s) (profile : r.profile = some y)
    (up : s.postDown q = false) (free : ∀ d ∈ s.pwb.demands, d.kind = .raise → d.source ≠ q) :
    Offered q p y s (s.retainEnergise n) := by
  rw [retainEnergise_draws live draws]
  refine callEnergise_offered draws.point (fun _ _ => rfl) rfl (.refl _ s) (fun d hd => ?_) draws.charging live
    draws.along draws.standing profile up
  cases kind : d.kind with
  | energise => exact .inr (draws.free d hd kind)
  | raise => exact .inr (free d hd kind)
  | pump => exact .inl rfl

/-- The step of one record leaves the line and SPC's own marks (R100). -/
theorem retainEnergise_keeps (s : State) (n : Nat) : GoesOn s (s.retainEnergise n) ∧ OnlyPoints s (s.retainEnergise n) := by
  unfold State.retainEnergise
  split
  · exact ⟨.refl s, rfl⟩
  · split
    · exact ⟨.refl s, rfl⟩
    · split
      · exact ⟨.refl s, rfl⟩
      · split
        · exact ⟨goesOn_commandArrival s _ _, (commandArrival_keeps s _ _).2⟩
        · exact ⟨.refl s, rfl⟩

theorem foldl_retainEnergise_keeps (l : List Nat) : ∀ s : State, GoesOn s (l.foldl State.retainEnergise s) ∧
    OnlyPoints s (l.foldl State.retainEnergise s) := by
  induction l with
  | nil => exact fun s => ⟨.refl s, rfl⟩
  | cons n l ih =>
    intro s
    obtain ⟨goes, points⟩ := retainEnergise_keeps s n
    obtain ⟨goes', points'⟩ := ih (s.retainEnergise n)
    exact ⟨goes.trans goes', points.trans points'⟩

/-! ### The entry to ON LINE (R170) -/

/-- ON LINE entered with LINE UP, before the retained records (R170). -/
def State.lineUp (s : State) : State := { s with
  lif := { s.lif with
    state := .onLine
    listenEnd := none }
  pnp := s.pnp.flagged Flag.lineUp.bit }

theorem enterOnLine_due (due : s.spc.energiseDue = true) : s.enterOnLine =
    (s.occ.records.map Occupancy.number).foldl State.retainEnergise { s.lineUp with spc := { s.spc with
      energiseDue := false
      heldBack := [] } } := if_pos due

theorem enterOnLine_later (later : s.spc.energiseDue = false) : s.enterOnLine = s.lineUp :=
  if_neg (ne_true_of_eq_false (b := s.spc.energiseDue) later)

theorem enterOnLine_entered (s : State) : s.enterOnLine.lif.state = .onLine ∧ s.enterOnLine.lif.listenEnd = none ∧
    s.enterOnLine.spc.energiseDue = false := by
  cases due : s.spc.energiseDue with
  | false =>
    rw [enterOnLine_later due]
    exact ⟨rfl, rfl, due⟩
  | true =>
    rw [enterOnLine_due due]
    obtain ⟨goes, points⟩ := foldl_retainEnergise_keeps (s.occ.records.map Occupancy.number)
      { s.lineUp with spc := { s.spc with energiseDue := false, heldBack := [] } }
    exact ⟨goes.state, goes.listenEnd, by rw [points]⟩

theorem within_lineUp (s : State) : Within [.lif] s s.lineUp :=
  (within_lif s { s.lif with state := .onLine, listenEnd := none }).andThen (within_setFlag _ .lineUp)

theorem enterOnLine_empty (empty : s.occ.records = []) : Within [.lif, .spc] s s.enterOnLine := by
  cases due : s.spc.energiseDue with
  | false =>
    rw [enterOnLine_later due]
    exact (within_lineUp s).mono (by decide)
  | true =>
    rw [enterOnLine_due due, empty]
    exact (within_lineUp s).andThen (within_spc s.lineUp _)

theorem enterOnLine_lineUp (s : State) : s.enterOnLine.hasFlag .lineUp = true := by
  have later : Within pwbParts s.lineUp s.enterOnLine :=
    within_firstOnLine (({ s with lif := { s.lif with state := .onLine, listenEnd := none } } : State).setFlag .lineUp)
  exact later.hasFlag (setFlag_hasFlag .lineUp { s with lif := { s.lif with state := .onLine, listenEnd := none } })

/-! ### The listen, the silence watch and activity (R170, R176) -/

theorem exec_listenEnd {k : Nat} (on : s.powered = true) (joining : s.lif.state = .joining) (ends : s.lif.listenEnd = some k) :
    exec .listenEnd s = .next (s.advanceTo k).enterOnLine := by
  show Host.Outcome.next (s.event _) = _
  rw [State.event_on on]
  simp only [joining, ends]

/-- An event whose body stays, stays, with power or without. -/
theorem event_same {body : State → State} (same : body s = s) : s.event body = s := by
  unfold State.event
  split
  · exact same
  · rfl

theorem exec_listenEnd_other (other : s.lif.state ≠ .joining) : exec .listenEnd s = .next s := by
  refine congrArg Host.Outcome.next (event_same ?_)
  split
  next joining _ => exact absurd joining other
  · rfl

theorem exec_silenceWatchEnd {k : Nat} (on : s.powered = true) (off : s.lif.state = .lineOff) (ends : s.lif.silenceEnd = some k) :
    exec .silenceWatchEnd s = .next ((s.advanceTo k).enterJoining .line) := by
  show Host.Outcome.next (s.event _) = _
  rw [State.event_on on]
  simp only [off, ends]

theorem exec_watches_other (other : s.lif.state ≠ .lineOff) :
    exec .silenceWatchEnd s = .next s ∧ exec .lineActivity s = .next s := by
  refine ⟨congrArg Host.Outcome.next (event_same ?_), congrArg Host.Outcome.next (event_same (if_neg other))⟩
  split
  next off _ => exact absurd off other
  · rfl

theorem exec_lineActivity (on : s.powered = true) (off : s.lif.state = .lineOff) : exec .lineActivity s =
    .next { s with lif := { s.lif with silenceEnd := some (s.elapsed + 1000000) } } := by
  show Host.Outcome.next (s.event _) = _
  rw [State.event_on on, if_pos off]
  rfl

/-- The end of the listen, whole (R170). -/
theorem listenEnd_enters {k : Nat} (on : s.powered = true) (joining : s.lif.state = .joining)
    (ends : s.lif.listenEnd = some k) : ∃ t, exec .listenEnd s = .next t ∧ t.lif.state = .onLine ∧
      t.lif.listenEnd = none ∧ t.hasFlag .lineUp = true ∧ t.acknowledges = true ∧
      t.elapsed = (s.advanceTo k).elapsed ∧ t.sch = (s.advanceTo k).sch ∧ t.spc.energiseDue = false ∧
      (s.spc.energiseDue = true → t = (s.occ.records.map Occupancy.number).foldl State.retainEnergise
        { s.advanceTo k with
          lif := { s.lif with
            state := .onLine
            listenEnd := none }
          pnp := s.pnp.flagged Flag.lineUp.bit
          spc := { s.spc with
            energiseDue := false
            heldBack := [] } }) ∧
      (s.spc.energiseDue = false → t = { s.advanceTo k with
        lif := { s.lif with
          state := .onLine
          listenEnd := none }
        pnp := s.pnp.flagged Flag.lineUp.bit }) ∧
      (s.occ.records = [] → OnlyChanges [.pnp, .elapsed, .sch, .lif, .spc] s t) := by
  obtain ⟨state, listen, due⟩ := enterOnLine_entered (s.advanceTo k)
  have entered := within_enterOnLine (s.advanceTo k)
  have lif : (s.advanceTo k).lif = s.lif := advanceTo_lif s k
  have pnp : (s.advanceTo k).pnp = s.pnp := advanceTo_pnp s k
  have spc : (s.advanceTo k).spc = s.spc := advanceTo_spc s k
  have occ : (s.advanceTo k).occ = s.occ := advanceTo_occ s k
  have powered : (s.advanceTo k).enterOnLine.powered = true :=
    (entered.frame .powered (by decide)).trans ((advanceTo_powered s k).trans on)
  have later (no : s.spc.energiseDue = false) : (s.advanceTo k).enterOnLine = { s.advanceTo k with
      lif := { s.lif with
        state := .onLine
        listenEnd := none }
      pnp := s.pnp.flagged Flag.lineUp.bit } := by
    rw [enterOnLine_later (by rw [spc]; exact no), State.lineUp, lif, pnp]
  have now (yes : s.spc.energiseDue = true) : (s.advanceTo k).enterOnLine =
      (s.occ.records.map Occupancy.number).foldl State.retainEnergise { s.advanceTo k with
        lif := { s.lif with
          state := .onLine
          listenEnd := none }
        pnp := s.pnp.flagged Flag.lineUp.bit
        spc := { s.spc with
          energiseDue := false
          heldBack := [] } } := by
    rw [enterOnLine_due (by rw [spc]; exact yes), occ]
    simp only [State.lineUp, lif, pnp, spc]
  refine ⟨_, exec_listenEnd on joining ends, state, listen, enterOnLine_lineUp _, ?_,
    entered.frame .elapsed (by decide), entered.frame .sch (by decide), due, now, later, fun empty => ?_⟩
  · unfold State.acknowledges State.onSegment
    rw [powered, state]
    rfl
  · exact ((within_advanceTo s k).andThen (enterOnLine_empty (by rw [occ]; exact empty)) :
      Within [.elapsed, .sch, .lif, .spc] s _).1

end

end Sys2Proof.Machine
end

section
/-! PROOFS. O55: a peer's JOIN (R174, R70, R22). -/

namespace Sys2Proof.Machine

set_option Elab.async false

section
variable {s t u : State} {n m k : Nat} {r : Occupancy}

/-! ### PWB: the loans and the offer of the station (R70) -/

theorem goesOn_shedIfShort (s : State) : GoesOn s s.shedIfShort := by
  unfold State.shedIfShort
  split
  · have within := within_shedPass s
    exact .quiet (.of_eq within.lif) (shedPass_loans s) (shedPass_collection s) (by rw [within.occ])
  · exact .refl s

/-- The loans and the offer of a station gone, before PWB goes on (R70). -/
def State.joinDrops (n : Nat) (s : State) : State := (s.dropOffer n).dropLoans fun l => l.partner == n

theorem loansOnJoin_none (none : ∀ l ∈ s.pwb.loans, l.partner ≠ n) : s.loansOnJoin n = s.dropOffer n :=
  if_neg (by simpa using none)

/-- With no loan of the station there is none to drop (R70). -/
theorem joinDrops_none (none : ∀ l ∈ s.pwb.loans, l.partner ≠ n) : s.joinDrops n = s.dropOffer n := by
  have all : (s.pwb.loans.filter fun l => !(l.partner == n)) = s.pwb.loans :=
    List.filter_eq_self.mpr fun l hl => by simpa using none l hl
  show ({ s.dropOffer n with pwb := { (s.dropOffer n).pwb with
    loans := s.pwb.loans.filter fun l => !(l.partner == n) } } : State) = _
  rw [all]
  rfl

theorem goesOn_loansOnJoin (s : State) (n : Nat) : GoesOn (s.joinDrops n) (s.loansOnJoin n) := by
  by_cases none : ∀ l ∈ s.pwb.loans, l.partner ≠ n
  · rw [loansOnJoin_none none, joinDrops_none none]
    exact .refl _
  · unfold State.loansOnJoin
    rw [if_pos (by simpa using none)]
    exact (goesOn_shedIfShort (s.joinDrops n)).trans (goesOn_settle _)

theorem loansOnJoin_line (s : State) (n : Nat) : LineStands s (s.loansOnJoin n) :=
  (LineStands.of_eq rfl : LineStands s (s.joinDrops n)).trans (goesOn_loansOnJoin s n).toLineStands

theorem loansOnJoin_terms (s : State) (n : Nat) : (s.loansOnJoin n).pwb.loans.map Loan.terms =
    (s.pwb.loans.filter fun l => !(l.partner == n)).map Loan.terms := (goesOn_loansOnJoin s n).terms

theorem loansOnJoin_partner {l : Loan} (there : l ∈ (s.loansOnJoin n).pwb.loans) : l.partner ≠ n := by
  have listed : l.terms ∈ (s.loansOnJoin n).pwb.loans.map Loan.terms := List.mem_map_of_mem there
  rw [loansOnJoin_terms] at listed
  obtain ⟨x, hx, same⟩ := List.mem_map.mp listed
  have other : x.partner ≠ n := by simpa using (List.mem_filter.mp hx).2
  rwa [show x.partner = l.partner from congrArg Prod.fst same] at other

theorem loansOnJoin_others {l : Loan} (there : l ∈ s.pwb.loans) (other : l.partner ≠ n) :
    ∃ x ∈ (s.loansOnJoin n).pwb.loans, x.partner = l.partner ∧ x.lent = l.lent ∧ x.amount = l.amount ∧
      x.pledge = l.pledge := by
  have listed : l.terms ∈ (s.pwb.loans.filter fun l => !(l.partner == n)).map Loan.terms :=
    List.mem_map_of_mem (List.mem_filter.mpr ⟨there, by simpa using other⟩)
  rw [← loansOnJoin_terms] at listed
  obtain ⟨x, hx, same⟩ := List.mem_map.mp listed
  simp only [Loan.terms, Prod.mk.injEq] at same
  exact ⟨x, hx, same⟩

theorem loansOnJoin_offers {c : Collection} (open_ : (s.loansOnJoin n).pwb.collection = some c) {o : Offer}
    (there : o ∈ c.offers) : o.lender ≠ n := by
  obtain ⟨c', before, there'⟩ := (goesOn_loansOnJoin s n).offers c open_ o there
  obtain ⟨c'', -, rfl⟩ := Option.map_eq_some_iff.mp before
  simpa using (List.mem_filter.mp there').2

/-- Of a record PWB's going on moves no more than the profile (R98). -/
theorem loansOnJoin_record (live : s.occ? m = some r) : OnlyProfile m r (s.loansOnJoin n) := by
  have here : OnlyProfile m r s := ⟨r.profile, live⟩
  by_cases none : ∀ l ∈ s.pwb.loans, l.partner ≠ n
  · rw [loansOnJoin_none none]
    exact here
  · unfold State.loansOnJoin
    rw [if_pos (by simpa using none)]
    exact (settle_profile s (here.congr (within_shedIfShort (s.joinDrops n)).occ)).1

/-! ### BAL: the rounds of the station (R22) -/

theorem foldl_discardRound_bal (l : List Round) : ∀ s : State, (l.foldl (fun s r => s.discardRound r) s).bal = { s.bal with
    rounds := s.bal.rounds.filter fun r => !l.any fun x => r.tag == x.tag
    berths := s.bal.berths.map fun b => if (l.any fun x => b.mark == some x.tag) = true then { b with mark := none } else b } := by
  induction l with
  | nil =>
    intro s
    simp
  | cons x l ih =>
    intro s
    rw [List.foldl_cons, ih, discardRound_eq]
    have marks (b : Berth) : (if (l.any fun y => (if b.mark = some x.tag then { b with mark := none } else b).mark == some y.tag) = true
          then { (if b.mark = some x.tag then { b with mark := none } else b) with mark := none }
          else if b.mark = some x.tag then { b with mark := none } else b) =
        if ((x :: l).any fun y => b.mark == some y.tag) = true then { b with mark := none } else b := by
      by_cases own : b.mark = some x.tag <;> simp [own]
    have rounds : (untagged x.tag s.bal.rounds).filter (fun r => !l.any fun y => r.tag == y.tag) =
        s.bal.rounds.filter fun r => !(x :: l).any fun y => r.tag == y.tag := by
      simp only [untagged, List.filter_filter, List.any_cons, Bool.not_or, Bool.and_comm, bne]
    simp only [unmark, List.map_map, Function.comp_def, marks, rounds]

theorem roundsOnJoin_bal (s : State) (n : Nat) : (s.roundsOnJoin n).bal = { s.bal with
    rounds := s.bal.rounds.filter fun r => r.tag.station != n
    berths := s.bal.berths.map fun b =>
      if (s.bal.rounds.any fun r => r.tag.station == n && b.mark == some r.tag) = true then { b with mark := none } else b } := by
  unfold State.roundsOnJoin
  rw [foldl_discardRound_bal]
  have rounds : (s.bal.rounds.filter fun r => !s.bal.rounds.any fun x => x.tag.station == n && r.tag == x.tag) =
      s.bal.rounds.filter fun r => r.tag.station != n := by
    refine List.filter_congr fun r hr => ?_
    rw [Bool.eq_iff_iff]
    simp only [Bool.not_eq_true', List.any_eq_false, Bool.and_eq_true, beq_iff_eq, bne_iff_ne, not_and, ne_eq]
    exact ⟨fun none own => none r hr own rfl, fun other _ _ own same => other (same ▸ own)⟩
  simp only [List.any_filter, rounds]

/-- What discards leave of the transmit queue: frames go alone, and a queued BID of a round discarded goes unless it
is in an attempt (R169). -/
theorem foldl_discardRound_line (l : List Round) : ∀ s : State,
    (l.foldl (fun s r => s.discardRound r) s).lif.tx ⊆ s.lif.tx ∧
    ∀ r ∈ l, r.state = .bidQueued → ∀ k, r.bidFrame = some k → s.lif.attempt ≠ some k →
      ∀ g ∈ (l.foldl (fun s r => s.discardRound r) s).lif.tx, g.serial ≠ k := by
  induction l with
  | nil => exact fun s => ⟨List.Subset.refl _, nofun⟩
  | cons x l ih =>
    intro s
    rw [List.foldl_cons]
    obtain ⟨fewer, gone⟩ := ih (s.discardRound x)
    have lif : (s.discardRound x).lif = if x.state = .bidQueued then s.lif.without x.bidFrame else s.lif := by
      rw [discardRound_eq]
    have attempt : (s.discardRound x).lif.attempt = s.lif.attempt := by
      rw [lif]
      split <;> rfl
    have sub : (s.discardRound x).lif.tx ⊆ s.lif.tx := by
      rw [lif]
      split
      · exact List.filter_subset_self _
      · exact List.Subset.refl _
    refine ⟨List.Subset.trans fewer sub, fun r hr queued k bid free g hg => ?_⟩
    rcases List.mem_cons.mp hr with rfl | hr
    · have left := fewer hg
      rw [lif, if_pos queued] at left
      rintro rfl
      have := (List.mem_filter.mp left).2
      simp [bid, free] at this
    · exact gone r hr queued k bid (by rw [attempt]; exact free) g hg

/-! ### OCC: the receipts and the holds of the station (R174) -/

/-- A record after a JOIN: the receipts of the station gone, its holds without pump and ask (R174). -/
def Occupancy.joined (n : Nat) (r : Occupancy) : Occupancy := { r with
  receipts := r.receipts.filter fun x => x.station != n
  holds := r.holds.map fun h => if h.station = n then { h with
    pump := none
    ask := none } else h }

theorem receiptsOnJoin_occ? (s : State) (n m : Nat) : (s.receiptsOnJoin n).occ? m = (s.occ? m).map (Occupancy.joined n) := by
  show lookupKey Occupancy.number m (s.occ.records.map (Occupancy.joined n)) = _
  unfold lookupKey
  rw [List.find?_map]
  rfl

theorem receiptsOnJoin_numbers (s : State) (n : Nat) :
    (s.receiptsOnJoin n).occ.records.map Occupancy.number = s.occ.records.map Occupancy.number := by
  show (s.occ.records.map (Occupancy.joined n)).map Occupancy.number = _
  rw [List.map_map]
  rfl

/-! ### The JOIN taken (R174) -/

/-- What the JOIN of a station does, PWB first, then BAL, then OCC (R173, log 60). -/
def State.joinedBy (n : Nat) (s : State) : State := ((s.loansOnJoin n).roundsOnJoin n).receiptsOnJoin n

theorem joinedBy_pwb (s : State) (n : Nat) : (s.joinedBy n).pwb = (s.loansOnJoin n).pwb :=
  (within_roundsOnJoin (s.loansOnJoin n) n).pwb

theorem joinedBy_lif (s : State) (n : Nat) : (s.joinedBy n).lif = ((s.loansOnJoin n).roundsOnJoin n).lif := rfl

theorem joinedBy_bal (s : State) (n : Nat) : (s.joinedBy n).bal = { s.bal with
    rounds := s.bal.rounds.filter fun r => r.tag.station != n
    berths := s.bal.berths.map fun b =>
      if (s.bal.rounds.any fun r => r.tag.station == n && b.mark == some r.tag) = true then { b with mark := none } else b } := by
  have bal : (s.loansOnJoin n).bal = s.bal := (within_loansOnJoin s n).frame .bal (by decide)
  rw [← bal]
  exact roundsOnJoin_bal (s.loansOnJoin n) n

/-- The queued BID of a round of the station leaves the transmit queue unless it is in an attempt (R22, R169). -/
theorem joinedBy_bids {r : Round} (there : r ∈ s.bal.rounds) (own : r.tag.station = n) (queued : r.state = .bidQueued)
    (bid : r.bidFrame = some k) (free : s.lif.attempt ≠ some k) {g : TxFrame}
    (hg : g ∈ (s.joinedBy n).lif.tx) : g.serial ≠ k := by
  have bal : (s.loansOnJoin n).bal = s.bal := (within_loansOnJoin s n).frame .bal (by decide)
  have listed : r ∈ (s.loansOnJoin n).bal.rounds.filter fun r => r.tag.station == n := by
    rw [bal]
    exact List.mem_filter.mpr ⟨there, by simpa using own⟩
  exact (foldl_discardRound_line _ (s.loansOnJoin n)).2 r listed queued k bid
    (by rw [(loansOnJoin_line s n).attempt]; exact free) g hg

theorem joinedBy_numbers (s : State) (n : Nat) :
    (s.joinedBy n).occ.records.map Occupancy.number = s.occ.records.map Occupancy.number := by
  refine (receiptsOnJoin_numbers _ n).trans ?_
  rw [(within_roundsOnJoin (s.loansOnJoin n) n).occ]
  exact (goesOn_loansOnJoin s n).numbers

theorem joinedBy_record (live : s.occ? m = some r) : ∃ y, (s.joinedBy n).occ? m =
    some (Occupancy.joined n { r with profile := y }) := by
  obtain ⟨y, here⟩ := loansOnJoin_record (n := n) live
  refine ⟨y, (receiptsOnJoin_occ? _ n m).trans ?_⟩
  rw [occ?_congr (within_roundsOnJoin (s.loansOnJoin n) n).occ m, here]
  rfl

theorem exec_joinFrame {src : RxSource} {f : Frame} {note : Option Nat} (on : s.powered = true)
    (got : s.takeRx 17 src = some (f, note, u)) : exec (.joinFrame src) s = .next
      (if f.sender = s.me ∨ f.num 2 1 = 0 ∨ 3 < f.num 2 1 then u else u.joinedBy f.sender) := by
  refine (congrArg Host.Outcome.next (State.frameEvent_taken on got)).trans (congrArg Host.Outcome.next ?_)
  obtain ⟨rx, loop, rfl⟩ := takeRx_eq got
  have reads : (f.sender = s.me || !within 1 3 (f.num 2 1)) = true ↔ f.sender = s.me ∨ f.num 2 1 = 0 ∨ 3 < f.num 2 1 := by
    simp only [within, Bool.or_eq_true, decide_eq_true_eq, Bool.not_eq_true', Bool.and_eq_false_iff, decide_eq_false_iff_not]
    omega
  exact if_congr reads rfl rfl

end

end Sys2Proof.Machine
end

section
/-! PROOFS. O55 settled: the listen, the silence watch and a peer's JOIN. -/

namespace Sys2Proof.Machine

set_option Elab.async false

section
variable {s u : State} {f : Frame} {note : Option Nat}

/-- What a peer's JOIN leaves (R174, R70, R22). -/
theorem joinFrame_taken {src : RxSource} (on : s.powered = true) (got : s.takeRx 17 src = some (f, note, u))
    (other : f.sender ≠ s.me) (low : 1 ≤ f.num 2 1) (high : f.num 2 1 ≤ 3) : ∃ t, exec (.joinFrame src) s = .next t ∧
      (∀ l ∈ t.pwb.loans, l.partner ≠ f.sender) ∧
      (∀ l ∈ s.pwb.loans, l.partner ≠ f.sender → ∃ x ∈ t.pwb.loans, x.partner = l.partner ∧
        x.lent = l.lent ∧ x.amount = l.amount ∧ x.pledge = l.pledge) ∧
      (∀ c, t.pwb.collection = some c → ∀ o ∈ c.offers, o.lender ≠ f.sender) ∧
      ((∀ l ∈ s.pwb.loans, l.partner ≠ f.sender) → t.pwb = { s.pwb with
        collection := s.pwb.collection.map fun c => { c with
          offers := c.offers.filter fun o => o.lender != f.sender } }) ∧
      t.bal = { s.bal with
        rounds := s.bal.rounds.filter fun r => r.tag.station != f.sender
        berths := s.bal.berths.map fun b =>
          if (s.bal.rounds.any fun r => r.tag.station == f.sender && b.mark == some r.tag) = true
          then { b with mark := none } else b } ∧
      (∀ r ∈ s.bal.rounds, r.tag.station = f.sender → r.state = .bidQueued →
        ∀ k, r.bidFrame = some k → k < s.lif.serial → s.lif.attempt ≠ some k →
          ∀ g ∈ t.lif.tx, g.serial ≠ k) ∧
      t.occ.records.map Occupancy.number = s.occ.records.map Occupancy.number ∧
      (∀ n r, s.occ? n = some r → ∃ r', t.occ? n = some r' ∧
        r'.receipts = r.receipts.filter (fun x => x.station != f.sender) ∧
        r'.holds = r.holds.map (fun h =>
          if h.station = f.sender then { h with
            pump := none
            ask := none } else h) ∧ r'.account = r.account ∧ r'.state = r.state) ∧
      OnlyChanges (mayChange (.joinFrame src)) s t := by
  have runs := (exec_joinFrame on got).trans (congrArg Host.Outcome.next (if_neg fun h =>
    h.elim other fun h => h.elim (by omega) (by omega)))
  obtain ⟨rx, loop, rfl⟩ := takeRx_eq got
  let v : State := { s with lif := { s.lif with rx := rx, loop := loop } }
  refine ⟨_, runs, fun l hl => ?_, fun l hl away => ?_, fun c open_ o ho => ?_, fun none => ?_, joinedBy_bal _ _,
    fun r hr own queued k bid _ free g hg => joinedBy_bids (s := v) hr own queued bid free hg, joinedBy_numbers _ _,
    fun n r live => ?_, frame_of_runs runs⟩
  · rw [joinedBy_pwb] at hl
    exact loansOnJoin_partner hl
  · rw [joinedBy_pwb]
    exact loansOnJoin_others (s := v) hl away
  · rw [joinedBy_pwb] at open_
    exact loansOnJoin_offers open_ ho
  · rw [joinedBy_pwb, loansOnJoin_none (s := v) none]
    rfl
  · obtain ⟨y, here⟩ := joinedBy_record (s := v) (n := f.sender) live
    exact ⟨_, here, rfl, rfl, rfl, rfl⟩

end

/-- Settles O55: the listen ends through `enterOnLine`, whose retained records go through `retainEnergise`; the
silence watch ends through `enterJoining`; a peer's JOIN is taken by PWB, BAL and OCC in turn (`State.joinedBy`), and
what PWB goes on to do then makes no loan and moves no more than a record's profile (`GoesOn`, `OnlyProfile`). -/
theorem listenSilenceAndJoins : Obligations.ListenSilenceAndJoins := by
  unfold Obligations.ListenSilenceAndJoins
  refine ⟨fun k s on => ⟨fun joining ends => listenEnd_enters on joining ends, exec_listenEnd_other,
    fun off ends empty => ?_, exec_watches_other, exec_lineActivity on⟩, fun n s => ⟨fun rests => ?_, ?_⟩,
    fun src f note s u on got => ⟨fun ignored => ?_, joinFrame_taken on got⟩⟩
  · rw [exec_silenceWatchEnd on off ends, enterJoining_eq .line (by rw [advanceTo_lif]; exact empty), advanceTo_lif]
    rw [State.me, State.me, advanceTo_straps, advanceTo_settings]
  · exact retainEnergise_rests fun r q p live ⟨along, berth, point, charging, standing, off, free⟩ =>
      rests r q p live ⟨along, berth, point, charging, standing, off, free⟩
  · rintro r q p y live ⟨along, berth, point, charging, standing, off, free⟩ profile
    have draws : Draws n r q p s := ⟨along, berth, point, charging, standing, off, free⟩
    exact ⟨retainEnergise_faultOff live draws profile, retainEnergise_offered live draws profile⟩
  · exact (exec_joinFrame on got).trans (congrArg Host.Outcome.next (if_pos ignored))

end Sys2Proof.Machine
end
